-- ==== Sys2Proof/Word.lean ====
section
/-! DEFINITION. The word types of the KLN-HV8 (00_scope.md R2, 04_scalar.md R85). -/

namespace Sys2Proof

/-- A scalar register, a virtual address, a CSR: 64 bits. -/
abbrev Word := BitVec 64

/-- The smallest addressable unit (R2). -/
abbrev Byte := BitVec 8

/-- An instruction word (R37). -/
abbrev IWord := BitVec 32

/-- A physical address (R104). -/
abbrev PAddr := BitVec 48

end Sys2Proof
end

