-- ==== Sys2Proof/Syntax.lean ====
section
/-! DEFINITION. The instructions of the KLN-HV8: one constructor per row of the operation table. The first 193 have a
32-bit word (02_encoding.md R42) and carry its fields; the last 108 are events of the machine or of its surroundings
(95_what_each_step_holds.md) and carry what names the event and the data that comes from outside the module. -/

namespace Sys2Proof

/-- A context of the module: compute die, unit number of R16 (0-127 vector cores, 128-159 QCCs), context slot. -/
structure CtxId where
  die  : Fin 8
  unit : Fin 160
  slot : Fin 4
deriving DecidableEq, Repr

/-- A fork: the die, the quad at which its configured ring begins (R12), and the thread's context slot (R24). -/
structure ForkId where
  die  : Fin 8
  quad : Fin 32
  slot : Fin 4
deriving DecidableEq, Repr

/-- Where a thread is: in a context, in a reserved dispatch entry of a die (R343), or saved with its partition (R367). -/
inductive Holder where
  | here (u : CtxId)
  | parked (die : Fin 8) (e : Nat)
  | saved (p : Fin 16) (u : CtxId)
  | outside (n : Nat)               -- a sender outside the module: the place of its demand among those that wait here
deriving DecidableEq, Repr

/-- Why chunks are unpicked: the four fields of SQCNT (R168). -/
inductive SquashCause where
  | mem | liv | cap | oth
deriving DecidableEq, Repr

/-- An instance of a barrier network of R245; a ring is named by the quad at which it begins. -/
inductive BarNet where
  | quad (die : Fin 8) (q : Fin 32)
  | ring (die : Fin 8) (first : Fin 32)
  | die (d : Fin 8)
  | package
  | pod
deriving DecidableEq, Repr

/-- One of the 16 barrier domains of a network instance (R245). -/
structure BarKey where
  net : BarNet
  idx : Fin 16
deriving DecidableEq, Repr

/-- What a target outside the module answers to a bind request (R271, R421). -/
structure BindReply where
  refused   : Option (BitVec 4)   -- a REMOTE-NACK reason code, where the target refuses; 1 stands for PEER-RESET too
  inc       : BitVec 8            -- the target's incarnation (R256)
  outDomain : Bool                -- the window does not belong to the context's rollback domain
  credit    : Nat                 -- beats granted at binding (R264)
deriving DecidableEq, Repr

/-- What a target outside the module answers to a credit demand (R264). -/
inductive GrantReply where
  | credit (beats : Nat)
  | refusal (reason : BitVec 4)
deriving DecidableEq, Repr

/-- Where an error lies: the rows of R332 and R419. -/
inductive ErrorPlace where
  | arrayCorrected
  | cleanCopy
  | sector (pa : BitVec 48)
  | context (u : CtxId)
  | snapshot (u : CtxId) (i : Fin 2)
  | egressHold (die : Fin 8) (n : Nat)
  | istore (die : Fin 8) (unit : Fin 160) (off : BitVec 17)
  | undoRegion (die : Fin 8)
  | logic
deriving DecidableEq, Repr

/-- An error as the detecting unit reports it (R387, R388): its unit path, its ECC syndrome, and where it lies. -/
structure ErrorSite where
  path  : BitVec 64
  synd  : BitVec 64
  place : ErrorPlace
deriving DecidableEq, Repr

/-- How bring-up goes (R395): the step that fails, or none up to the wait for attestation. -/
inductive BootOutcome where
  | romDead
  | badImage
  | fails (step : Fin 11)
  | trained
deriving DecidableEq, Repr

inductive Instr where
  /-- `ADD` (R92): Writes the 64-bit sum of s[a] and s[b] to s[d]. -/
  | add (d : BitVec 5) (a : BitVec 5) (b : BitVec 5)
  /-- `SUB` (R92): Writes the 64-bit difference s[a] minus s[b] to s[d]. -/
  | sub (d : BitVec 5) (a : BitVec 5) (b : BitVec 5)
  /-- `AND` (R92): Writes the bitwise AND of s[a] and s[b] to s[d]. -/
  | andR (d : BitVec 5) (a : BitVec 5) (b : BitVec 5)
  /-- `OR` (R92): Writes the bitwise OR of s[a] and s[b] to s[d]. -/
  | orR (d : BitVec 5) (a : BitVec 5) (b : BitVec 5)
  /-- `XOR` (R92): Writes the bitwise XOR of s[a] and s[b] to s[d]. -/
  | xorR (d : BitVec 5) (a : BitVec 5) (b : BitVec 5)
  /-- `ANDN` (R92): Writes s[a] AND NOT s[b] to s[d]. -/
  | andn (d : BitVec 5) (a : BitVec 5) (b : BitVec 5)
  /-- `SLL` (R92): Shifts s[a] left by s[b][5:0] and writes the result to s[d]. -/
  | sll (d : BitVec 5) (a : BitVec 5) (b : BitVec 5)
  /-- `SRL` (R92): Shifts s[a] right logically by s[b][5:0] and writes the result to s[d]. -/
  | srl (d : BitVec 5) (a : BitVec 5) (b : BitVec 5)
  /-- `SRA` (R92): Shifts s[a] right arithmetically by s[b][5:0] and writes the result to s[d]. -/
  | sra (d : BitVec 5) (a : BitVec 5) (b : BitVec 5)
  /-- `SLT` (R92): Writes 1 to s[d] if s[a] is less than s[b] as signed values, and 0 otherwise. -/
  | slt (d : BitVec 5) (a : BitVec 5) (b : BitVec 5)
  /-- `SLTU` (R92): Writes 1 to s[d] if s[a] is less than s[b] as unsigned values, and 0 otherwise. -/
  | sltu (d : BitVec 5) (a : BitVec 5) (b : BitVec 5)
  /-- `MIN` (R92): Writes the signed minimum of s[a] and s[b] to s[d]. -/
  | minS (d : BitVec 5) (a : BitVec 5) (b : BitVec 5)
  /-- `MAX` (R92): Writes the signed maximum of s[a] and s[b] to s[d]. -/
  | maxS (d : BitVec 5) (a : BitVec 5) (b : BitVec 5)
  /-- `MINU` (R92): Writes the unsigned minimum of s[a] and s[b] to s[d]. -/
  | minu (d : BitVec 5) (a : BitVec 5) (b : BitVec 5)
  /-- `MAXU` (R92): Writes the unsigned maximum of s[a] and s[b] to s[d]. -/
  | maxu (d : BitVec 5) (a : BitVec 5) (b : BitVec 5)
  /-- `MUL` (R92): Writes the low 64 bits of the product of s[a] and s[b] to s[d]. -/
  | mul (d : BitVec 5) (a : BitVec 5) (b : BitVec 5)
  /-- `MULH` (R92): Writes the high 64 bits of the signed product of s[a] and s[b] to s[d]. -/
  | mulh (d : BitVec 5) (a : BitVec 5) (b : BitVec 5)
  /-- `MULHU` (R92): Writes the high 64 bits of the unsigned product of s[a] and s[b] to s[d]. -/
  | mulhu (d : BitVec 5) (a : BitVec 5) (b : BitVec 5)
  /-- `DIV` (R93): Writes the signed quotient of s[a] by s[b], truncated toward zero, to s[d]; it never traps. -/
  | div (d : BitVec 5) (a : BitVec 5) (b : BitVec 5)
  /-- `DIVU` (R93): Writes the unsigned quotient of s[a] by s[b] to s[d]; it never traps. -/
  | divu (d : BitVec 5) (a : BitVec 5) (b : BitVec 5)
  /-- `REM` (R93): Writes the signed remainder of s[a] by s[b] to s[d]; the remainder takes the sign of the dividend. -/
  | rem (d : BitVec 5) (a : BitVec 5) (b : BitVec 5)
  /-- `REMU` (R93): Writes the unsigned remainder of s[a] by s[b] to s[d]. -/
  | remu (d : BitVec 5) (a : BitVec 5) (b : BitVec 5)
  /-- `CLZ` (R92): Writes the number of leading zero bits of s[a] to s[d]. -/
  | clz (d : BitVec 5) (a : BitVec 5)
  /-- `CTZ` (R92): Writes the number of trailing zero bits of s[a] to s[d]. -/
  | ctz (d : BitVec 5) (a : BitVec 5)
  /-- `POPC` (R92): Writes the number of 1 bits of s[a] to s[d]. -/
  | popc (d : BitVec 5) (a : BitVec 5)
  /-- `SXB` (R92): Sign-extends byte s[a][7:0] into s[d]. -/
  | sxb (d : BitVec 5) (a : BitVec 5)
  /-- `SXH` (R92): Sign-extends halfword s[a][15:0] into s[d]. -/
  | sxh (d : BitVec 5) (a : BitVec 5)
  /-- `SXW` (R92): Sign-extends word s[a][31:0] into s[d]. -/
  | sxw (d : BitVec 5) (a : BitVec 5)
  /-- `ZXW` (R92): Zero-extends word s[a][31:0] into s[d]. -/
  | zxw (d : BitVec 5) (a : BitVec 5)
  /-- `SEL` (R92): Writes s[a] to s[d] if s[c] is nonzero, and s[b] otherwise. -/
  | sel (d : BitVec 5) (a : BitVec 5) (b : BitVec 5) (c : BitVec 5)
  /-- `ADDI` (R94): Writes s[a] plus the sign-extended immediate to s[d]. -/
  | addi (d : BitVec 5) (a : BitVec 5) (imm : BitVec 16)
  /-- `ANDI` (R94): Writes s[a] AND the sign-extended immediate to s[d]. -/
  | andi (d : BitVec 5) (a : BitVec 5) (imm : BitVec 16)
  /-- `ORI` (R94): Writes s[a] OR the sign-extended immediate to s[d]. -/
  | ori (d : BitVec 5) (a : BitVec 5) (imm : BitVec 16)
  /-- `XORI` (R94): Writes s[a] XOR the sign-extended immediate to s[d]. -/
  | xori (d : BitVec 5) (a : BitVec 5) (imm : BitVec 16)
  /-- `SLTI` (R94): Writes 1 to s[d] if s[a] is less than the sign-extended immediate as signed values, and 0 otherwise. -/
  | slti (d : BitVec 5) (a : BitVec 5) (imm : BitVec 16)
  /-- `SLTIU` (R94): Writes 1 to s[d] if s[a] is less than the sign-extended immediate as unsigned values, and 0 otherwise. -/
  | sltiu (d : BitVec 5) (a : BitVec 5) (imm : BitVec 16)
  /-- `SLLI` (R95): Shifts s[a] left by an immediate amount and writes the result to s[d]. -/
  | slli (d : BitVec 5) (a : BitVec 5) (n : BitVec 6)
  /-- `SRLI` (R95): Shifts s[a] right logically by an immediate amount and writes the result to s[d]. -/
  | srli (d : BitVec 5) (a : BitVec 5) (n : BitVec 6)
  /-- `SRAI` (R95): Shifts s[a] right arithmetically by an immediate amount and writes the result to s[d]. -/
  | srai (d : BitVec 5) (a : BitVec 5) (n : BitVec 6)
  /-- `LIZ` (R96): Places imm16 in quarter q of s[d], with zero fill or, with .sx, sign fill above it. -/
  | liz (d : BitVec 5) (hw : BitVec 2) (sx : BitVec 1) (imm : BitVec 16)
  /-- `LIK` (R96): Replaces quarter q of s[d] with imm16 and keeps the other bits. -/
  | lik (d : BitVec 5) (hw : BitVec 2) (imm : BitVec 16)
  /-- `ADDPC` (R97): Writes the PC plus the scaled offset to s[d], without transferring control. -/
  | addpc (d : BitVec 5) (off : BitVec 21)
  /-- `BEQ` (R98): Branches to the PC-relative target if s[a] equals s[b]. -/
  | beq (a : BitVec 5) (b : BitVec 5) (off : BitVec 16)
  /-- `BNE` (R98): Branches if s[a] differs from s[b]. -/
  | bne (a : BitVec 5) (b : BitVec 5) (off : BitVec 16)
  /-- `BLT` (R98): Branches if s[a] is less than s[b] as signed values. -/
  | blt (a : BitVec 5) (b : BitVec 5) (off : BitVec 16)
  /-- `BGE` (R98): Branches if s[a] is greater than or equal to s[b] as signed values. -/
  | bge (a : BitVec 5) (b : BitVec 5) (off : BitVec 16)
  /-- `BLTU` (R98): Branches if s[a] is less than s[b] as unsigned values. -/
  | bltu (a : BitVec 5) (b : BitVec 5) (off : BitVec 16)
  /-- `BGEU` (R98): Branches if s[a] is greater than or equal to s[b] as unsigned values. -/
  | bgeu (a : BitVec 5) (b : BitVec 5) (off : BitVec 16)
  /-- `JAL` (R99): Writes PC+4 to s[d] and jumps to the PC-relative target, trapping if the target is out of range. -/
  | jal (d : BitVec 5) (off : BitVec 21)
  /-- `JALR` (R100): Jumps to s[a] plus the immediate and writes PC+4 to s[d], checking the target's alignment and range. -/
  | jalr (d : BitVec 5) (a : BitVec 5) (imm : BitVec 16)
  /-- `LDB` (R110): Loads a byte and sign-extends it into s[d]. -/
  | ldb (d : BitVec 5) (base : BitVec 5) (off : BitVec 13)
  /-- `LDBU` (R110): Loads a byte and zero-extends it into s[d]. -/
  | ldbu (d : BitVec 5) (base : BitVec 5) (off : BitVec 13)
  /-- `LDH` (R110): Loads a halfword and sign-extends it into s[d]. -/
  | ldh (d : BitVec 5) (base : BitVec 5) (off : BitVec 13)
  /-- `LDHU` (R110): Loads a halfword and zero-extends it into s[d]. -/
  | ldhu (d : BitVec 5) (base : BitVec 5) (off : BitVec 13)
  /-- `LDW` (R110): Loads a word and sign-extends it into s[d]. -/
  | ldw (d : BitVec 5) (base : BitVec 5) (off : BitVec 13)
  /-- `LDWU` (R110): Loads a word and zero-extends it into s[d]. -/
  | ldwu (d : BitVec 5) (base : BitVec 5) (off : BitVec 13)
  /-- `LDD` (R110): Loads a doubleword into s[d]. -/
  | ldd (d : BitVec 5) (base : BitVec 5) (off : BitVec 13)
  /-- `STB` (R110): Stores the low byte of s[d]; the store carries the context's RIN. -/
  | stb (d : BitVec 5) (base : BitVec 5) (off : BitVec 13)
  /-- `STH` (R110): Stores the low halfword of s[d]. -/
  | sth (d : BitVec 5) (base : BitVec 5) (off : BitVec 13)
  /-- `STW` (R110): Stores the low word of s[d]. -/
  | stw (d : BitVec 5) (base : BitVec 5) (off : BitVec 13)
  /-- `STD` (R110): Stores the 64 bits of s[d]. -/
  | std (d : BitVec 5) (base : BitVec 5) (off : BitVec 13)
  /-- `AMOADD` (R232): Atomically adds s[b] to memory at s[a] and returns the old value in s[d]. -/
  | amoadd (d : BitVec 5) (a : BitVec 5) (b : BitVec 5) (sc : BitVec 3) (ord : BitVec 2) (w : BitVec 1)
  /-- `AMOAND` (R232): Atomic bitwise AND at s[a]; returns the old value. -/
  | amoand (d : BitVec 5) (a : BitVec 5) (b : BitVec 5) (sc : BitVec 3) (ord : BitVec 2) (w : BitVec 1)
  /-- `AMOOR` (R232): Atomic bitwise OR at s[a]; returns the old value. -/
  | amoor (d : BitVec 5) (a : BitVec 5) (b : BitVec 5) (sc : BitVec 3) (ord : BitVec 2) (w : BitVec 1)
  /-- `AMOXOR` (R232): Atomic bitwise XOR at s[a]; returns the old value. -/
  | amoxor (d : BitVec 5) (a : BitVec 5) (b : BitVec 5) (sc : BitVec 3) (ord : BitVec 2) (w : BitVec 1)
  /-- `AMOMIN` (R232): Atomic signed minimum at s[a]; returns the old value. -/
  | amomin (d : BitVec 5) (a : BitVec 5) (b : BitVec 5) (sc : BitVec 3) (ord : BitVec 2) (w : BitVec 1)
  /-- `AMOMAX` (R232): Atomic signed maximum at s[a]; returns the old value. -/
  | amomax (d : BitVec 5) (a : BitVec 5) (b : BitVec 5) (sc : BitVec 3) (ord : BitVec 2) (w : BitVec 1)
  /-- `AMOMINU` (R232): Atomic unsigned minimum at s[a]; returns the old value. -/
  | amominu (d : BitVec 5) (a : BitVec 5) (b : BitVec 5) (sc : BitVec 3) (ord : BitVec 2) (w : BitVec 1)
  /-- `AMOMAXU` (R232): Atomic unsigned maximum at s[a]; returns the old value. -/
  | amomaxu (d : BitVec 5) (a : BitVec 5) (b : BitVec 5) (sc : BitVec 3) (ord : BitVec 2) (w : BitVec 1)
  /-- `AMOSWAP` (R232): Atomically swaps s[b] into memory at s[a] and returns the old value. -/
  | amoswap (d : BitVec 5) (a : BitVec 5) (b : BitVec 5) (sc : BitVec 3) (ord : BitVec 2) (w : BitVec 1)
  /-- `AMOCAS` (R232): Atomically writes s[b] at s[a] if the old value equals s[d], and returns the old value in s[d]. -/
  | amocas (d : BitVec 5) (a : BitVec 5) (b : BitVec 5) (sc : BitVec 3) (ord : BitVec 2) (w : BitVec 1)
  /-- `FAMO_FADD` (R235): Atomic FP32 add at s[a] with one rounding under FRM; returns the old value. -/
  | famoFadd (d : BitVec 5) (a : BitVec 5) (b : BitVec 5) (sc : BitVec 3) (ord : BitVec 2)
  /-- `FAMO_FMIN` (R235): Atomic FP32 minimum at s[a]; returns the old value. -/
  | famoFmin (d : BitVec 5) (a : BitVec 5) (b : BitVec 5) (sc : BitVec 3) (ord : BitVec 2)
  /-- `FAMO_FMAX` (R235): Atomic FP32 maximum at s[a]; returns the old value. -/
  | famoFmax (d : BitVec 5) (a : BitVec 5) (b : BitVec 5) (sc : BitVec 3) (ord : BitVec 2)
  /-- `VSETL` (R149): Sets VL to min(s[a], 1,024) and writes the new VL to s[d]. -/
  | vsetl (d : BitVec 5) (a : BitVec 5)
  /-- `VCFG` (R150): Sets the type tag of vd; .none also sets its HWM to 0. -/
  | vcfg (d : BitVec 5) (tag : BitVec 5)
  /-- `VADD` (R153): Element-wise add under the result type of R135. -/
  | vadd (d : BitVec 5) (a : BitVec 5) (b : BitVec 5) (km : BitVec 3) (sv : BitVec 1)
  /-- `VSUB` (R153): Element-wise subtract. -/
  | vsub (d : BitVec 5) (a : BitVec 5) (b : BitVec 5) (km : BitVec 3) (sv : BitVec 1)
  /-- `VMUL` (R153): Element-wise multiply, including the LNS8 multiply of R80. -/
  | vmul (d : BitVec 5) (a : BitVec 5) (b : BitVec 5) (km : BitVec 3) (sv : BitVec 1)
  /-- `VFMA` (R153): Element-wise fused multiply-add into vd with one rounding. -/
  | vfma (d : BitVec 5) (a : BitVec 5) (b : BitVec 5) (km : BitVec 3) (sv : BitVec 1)
  /-- `VMULH` (R153): Element-wise upper half of the integer product. -/
  | vmulh (d : BitVec 5) (a : BitVec 5) (b : BitVec 5) (km : BitVec 3) (sv : BitVec 1)
  /-- `VADDS` (R153): Element-wise saturating integer add. -/
  | vadds (d : BitVec 5) (a : BitVec 5) (b : BitVec 5) (km : BitVec 3) (sv : BitVec 1)
  /-- `VSUBS` (R153): Element-wise saturating integer subtract. -/
  | vsubs (d : BitVec 5) (a : BitVec 5) (b : BitVec 5) (km : BitVec 3) (sv : BitVec 1)
  /-- `VMIN` (R153): Element-wise minimum. -/
  | vmin (d : BitVec 5) (a : BitVec 5) (b : BitVec 5) (km : BitVec 3) (sv : BitVec 1)
  /-- `VMAX` (R153): Element-wise maximum. -/
  | vmax (d : BitVec 5) (a : BitVec 5) (b : BitVec 5) (km : BitVec 3) (sv : BitVec 1)
  /-- `VABS` (R153): Element-wise absolute value. -/
  | vabs (d : BitVec 5) (a : BitVec 5) (km : BitVec 3)
  /-- `VNEG` (R153): Element-wise negation. -/
  | vneg (d : BitVec 5) (a : BitVec 5) (km : BitVec 3)
  /-- `VRCP` (R74): Element-wise correctly rounded reciprocal. -/
  | vrcp (d : BitVec 5) (a : BitVec 5) (km : BitVec 3)
  /-- `VRSQ` (R74): Element-wise correctly rounded reciprocal square root. -/
  | vrsq (d : BitVec 5) (a : BitVec 5) (km : BitVec 3)
  /-- `VEXP2` (R74): Element-wise correctly rounded base-2 exponential. -/
  | vexp2 (d : BitVec 5) (a : BitVec 5) (km : BitVec 3)
  /-- `VLOG2` (R74): Element-wise correctly rounded base-2 logarithm. -/
  | vlog2 (d : BitVec 5) (a : BitVec 5) (km : BitVec 3)
  /-- `VAND` (R153): Element-wise bitwise AND. -/
  | vand (d : BitVec 5) (a : BitVec 5) (b : BitVec 5) (km : BitVec 3) (sv : BitVec 1)
  /-- `VOR` (R153): Element-wise bitwise OR. -/
  | vor (d : BitVec 5) (a : BitVec 5) (b : BitVec 5) (km : BitVec 3) (sv : BitVec 1)
  /-- `VXOR` (R153): Element-wise bitwise XOR. -/
  | vxor (d : BitVec 5) (a : BitVec 5) (b : BitVec 5) (km : BitVec 3) (sv : BitVec 1)
  /-- `VSHL` (R153): Element-wise left shift. -/
  | vshl (d : BitVec 5) (a : BitVec 5) (b : BitVec 5) (km : BitVec 3) (sv : BitVec 1)
  /-- `VSHR` (R153): Element-wise right shift, arithmetic for signed types and logical for unsigned ones. -/
  | vshr (d : BitVec 5) (a : BitVec 5) (b : BitVec 5) (km : BitVec 3) (sv : BitVec 1)
  /-- `VCEQ` (R154): Sets mask bits where the elements are equal. -/
  | vceq (d : BitVec 3) (a : BitVec 5) (b : BitVec 5) (km : BitVec 3) (sv : BitVec 1)
  /-- `VCNE` (R154): Sets mask bits where the elements are not equal. -/
  | vcne (d : BitVec 3) (a : BitVec 5) (b : BitVec 5) (km : BitVec 3) (sv : BitVec 1)
  /-- `VCLT` (R154): Sets mask bits where va is less than vb. -/
  | vclt (d : BitVec 3) (a : BitVec 5) (b : BitVec 5) (km : BitVec 3) (sv : BitVec 1)
  /-- `VCLE` (R154): Sets mask bits where va is less than or equal to vb. -/
  | vcle (d : BitVec 3) (a : BitVec 5) (b : BitVec 5) (km : BitVec 3) (sv : BitVec 1)
  /-- `VSLIDE1` (R155): Slides vd down by one element and inserts the scalar at the top. -/
  | vslide1 (d : BitVec 5) (b : BitVec 5) (km : BitVec 3)
  /-- `VSLIDEDN` (R156): Slides va down by n elements into vd. -/
  | vslidedn (d : BitVec 5) (a : BitVec 5) (b : BitVec 5) (km : BitVec 3) (sv : BitVec 1)
  /-- `VSLIDEUP` (R156): Slides va up by n elements into vd. -/
  | vslideup (d : BitVec 5) (a : BitVec 5) (b : BitVec 5) (km : BitVec 3) (sv : BitVec 1)
  /-- `VPERM` (R156): Permutes va by the index vector vb. -/
  | vperm (d : BitVec 5) (a : BitVec 5) (b : BitVec 5) (km : BitVec 3)
  /-- `VCMPR` (R156): Compresses the active elements of va to the bottom of vd. -/
  | vcmpr (d : BitVec 5) (a : BitVec 5) (km : BitVec 3)
  /-- `VEXPD` (R156): Expands consecutive elements of va into the active positions of vd. -/
  | vexpd (d : BitVec 5) (a : BitVec 5) (km : BitVec 3)
  /-- `VSEL` (R156): Selects va or vb per element by the mask. -/
  | vsel (d : BitVec 5) (a : BitVec 5) (b : BitVec 5) (km : BitVec 3)
  /-- `VRSUM` (R157): Writes the sum of the active elements to vd[0]. -/
  | vrsum (d : BitVec 5) (a : BitVec 5) (km : BitVec 3)
  /-- `VRMAX` (R157): Writes the largest active element to vd[0]. -/
  | vrmax (d : BitVec 5) (a : BitVec 5) (km : BitVec 3)
  /-- `VRMIN` (R157): Writes the smallest active element to vd[0]. -/
  | vrmin (d : BitVec 5) (a : BitVec 5) (km : BitVec 3)
  /-- `VSCAN` (R157): Inclusive prefix sum over the active elements. -/
  | vscan (d : BitVec 5) (a : BitVec 5) (km : BitVec 3)
  /-- `VSCANX` (R157): Exclusive prefix sum over the active elements. -/
  | vscanx (d : BitVec 5) (a : BitVec 5) (km : BitVec 3)
  /-- `VCVT` (R158): Converts the active elements of va to the target type. -/
  | vcvt (d : BitVec 5) (a : BitVec 5) (km : BitVec 3) (tag : BitVec 4)
  /-- `VSPLAT` (R159): Broadcasts a scalar to the active elements of vd and sets vd's tag. -/
  | vsplat (d : BitVec 5) (tag : BitVec 5) (b : BitVec 5) (km : BitVec 3)
  /-- `VINS` (R159): Inserts s[b] into vd at index s[a]. -/
  | vins (d : BitVec 5) (a : BitVec 5) (b : BitVec 5)
  /-- `VEXT` (R159): Extracts element s[b] of va into s[d]. -/
  | vext (d : BitVec 5) (a : BitVec 5) (b : BitVec 5)
  /-- `VMV` (R159): Copies the active elements of va to vd, with va's tag. -/
  | vmv (d : BitVec 5) (a : BitVec 5) (km : BitVec 3)
  /-- `VIOTA` (R159): Writes to each element the count of mask bits set below it. -/
  | viota (d : BitVec 5) (km : BitVec 3)
  /-- `KAND` (R160): kd := ka AND kb. -/
  | kand (d : BitVec 3) (a : BitVec 3) (b : BitVec 3)
  /-- `KOR` (R160): kd := ka OR kb. -/
  | kor (d : BitVec 3) (a : BitVec 3) (b : BitVec 3)
  /-- `KXOR` (R160): kd := ka XOR kb. -/
  | kxor (d : BitVec 3) (a : BitVec 3) (b : BitVec 3)
  /-- `KNOT` (R160): kd := NOT ka. -/
  | knot (d : BitVec 3) (a : BitVec 3)
  /-- `KPOP` (R160): Writes to s[d] the number of set bits of ka below VL. -/
  | kpop (d : BitVec 5) (a : BitVec 3)
  /-- `KFF` (R160): Writes to s[d] the index of the lowest set bit of ka below VL, or VL if there is none. -/
  | kff (d : BitVec 5) (a : BitVec 3)
  /-- `KMV` (R160): kd := ka. -/
  | kmv (d : BitVec 3) (a : BitVec 3)
  /-- `VLD` (R112): Unit-stride vector load. -/
  | vld (d : BitVec 5) (base : BitVec 5) (km : BitVec 3) (oo : BitVec 1) (y : BitVec 1) (pol : BitVec 2) (w : BitVec 2)
  /-- `VLDS` (R112): Strided vector load. -/
  | vlds (d : BitVec 5) (base : BitVec 5) (c : BitVec 5) (km : BitVec 3) (oo : BitVec 1) (y : BitVec 1) (pol : BitVec 2) (w : BitVec 2)
  /-- `VLDX` (R112): Indexed vector load. -/
  | vldx (d : BitVec 5) (base : BitVec 5) (c : BitVec 5) (km : BitVec 3) (oo : BitVec 1) (y : BitVec 1) (pol : BitVec 2) (w : BitVec 2)
  /-- `VST` (R112): Unit-stride vector store. -/
  | vst (d : BitVec 5) (base : BitVec 5) (km : BitVec 3) (oo : BitVec 1) (y : BitVec 1) (pol : BitVec 2) (w : BitVec 2)
  /-- `VSTS` (R112): Strided vector store. -/
  | vsts (d : BitVec 5) (base : BitVec 5) (c : BitVec 5) (km : BitVec 3) (oo : BitVec 1) (y : BitVec 1) (pol : BitVec 2) (w : BitVec 2)
  /-- `VSTX` (R112): Indexed vector store. -/
  | vstx (d : BitVec 5) (base : BitVec 5) (c : BitVec 5) (km : BitVec 3) (oo : BitVec 1) (y : BitVec 1) (pol : BitVec 2) (w : BitVec 2)
  /-- `VAMO_ADD` (R237): Vector atomic integer add, performed in passes in element order. -/
  | vamoAdd (d : BitVec 5) (base : BitVec 5) (c : BitVec 5) (km : BitVec 3) (y : BitVec 1) (pol : BitVec 2) (w : BitVec 1)
  /-- `VAMO_MIN` (R237): Vector atomic minimum. -/
  | vamoMin (d : BitVec 5) (base : BitVec 5) (c : BitVec 5) (km : BitVec 3) (y : BitVec 1) (pol : BitVec 2) (w : BitVec 1)
  /-- `VAMO_MAX` (R237): Vector atomic maximum. -/
  | vamoMax (d : BitVec 5) (base : BitVec 5) (c : BitVec 5) (km : BitVec 3) (y : BitVec 1) (pol : BitVec 2) (w : BitVec 1)
  /-- `VAMO_FADD` (R237): Vector atomic FP32 add. -/
  | vamoFadd (d : BitVec 5) (base : BitVec 5) (c : BitVec 5) (km : BitVec 3) (y : BitVec 1) (pol : BitVec 2)
  /-- `GCSLP` (R249): Compares up to 64 memory words with expected values and sleeps until any or all match. -/
  | gcslp (d : BitVec 3) (a : BitVec 5) (b : BitVec 5) (km : BitVec 3) (all : BitVec 1)
  /-- `FORK` (R198): Divides the following loop into chunks and starts them on the ring, or starts a local fork. -/
  | fork (d : BitVec 5) (a : BitVec 5) (b : BitVec 5) (off : BitVec 8)
  /-- `FWD` (R199): Forwards a carried register early to the next chunk. -/
  | fwd (a : BitVec 5)
  /-- `CHIDX` (R203): Writes the chunk number to s[d]. -/
  | chidx (d : BitVec 5)
  /-- `CPY` (R117): Issues a linear copy to the quad copy engine under a ready tag. -/
  | cpy (tag : BitVec 6) (a : BitVec 5) (b : BitVec 5) (c : BitVec 5)
  /-- `CPY2` (R117): Issues a two-dimensional copy shaped by CPYDIM. -/
  | cpy2 (tag : BitVec 6) (a : BitVec 5) (b : BitVec 5)
  /-- `WTANY` (R120): Waits until any tag of the mask is ready. -/
  | wtany (a : BitVec 5)
  /-- `WTALL` (R120): Waits until every tag of the mask is ready. -/
  | wtall (a : BitVec 5)
  /-- `FFRDY` (R120): Writes the lowest ready tag of the mask to s[c], without waiting. -/
  | ffrdy (a : BitVec 5) (c : BitVec 5)
  /-- `TRBCLR` (R120): Clears TRB bits. -/
  | trbclr (a : BitVec 5)
  /-- `WAITC` (R120): Waits until the outstanding counts of the four classes are at or below the given limits. -/
  | waitc (nl : BitVec 5) (ns : BitVec 5) (nc : BitVec 5) (nt : BitVec 5)
  /-- `WTML` (R227): Waits until a QCC timeline reaches a value, and acquires its QSPM writes. -/
  | wtml (a : BitVec 5) (b : BitVec 5)
  /-- `TGATH` (R218): Queues a gather of 64 A rows into the latch through an index table. -/
  | tgath (a : BitVec 5) (b : BitVec 5)
  /-- `TLDK` (R219): Loads a 256-bit tile mask from QSPM. -/
  | tldk (km : BitVec 3) (a : BitVec 5)
  /-- `TZERO` (R220): Queues the zeroing of an accumulator, making it live in format CFMT. -/
  | tzero (acc : BitVec 2)
  /-- `TST` (R223): Queues a converted store of an accumulator to QSPM. -/
  | tst (acc : BitVec 2) (a : BitVec 5) (tag : BitVec 4)
  /-- `TRD` (R224): Reads one accumulator element into s[a] once the older operations on that accumulator complete. -/
  | trd (acc : BitVec 2) (a : BitVec 5) (b : BitVec 5)
  /-- `TACCR` (R225): Queues the addition of a neighbour quad's accumulator into its own. -/
  | taccr (acc : BitVec 2) (a : BitVec 5)
  /-- `TSEQ` (R226): Writes the context's issue sequence to s[a]. -/
  | tseq (a : BitVec 5)
  /-- `TMMA` (R221): Queues a mask-sparse matrix multiply-accumulate of the latch and B into an accumulator. -/
  | tmma (acc : BitVec 2) (km : BitVec 3) (a : BitVec 5) (b : BitVec 5)
  /-- `FENCE` (R294): Orders the context's accesses around it at a scope, with acquire, release or both. -/
  | fence (sc : BitVec 3) (ord : BitVec 2)
  /-- `BARARR` (R247): Counts an arrival, relaxed or release, at a barrier domain and returns the phase. -/
  | bararr (d : BitVec 5) (a : BitVec 5) (sc : BitVec 3) (rel : BitVec 1)
  /-- `BARWT` (R248): Waits until a barrier phase has completed, then acquires. -/
  | barwt (d : BitVec 5) (a : BitVec 5) (sc : BitVec 3)
  /-- `EVLD` (R239): Sends the event-unit operation selected by the window offset and returns its 64-bit result. -/
  | evld (d : BitVec 5) (a : BitVec 5)
  /-- `EVSIG` (R241): Sends a release signal that increments an event line of a quad's EVU. -/
  | evsig (d : BitVec 5) (a : BitVec 5)
  /-- `DSBIND` (R271): Binds a destination slot to an endpoint and window after one round trip. -/
  | dsbind (ds : BitVec 4) (a : BitVec 5) (b : BitVec 5)
  /-- `SEND` (R272): Sends a record to append to a remote receive ring. -/
  | sendMsg (ds : BitVec 4) (a : BitVec 5) (b : BitVec 5) (im : BitVec 1) (rel : BitVec 1)
  /-- `SENDT` (R268): SEND launched at PHASE within an own slot; traps with SLOT-VIOLATION in place of blocking. -/
  | sendt (ds : BitVec 4) (a : BitVec 5) (b : BitVec 5) (rel : BitVec 1)
  /-- `PUT` (R272): Writes local bytes into a remote window. -/
  | putMsg (ds : BitVec 4) (a : BitVec 5) (b : BitVec 5) (c : BitVec 5) (im : BitVec 1) (rel : BitVec 1)
  /-- `GET` (R272): Reads bytes from a remote window into local memory. -/
  | getMsg (ds : BitVec 4) (a : BitVec 5) (b : BitVec 5) (c : BitVec 5) (im : BitVec 1)
  /-- `RAMO` (R273): Performs an atomic at the target's coherence point and returns the old value. -/
  | ramo (ds : BitVec 4) (a : BitVec 5) (b : BitVec 5) (c : BitVec 5) (op : BitVec 2) (im : BitVec 1) (rel : BitVec 1)
  /-- `VSCACC` (R275): Ships index/value pairs to their owners' combining stores. -/
  | vscacc (a : BitVec 5) (b : BitVec 5) (km : BitVec 3)
  /-- `BALW` (R266): Branches when the allowance of a slot covers s[a]. -/
  | balw (ds : BitVec 4) (a : BitVec 5) (off : BitVec 17)
  /-- `SPAWN` (R337): Posts a thread record to the die's dispatch queue. -/
  | spawn (a : BitVec 5)
  /-- `START` (R339): Sends a thread record to start a context at an endpoint. -/
  | start (d : BitVec 5) (a : BitVec 5)
  /-- `WFE` (R344): Waits until the ring's energy allowance reaches a value. -/
  | wfe (a : BitVec 5)
  /-- `ECALL` (R362): Raises the ECALL trap with a 12-bit code. -/
  | ecall (csr : BitVec 12)
  /-- `CSRR` (R365): Reads a CSR into s[d]. -/
  | csrr (d : BitVec 5) (csr : BitVec 12)
  /-- `CSRW` (R365): Writes s[a] to a CSR and returns the old value. -/
  | csrw (d : BitVec 5) (a : BitVec 5) (csr : BitVec 12)
  /-- `CSRS` (R365): Sets CSR bits from s[a] and returns the old value. -/
  | csrs (d : BitVec 5) (a : BitVec 5) (csr : BitVec 12)
  /-- `CSRC` (R365): Clears CSR bits from s[a] and returns the old value. -/
  | csrc (d : BitVec 5) (a : BitVec 5) (csr : BitVec 12)
  /-- `TLBI` (R127): Invalidates the package's TLB entries of the current ASID for the page containing s[a]. -/
  | tlbi (a : BitVec 5)
  /-- `BIST` (R385): Arms self-test of a quad. -/
  | bist (a : BitVec 5)
  /-- `BRK` (R384): Raises BREAKPOINT with a 12-bit code. -/
  | brk (csr : BitVec 12)
  /-- `TRCMK_START` (R382): Opens a capture and writes a start mark. -/
  | trcmkStart (a : BitVec 5)
  /-- `TRCMK_STOP` (R382): Closes a capture and writes a stop mark. -/
  | trcmkStop (a : BitVec 5)
  /-- event `INTERRUPT_ENTRY` (R359): A pending interrupt is accepted at an instruction boundary and entered at the interrupt vector. -/
  | interruptEntry (u : CtxId)
  /-- event `COPY_COMPLETE` (R117): A copy finishes or stops on a fault: sets its TRB bit, lowers the count and records any pending copy fault. -/
  | copyComplete (u : CtxId) (n : Nat)
  /-- event `CHUNK_START` (R170): A chunk starts from the fork image once its conditions hold. -/
  | chunkStart (f : ForkId) (k : Nat)
  /-- event `VERSION_REQUEST` (R178): A younger chunk's load is served by the nearest older version or by the committed value. -/
  | versionRequest (u : CtxId) (pa : BitVec 48)
  /-- event `STORE_NOTICE` (R179): A chunk's store notice reaches younger chunks, merging bytes or unpicking. -/
  | storeNotice (f : ForkId)
  /-- event `FORWARD_ARRIVAL` (R174): A forwarded register value arrives at the next chunk and updates its incoming state. -/
  | forwardArrival (f : ForkId)
  /-- event `CONFLICTING_WRITE` (R180): A write from outside the thread to a sector with Rd = 1 unpicks the chunk and its younger chunks. -/
  | conflictingWrite (f : ForkId) (pa : BitVec 48)
  /-- event `UNPICK` (R181): Unpicked chunks are stopped, their versions discarded, and they are queued to restart. -/
  | unpick (f : ForkId) (k : Nat) (cause : SquashCause)
  /-- event `L1_WAY_RECLAIM` (R182): An oldest chunk short of an L1 way unpicks the youngest basted chunk holding one. -/
  | l1WayReclaim (u : CtxId) (set : Nat)
  /-- event `CHUNK_OLDEST` (R185): The commit token arrives and the next chunk becomes oldest. -/
  | chunkOldest (f : ForkId)
  /-- event `TILE_OP_START` (R216): A queued tile operation starts, samples its CSRs and makes its start checks, which may give a tile fault. -/
  | tileOpStart (u : CtxId)
  /-- event `TILE_OP_COMPLETE` (R214): A tile operation completes and TLN advances in issue order. -/
  | tileOpComplete (u : CtxId)
  /-- event `TACCR_READ_SERVE` (R225): The neighbour QCC serves a TACCR read request once its older operations complete. -/
  | taccrReadServe (u : CtxId)
  /-- event `EVU_WAIT` (R240): Waits until an event line's CNT is at least 1 and returns CNT. -/
  | evuWait (u : CtxId)
  /-- event `EVU_TAKE` (R240): Waits until CNT is at least 1, then decrements it. -/
  | evuTake (u : CtxId)
  /-- event `EVU_DRAIN` (R240): Waits until CNT is at least 1, then clears it. -/
  | evuDrain (u : CtxId)
  /-- event `EVU_PEEK` (R240): Returns CNT. -/
  | evuPeek (u : CtxId)
  /-- event `EVU_CLEAR` (R240): Clears CNT and returns the old value. -/
  | evuClear (u : CtxId)
  /-- event `EVU_ARRIVE` (R242): Arrives at an EVU barrier, advancing GEN when TGT is reached. -/
  | evuArrive (u : CtxId)
  /-- event `EVU_BARRIER_WAIT` (R242): Waits until an EVU barrier's GEN differs from the context's MYG. -/
  | evuBarrierWait (u : CtxId)
  /-- event `EVU_POLL` (R242): Returns GEN, ARR and TGT of an EVU barrier. -/
  | evuPoll (u : CtxId)
  /-- event `EVU_SET` (R242): Sets an EVU barrier's target when ARR is 0. -/
  | evuSet (u : CtxId)
  /-- event `EVU_LOCK` (R243): Waits until a mutex is free, then takes it. -/
  | evuLock (u : CtxId)
  /-- event `EVU_TRY` (R243): Takes a mutex if it is free. -/
  | evuTry (u : CtxId)
  /-- event `EVU_UNLOCK` (R243): Releases a mutex held by the caller. -/
  | evuUnlock (u : CtxId)
  /-- event `EVU_OWNER` (R243): Returns a mutex's holder. -/
  | evuOwner (u : CtxId)
  /-- event `EVSIG_DELIVER` (R241): A signal reaches the EVU and increments the event line's CNT. -/
  | evsigDeliver (n : Nat)
  /-- event `EVU_WAIT_SATISFIED` (R244): A waiting EVU operation completes when its condition becomes true. -/
  | evuWaitSatisfied (u : CtxId)
  /-- event `BARRIER_PHASE_COMPLETE` (R248): A completed barrier phase releases the waiting BARWTs. -/
  | barrierPhaseComplete (b : BarKey)
  /-- event `GCSLP_WAKE` (R249): A write to a watched sector triggers a fresh GCSLP evaluation. -/
  | gcslpWake (u : CtxId)
  /-- event `BIND_REPLY` (R271): The bind reply arrives and DSBIND completes the binding or traps. -/
  | bindReply (u : CtxId) (r : BindReply)
  /-- event `INGRESS_PUT` (R258): An arriving PUT is checked at the target window and its bytes written. -/
  | ingressPut (n : Nat)
  /-- event `INGRESS_SEND` (R259): An arriving SEND record is checked and appended to the ring, then HEAD is written. -/
  | ingressSend (n : Nat)
  /-- event `INGRESS_GET` (R258): An arriving GET is checked and answered with the window bytes. -/
  | ingressGet (n : Nat)
  /-- event `INGRESS_RAMO` (R273): An arriving RAMO is checked and performed at the coherence point. -/
  | ingressRamo (n : Nat)
  /-- event `COMBINING_PAIR` (R276): An arriving VSCACC pair joins or takes a combining entry. -/
  | combiningPair (n : Nat)
  /-- event `COMBINING_FLUSH` (R277): An arriving VSCFL flushes every entry of the window and replies with the flags. -/
  | combiningFlush (n : Nat)
  /-- event `STALE_INCARNATION_DROP` (R256): A target gateway drops a packet with a stale incarnation and returns a reset notice. -/
  | staleIncarnationDrop (n : Nat)
  /-- event `RESET_NOTICE` (R256): A reset notice completes the slot's outstanding requests with PEER-RESET and sets RST. -/
  | resetNotice (h : Holder) (ds : BitVec 4)
  /-- event `DEMAND` (R264): A target receives a credit demand and answers demands in order of arrival. -/
  | demand (h : Holder) (ds : BitVec 4)
  /-- event `GRANT` (R264): A credit grant or refusal arrives at the sender and updates WC or completes the request. -/
  | grant (h : Holder) (ds : BitVec 4) (g : GrantReply)
  /-- event `ACKNOWLEDGEMENT` (R255): A selective acknowledgement arrives, completing requests and adjusting INFL and PMAX. -/
  | acknowledgement (n : Nat) (mark : Bool)
  /-- event `NEGATIVE_ACKNOWLEDGEMENT` (R278): A refusal completes the request with REMOTE-NACK and records a pending message fault. -/
  | negativeAcknowledgement (n : Nat) (reason : BitVec 4)
  /-- event `GET_RESPONSE` (R272): A GET or RAMO response arrives and its local write is performed. -/
  | getResponse (n : Nat) (data : List (BitVec 8))
  /-- event `CREDIT_RETURN` (R264): Credit held unused for 65,536 cycles is returned to the target. -/
  | creditReturn (h : Holder) (ds : BitVec 4)
  /-- event `SENDT_LAUNCH` (R268): At PHASE a SENDT checks its allowance and launches, or traps. -/
  | sendtLaunch (u : CtxId)
  /-- event `START_ARRIVAL` (R339): A START record reaches its target, which places the thread or refuses it with a reason. -/
  | startArrival (n : Nat)
  /-- event `DISPATCH_PLACE` (R338): The die dispatcher places the oldest ready entry on a free eligible context. -/
  | dispatchPlace (die : Fin 8)
  /-- event `DESCHEDULE` (R343): A context blocked on allowance for DESCHED cycles is swapped out for a queued thread. -/
  | deschedule (u : CtxId)
  /-- event `PARKED_REQUEUE` (R265): A parked thread's allowance covers its request and the thread is re-queued. -/
  | parkedRequeue (die : Fin 8) (e : Nat)
  /-- event `UNDO_DRAIN` (R317): The undo writer drains records into the undo regions in slots 56 to 59. -/
  | undoDrain (die : Fin 8)
  /-- event `TRACE_DRAIN` (R380): Trace entries and events drain to memory in slot 60. -/
  | traceDrain (die : Fin 8) (x : Fin 128)
  /-- event `SEAL_ARRIVE` (R323): Arrivals are counted at the die agent and hub and forwarded to the leader. -/
  | sealArrive (die : Fin 8)
  /-- event `SEALED_DECLARE` (R323): The leader declares SEALED n once every member has arrived. -/
  | sealedDeclare (n : BitVec 32)
  /-- event `SEALW_RELEASE` (R321): A waiting SEALW or held instruction continues once SEALRIN covers its interval. -/
  | sealwRelease (u : CtxId)
  /-- event `UNDO_PRESSURE` (R318): A stack reaching its threshold makes the leader send pressure, raising INTERVAL-PRESSURE in every domain context. -/
  | undoPressure (elsewhere : Bool)
  /-- event `ROLLBACK_RESUME` (R330): At RESUME every domain context restarts from its snapshot. -/
  | rollbackResume (t : BitVec 64)
  /-- event `GANG_SWITCH_BEGIN` (R367): At WHEN, OLDP's units stop, spill their packets and save their contexts. -/
  | gangSwitchBegin (p : Fin 16)
  /-- event `GANG_SWITCH_RESTORE` (R367): Once every die has reported, the hub marks OLDP saved and restores NEWP. -/
  | gangSwitchRestore (p : Fin 16)
  /-- event `GANG_SWITCH_RESUME` (R367): NEWP resumes at a frame boundary, taking GANG-SWITCH where GSI = 1. -/
  | gangSwitchResume (p : Fin 16)
  /-- event `ILLEGAL_INSTRUCTION` (R40): Issue of a word that is not an instruction (major 0x00, 0x2F–0x3F, an unlisted function value or a nonzero must-be-zero field) raises ILLEGAL-INSTRUCTION with TVAL set to the word. -/
  | illegalInstruction (w : BitVec 32)
  /-- event `ACCESS_PERFORMED` (R283): An outstanding scalar load, store or atomic completes: the load value is bound or the store is acknowledged by its coherence point, the pending register or class count is released, and FAMO flags merge. -/
  | accessPerformed (u : CtxId)
  /-- event `VECTOR_INSTRUCTION_COMPLETE` (R142): A vector instruction's last group in a cluster produces its result or is performed, letting chained consumers, cross-cluster instructions, deferred element traps and trace entries proceed. -/
  | vectorInstructionComplete (u : CtxId)
  /-- event `AGE_BOOST` (R32): A ready context passed over for AGE cycles is raised above every other context of its core. -/
  | ageBoost (u : CtxId)
  /-- event `RETRANSMISSION_TIMEOUT` (R255): Missing packets are retransmitted; after 16 tries the flow ends with PEER-RESET. -/
  | retransmissionTimeout (n : Nat)
  /-- event `PORT_XOFF` (R263): A target port signals XOFF and PATH falls to 0. -/
  | portXoff (pkg : BitVec 18)
  /-- event `PORT_XON` (R263): An XOFF ends and PATH recovers. -/
  | portXon (pkg : BitVec 18)
  /-- event `UNCORRECTABLE_ERROR` (R332): An uncorrectable error is recorded and handled by where it lies: rollback, domain-fatal or halt. -/
  | uncorrectableError (e : ErrorSite)
  /-- event `CORRECTED_ERROR` (R332): A corrected error is fixed and recorded, and predictive thresholds are checked. -/
  | correctedError (e : ErrorSite)
  /-- event `POISON_READ` (R419): A read of a poisoned sector halts the reading context. -/
  | poisonRead (u : CtxId) (pa : BitVec 48)
  /-- event `BIST_COMPLETE` (R386): Self-test ends, leaving the quad zeroed and setting BISTST. -/
  | bistComplete (die : Fin 8) (q : Fin 32) (nfail : BitVec 8) (spares : Bool)
  /-- event `THERMAL_TRIP` (R391): A junction temperature above 105 °C stops every context and rolls back or fails the domains. -/
  | thermalTrip (again : Bool)
  /-- event `POWER_ON` (R395): Bring-up runs its steps from ROM to attestation, or enters recovery mode. -/
  | powerOn (o : BootOutcome)
  /-- event `CAMELL_RETRY` (R395): A failed Camell training is retried every 1 s. -/
  | camellRetry (ok : Bool)
  /-- event `HOST_READ` (R304): A control-node read is performed through the hub at its coherence point. -/
  | hostRead (pa : BitVec 48) (n : Nat)
  /-- event `HOST_WRITE` (R305): A control-node write is performed through the hub in arrival order, untagged. -/
  | hostWrite (pa : BitVec 48) (data : List (BitVec 8))
  /-- event `STAGING_WRITE` (R396): In recovery mode a control-node write fills the staging window. -/
  | stagingWrite (off : BitVec 26) (data : BitVec 64)
  /-- event `RCFG_WRITE` (R13): A store to RCFG configures a physical ring's mode and assigns partitions, under its checks. -/
  | rcfgWrite (die : Fin 8) (n : Fin 8) (v : BitVec 64)
  /-- event `RWIN_WRITE` (R257): A write of a window register is checked and applied to requests that arrive later. -/
  | rwinWrite (die : Fin 8) (q : Fin 32) (n : Fin 4) (v : BitVec 64)
  /-- event `INC_ADVANCE` (R373): A store to a unit's INC register advances its incarnation by 1. -/
  | incAdvance (die : Fin 8) (x : Fin 160)
  /-- event `HALT_FREE` (R361): A store to HALT frees the halted slots set in it, releasing what END releases. -/
  | haltFree (die : Fin 8) (x : Fin 160) (v : BitVec 64)
  /-- event `RELOAD` (R332): A store of 1 to RELOAD reports the ISTORE reload and lets the domain resume. -/
  | reload (die : Fin 8) (v : BitVec 64)
  /-- event `BARRIER_DOMAIN_CONFIG` (R245): A store configures a barrier domain's EN, N and members. -/
  | barrierDomainConfig (b : BarKey) (off : Nat) (v : BitVec 64)
  /-- event `DOMCFG_WRITE` (R307): A store to DOMCFG forms the rollback domain and sets its contexts' first RIN. -/
  | domcfgWrite (v : BitVec 64)
  /-- event `ROLLREQ` (R328): A store of 1 requests a domain rollback. -/
  | rollreq (v : BitVec 64)
  /-- event `DISSOLVE` (R420): A store of 1 ends the domain, freeing its contexts without rolling back memory. -/
  | dissolve (v : BitVec 64)
  /-- event `GO` (R366): A store to GO lets a HOLD switch restore NEWP. -/
  | go (p : Fin 16)
  /-- event `GSWT_ARM` (R366): A GSWT write with ARM = 1 asks the hub to schedule a gang switch. -/
  | gswtArm (u : CtxId) (v : BitVec 64)
  /-- event `GSWT_CANCEL` (R366): A GSWT write with ARM = 0 cancels an armed switch. -/
  | gswtCancel (u : CtxId) (v : BitVec 64)
  /-- event `RANGE_PENDING_WRITE` (R125): A CSRW to RNGB or RNGL writes the package-wide pending copy. -/
  | rangePendingWrite (n : Fin 32) (v : BitVec 64)
  /-- event `VHWM_WRITE` (R133): A write of VHWMn lowers the mark, discarding bytes, or raises it with zero fill. -/
  | vhwmWrite (u : CtxId) (r : BitVec 5) (v : BitVec 64)
  /-- event `TRCLOST_CLEAR` (R380): A store to TRCLOST clears both lost counts. -/
  | trclostClear (die : Fin 8) (x : Fin 128)
  /-- event `CEVAL_CLEAR` (R390): A store to CEVAL clears the selected bank's corrected-error count. -/
  | cevalClear (die : Fin 8)
  /-- event `CAPW_WRITE` (R394): A store to CAPW sets the module power cap, or is ignored and counted when out of range. -/
  | capwWrite (v : BitVec 64)
  /-- event `MODULE_RESET` (R394): A store of 1 to RESET resets the module and restarts bring-up. -/
  | moduleReset (v : BitVec 64)
  /-- event `IMAGE_LOAD` (R396): In recovery mode a LOAD store verifies the staged image and installs it or stays in recovery. -/
  | imageLoad (v : BitVec 64) (good : Bool)
  /-- event `ATTNONCE_WRITE` (R397): A store to ATTNONCE0–3 invalidates a report already sent; a store to ATTNONCE3 starts a report. -/
  | attnonceWrite (k : Fin 4) (v : BitVec 64)
  /-- event `ATTOK_WRITE` (R397): A store to ATTOK accepts the report and makes the module Ready, or rejects it and resets. -/
  | attokWrite (v : BitVec 64)
  /-- event `DCR_WRITE` (R373): A store to a device control register with no row of its own writes it, subject to R418. -/
  | dcrWrite (pa : BitVec 48) (v : BitVec 64)
  /-- event `THERM_CHANGE` (R350): A quad's temperature crosses a firmware threshold and THERM changes between normal, warm and hot, setting the half-rate matrix state and capping ELIM. -/
  | thermChange (die : Fin 8) (q : Fin 32) (level : BitVec 2)
  /-- `VSYNC` (R151): Completes once every older vector instruction and vector memory access of the context is complete. -/
  | vsync
  /-- `CHEND` (R184): Ends a chunk: forwards the carried registers, waits to be oldest, sews and passes the token. -/
  | chend
  /-- `JOIN` (R201): Ends the forked state and makes the last chunk's core the home core. -/
  | join
  /-- `NSPEC` (R202): Stalls the chunk until it is oldest, then sews it through. -/
  | nspec
  /-- `VSCFL` (R277): Requests a flush of the combining entries of every owner window. -/
  | vscfl
  /-- `SEALA` (R320): Takes a provisional snapshot, sets SEALING and sends ARRIVE for the current interval. -/
  | seala
  /-- `SEALW` (R321): Waits for the seal of the current interval, takes a full snapshot and advances RIN. -/
  | sealw
  /-- `END` (R340): Retires the thread: waits for its work, writes the completion word and frees or reserves the slot. -/
  | endThread
  /-- `YIELD` (R342): Swaps the thread out for a ready queued entry, if there is one. -/
  | yield
  /-- `ERET` (R363): Returns from a handler to XPC, restoring level and IE and restarting under EPX. -/
  | eret
  /-- `TLBI_ALL` (R127): Invalidates every TLB entry of the package. -/
  | tlbiAll
  /-- `RCOMMIT` (R126): Makes the pending range pairs active in all dies. -/
  | rcommit
  /-- event `FRAME_BOUNDARY` (R348): At each frame boundary the power manager adjusts ELIM and refills each ring's energy allowance. -/
  | frameBoundary
  /-- event `REGION_SWEEP` (R107): Every 1,048,576 cycles the hub returns finely tracked regions to private or uncached. -/
  | regionSweep
  /-- event `TAG_SCRUB` (R314): The hub rewrites stale interval tags to 0 in background slots. -/
  | tagScrub
  /-- event `SEALED_APPLY` (R323): A member frees undo records, releases held output, advances sealed tails and sets SEALRIN. -/
  | sealedApply
  /-- event `DOMAIN_ROLLBACK` (R329): Members stop domain contexts, drop newer packets and apply undo records back to the seal. -/
  | domainRollback
  /-- event `POWER_OVER_CAP` (R391): A 10 ms average power above CAPW writes an error record. -/
  | powerOverCap
  /-- event `COOLANT_FAULT` (R392): Low coolant flow or a high inlet temperature forces THERM to at least warm. -/
  | coolantFault
  /-- event `ERRLOST_CLEAR` (R389): A store to ERRLOST clears it. -/
  | errlostClear
deriving DecidableEq, Repr

end Sys2Proof
end

