-- ==== Sys2Proof/WellFormed.lean ====
section
/-! DEFINITION. The legal field values of the group tables (02_encoding.md R43-R53): what an instruction's fields must
satisfy beyond their widths. A word whose fields break them raises ILLEGAL-INSTRUCTION (R40). -/

namespace Sys2Proof

/-- The legal values of R43-R53, one line per constructor; an event has no word and no field limits. -/
def Instr.wellFormed : Instr → Bool
  | .add _ _ _ => true
  | .sub _ _ _ => true
  | .andR _ _ _ => true
  | .orR _ _ _ => true
  | .xorR _ _ _ => true
  | .andn _ _ _ => true
  | .sll _ _ _ => true
  | .srl _ _ _ => true
  | .sra _ _ _ => true
  | .slt _ _ _ => true
  | .sltu _ _ _ => true
  | .minS _ _ _ => true
  | .maxS _ _ _ => true
  | .minu _ _ _ => true
  | .maxu _ _ _ => true
  | .mul _ _ _ => true
  | .mulh _ _ _ => true
  | .mulhu _ _ _ => true
  | .div _ _ _ => true
  | .divu _ _ _ => true
  | .rem _ _ _ => true
  | .remu _ _ _ => true
  | .clz _ _ => true
  | .ctz _ _ => true
  | .popc _ _ => true
  | .sxb _ _ => true
  | .sxh _ _ => true
  | .sxw _ _ => true
  | .zxw _ _ => true
  | .sel _ _ _ _ => true
  | .addi _ _ _ => true
  | .andi _ _ _ => true
  | .ori _ _ _ => true
  | .xori _ _ _ => true
  | .slti _ _ _ => true
  | .sltiu _ _ _ => true
  | .slli _ _ _ => true
  | .srli _ _ _ => true
  | .srai _ _ _ => true
  | .liz _ _ _ _ => true
  | .lik _ _ _ => true
  | .addpc _ _ => true
  | .beq _ _ _ => true
  | .bne _ _ _ => true
  | .blt _ _ _ => true
  | .bge _ _ _ => true
  | .bltu _ _ _ => true
  | .bgeu _ _ _ => true
  | .jal _ _ => true
  | .jalr _ _ _ => true
  | .ldb _ _ _ => true
  | .ldbu _ _ _ => true
  | .ldh _ _ _ => true
  | .ldhu _ _ _ => true
  | .ldw _ _ _ => true
  | .ldwu _ _ _ => true
  | .ldd _ _ _ => true
  | .stb _ _ _ => true
  | .sth _ _ _ => true
  | .stw _ _ _ => true
  | .std _ _ _ => true
  | .amoadd _ _ _ sc _ _ => decide (sc.toNat ≠ 0)
  | .amoand _ _ _ sc _ _ => decide (sc.toNat ≠ 0)
  | .amoor _ _ _ sc _ _ => decide (sc.toNat ≠ 0)
  | .amoxor _ _ _ sc _ _ => decide (sc.toNat ≠ 0)
  | .amomin _ _ _ sc _ _ => decide (sc.toNat ≠ 0)
  | .amomax _ _ _ sc _ _ => decide (sc.toNat ≠ 0)
  | .amominu _ _ _ sc _ _ => decide (sc.toNat ≠ 0)
  | .amomaxu _ _ _ sc _ _ => decide (sc.toNat ≠ 0)
  | .amoswap _ _ _ sc _ _ => decide (sc.toNat ≠ 0)
  | .amocas _ _ _ sc _ _ => decide (sc.toNat ≠ 0)
  | .famoFadd _ _ _ sc _ => decide (sc.toNat ≠ 0)
  | .famoFmin _ _ _ sc _ => decide (sc.toNat ≠ 0)
  | .famoFmax _ _ _ sc _ => decide (sc.toNat ≠ 0)
  | .vsetl _ _ => true
  | .vcfg _ tag => decide (tag.toNat ≤ 12)
  | .vsync => true
  | .vadd _ _ _ _ _ => true
  | .vsub _ _ _ _ _ => true
  | .vmul _ _ _ _ _ => true
  | .vfma _ _ _ _ _ => true
  | .vmulh _ _ _ _ _ => true
  | .vadds _ _ _ _ _ => true
  | .vsubs _ _ _ _ _ => true
  | .vmin _ _ _ _ _ => true
  | .vmax _ _ _ _ _ => true
  | .vabs _ _ _ => true
  | .vneg _ _ _ => true
  | .vrcp _ _ _ => true
  | .vrsq _ _ _ => true
  | .vexp2 _ _ _ => true
  | .vlog2 _ _ _ => true
  | .vand _ _ _ _ _ => true
  | .vor _ _ _ _ _ => true
  | .vxor _ _ _ _ _ => true
  | .vshl _ _ _ _ _ => true
  | .vshr _ _ _ _ _ => true
  | .vceq _ _ _ _ _ => true
  | .vcne _ _ _ _ _ => true
  | .vclt _ _ _ _ _ => true
  | .vcle _ _ _ _ _ => true
  | .vslide1 _ _ _ => true
  | .vslidedn _ _ _ _ _ => true
  | .vslideup _ _ _ _ _ => true
  | .vperm _ _ _ _ => true
  | .vcmpr _ _ _ => true
  | .vexpd _ _ _ => true
  | .vsel _ _ _ _ => true
  | .vrsum _ _ _ => true
  | .vrmax _ _ _ => true
  | .vrmin _ _ _ => true
  | .vscan _ _ _ => true
  | .vscanx _ _ _ => true
  | .vcvt _ _ _ tag => decide (1 ≤ tag.toNat) && decide (tag.toNat ≤ 12)
  | .vsplat _ tag _ _ => decide (1 ≤ tag.toNat) && decide (tag.toNat ≤ 12)
  | .vins _ _ _ => true
  | .vext _ _ _ => true
  | .vmv _ _ _ => true
  | .viota _ _ => true
  | .kand _ _ _ => true
  | .kor _ _ _ => true
  | .kxor _ _ _ => true
  | .knot _ _ => true
  | .kpop _ _ => true
  | .kff _ _ => true
  | .kmv _ _ => true
  | .vld _ _ _ _ _ _ _ => true
  | .vlds _ _ _ _ _ _ _ _ => true
  | .vldx _ _ _ _ _ _ _ _ => true
  | .vst _ _ _ _ _ _ _ => true
  | .vsts _ _ _ _ _ _ _ _ => true
  | .vstx _ _ _ _ _ _ _ _ => true
  | .vamoAdd _ _ _ _ _ _ _ => true
  | .vamoMin _ _ _ _ _ _ _ => true
  | .vamoMax _ _ _ _ _ _ _ => true
  | .vamoFadd _ _ _ _ _ _ => true
  | .gcslp _ _ _ _ _ => true
  | .fork _ _ _ off => decide (2 ≤ off.toNat)
  | .fwd a => decide (a.toNat ≠ 0)
  | .chend => true
  | .join => true
  | .nspec => true
  | .chidx _ => true
  | .cpy _ _ _ _ => true
  | .cpy2 _ _ _ => true
  | .wtany _ => true
  | .wtall _ => true
  | .ffrdy _ _ => true
  | .trbclr _ => true
  | .waitc _ _ _ _ => true
  | .wtml _ _ => true
  | .tgath _ _ => true
  | .tldk _ _ => true
  | .tzero _ => true
  | .tst _ _ tag => decide (1 ≤ tag.toNat) && decide (tag.toNat ≤ 12)
  | .trd _ _ _ => true
  | .taccr _ _ => true
  | .tseq _ => true
  | .tmma _ _ _ _ => true
  | .fence _ ord => decide (ord.toNat ≠ 0)
  | .bararr _ _ sc _ => decide (2 ≤ sc.toNat) && decide (sc.toNat ≤ 6)
  | .barwt _ _ sc => decide (2 ≤ sc.toNat) && decide (sc.toNat ≤ 6)
  | .evld _ _ => true
  | .evsig _ _ => true
  | .dsbind _ _ _ => true
  | .sendMsg _ _ _ _ _ => true
  | .sendt _ _ _ _ => true
  | .putMsg _ _ _ _ _ _ => true
  | .getMsg _ _ _ _ _ => true
  | .ramo _ _ _ _ _ _ _ => true
  | .vscacc _ _ _ => true
  | .vscfl => true
  | .balw _ _ _ => true
  | .seala => true
  | .sealw => true
  | .spawn _ => true
  | .start _ _ => true
  | .endThread => true
  | .yield => true
  | .wfe _ => true
  | .ecall _ => true
  | .eret => true
  | .csrr _ _ => true
  | .csrw _ _ _ => true
  | .csrs _ _ _ => true
  | .csrc _ _ _ => true
  | .tlbi _ => true
  | .tlbiAll => true
  | .rcommit => true
  | .bist _ => true
  | .brk _ => true
  | .trcmkStart _ => true
  | .trcmkStop _ => true
  | .interruptEntry _ => true
  | .ageBoost _ => true
  | .copyComplete _ _ => true
  | .chunkStart _ _ => true
  | .versionRequest _ _ => true
  | .storeNotice _ => true
  | .forwardArrival _ => true
  | .conflictingWrite _ _ => true
  | .unpick _ _ _ => true
  | .l1WayReclaim _ _ => true
  | .chunkOldest _ => true
  | .tileOpStart _ => true
  | .tileOpComplete _ => true
  | .taccrReadServe _ => true
  | .evuWait _ => true
  | .evuTake _ => true
  | .evuDrain _ => true
  | .evuPeek _ => true
  | .evuClear _ => true
  | .evuArrive _ => true
  | .evuBarrierWait _ => true
  | .evuPoll _ => true
  | .evuSet _ => true
  | .evuLock _ => true
  | .evuTry _ => true
  | .evuUnlock _ => true
  | .evuOwner _ => true
  | .evsigDeliver _ => true
  | .evuWaitSatisfied _ => true
  | .barrierPhaseComplete _ => true
  | .gcslpWake _ => true
  | .bindReply _ _ => true
  | .ingressPut _ => true
  | .ingressSend _ => true
  | .ingressGet _ => true
  | .ingressRamo _ => true
  | .combiningPair _ => true
  | .combiningFlush _ => true
  | .staleIncarnationDrop _ => true
  | .resetNotice _ _ => true
  | .demand _ _ => true
  | .grant _ _ _ => true
  | .acknowledgement _ _ => true
  | .negativeAcknowledgement _ _ => true
  | .getResponse _ _ => true
  | .retransmissionTimeout _ => true
  | .creditReturn _ _ => true
  | .portXoff _ => true
  | .portXon _ => true
  | .sendtLaunch _ => true
  | .startArrival _ => true
  | .dispatchPlace _ => true
  | .deschedule _ => true
  | .parkedRequeue _ _ => true
  | .frameBoundary => true
  | .regionSweep => true
  | .undoDrain _ => true
  | .traceDrain _ _ => true
  | .tagScrub => true
  | .sealArrive _ => true
  | .sealedDeclare _ => true
  | .sealedApply => true
  | .sealwRelease _ => true
  | .undoPressure _ => true
  | .uncorrectableError _ => true
  | .correctedError _ => true
  | .poisonRead _ _ => true
  | .domainRollback => true
  | .rollbackResume _ => true
  | .gangSwitchBegin _ => true
  | .gangSwitchRestore _ => true
  | .gangSwitchResume _ => true
  | .bistComplete _ _ _ _ => true
  | .thermalTrip _ => true
  | .powerOverCap => true
  | .coolantFault => true
  | .powerOn _ => true
  | .camellRetry _ => true
  | .hostRead _ _ => true
  | .hostWrite _ _ => true
  | .stagingWrite _ _ => true
  | .rcfgWrite _ _ _ => true
  | .rwinWrite _ _ _ _ => true
  | .incAdvance _ _ => true
  | .haltFree _ _ _ => true
  | .reload _ _ => true
  | .barrierDomainConfig _ _ _ => true
  | .domcfgWrite _ => true
  | .rollreq _ => true
  | .dissolve _ => true
  | .go _ => true
  | .gswtArm _ _ => true
  | .gswtCancel _ _ => true
  | .rangePendingWrite _ _ => true
  | .vhwmWrite _ _ _ => true
  | .trclostClear _ _ => true
  | .errlostClear => true
  | .cevalClear _ => true
  | .capwWrite _ => true
  | .moduleReset _ => true
  | .imageLoad _ _ => true
  | .attnonceWrite _ _ => true
  | .attokWrite _ => true
  | .dcrWrite _ _ => true
  | .illegalInstruction _ => true
  | .accessPerformed _ => true
  | .vectorInstructionComplete _ => true
  | .thermChange _ _ _ => true

/-- Whether the instruction has a 32-bit word (R42), or is an event of the machine. -/
def Instr.hasWord : Instr → Bool
  | .add _ _ _ => true
  | .sub _ _ _ => true
  | .andR _ _ _ => true
  | .orR _ _ _ => true
  | .xorR _ _ _ => true
  | .andn _ _ _ => true
  | .sll _ _ _ => true
  | .srl _ _ _ => true
  | .sra _ _ _ => true
  | .slt _ _ _ => true
  | .sltu _ _ _ => true
  | .minS _ _ _ => true
  | .maxS _ _ _ => true
  | .minu _ _ _ => true
  | .maxu _ _ _ => true
  | .mul _ _ _ => true
  | .mulh _ _ _ => true
  | .mulhu _ _ _ => true
  | .div _ _ _ => true
  | .divu _ _ _ => true
  | .rem _ _ _ => true
  | .remu _ _ _ => true
  | .clz _ _ => true
  | .ctz _ _ => true
  | .popc _ _ => true
  | .sxb _ _ => true
  | .sxh _ _ => true
  | .sxw _ _ => true
  | .zxw _ _ => true
  | .sel _ _ _ _ => true
  | .addi _ _ _ => true
  | .andi _ _ _ => true
  | .ori _ _ _ => true
  | .xori _ _ _ => true
  | .slti _ _ _ => true
  | .sltiu _ _ _ => true
  | .slli _ _ _ => true
  | .srli _ _ _ => true
  | .srai _ _ _ => true
  | .liz _ _ _ _ => true
  | .lik _ _ _ => true
  | .addpc _ _ => true
  | .beq _ _ _ => true
  | .bne _ _ _ => true
  | .blt _ _ _ => true
  | .bge _ _ _ => true
  | .bltu _ _ _ => true
  | .bgeu _ _ _ => true
  | .jal _ _ => true
  | .jalr _ _ _ => true
  | .ldb _ _ _ => true
  | .ldbu _ _ _ => true
  | .ldh _ _ _ => true
  | .ldhu _ _ _ => true
  | .ldw _ _ _ => true
  | .ldwu _ _ _ => true
  | .ldd _ _ _ => true
  | .stb _ _ _ => true
  | .sth _ _ _ => true
  | .stw _ _ _ => true
  | .std _ _ _ => true
  | .amoadd _ _ _ _ _ _ => true
  | .amoand _ _ _ _ _ _ => true
  | .amoor _ _ _ _ _ _ => true
  | .amoxor _ _ _ _ _ _ => true
  | .amomin _ _ _ _ _ _ => true
  | .amomax _ _ _ _ _ _ => true
  | .amominu _ _ _ _ _ _ => true
  | .amomaxu _ _ _ _ _ _ => true
  | .amoswap _ _ _ _ _ _ => true
  | .amocas _ _ _ _ _ _ => true
  | .famoFadd _ _ _ _ _ => true
  | .famoFmin _ _ _ _ _ => true
  | .famoFmax _ _ _ _ _ => true
  | .vsetl _ _ => true
  | .vcfg _ _ => true
  | .vsync => true
  | .vadd _ _ _ _ _ => true
  | .vsub _ _ _ _ _ => true
  | .vmul _ _ _ _ _ => true
  | .vfma _ _ _ _ _ => true
  | .vmulh _ _ _ _ _ => true
  | .vadds _ _ _ _ _ => true
  | .vsubs _ _ _ _ _ => true
  | .vmin _ _ _ _ _ => true
  | .vmax _ _ _ _ _ => true
  | .vabs _ _ _ => true
  | .vneg _ _ _ => true
  | .vrcp _ _ _ => true
  | .vrsq _ _ _ => true
  | .vexp2 _ _ _ => true
  | .vlog2 _ _ _ => true
  | .vand _ _ _ _ _ => true
  | .vor _ _ _ _ _ => true
  | .vxor _ _ _ _ _ => true
  | .vshl _ _ _ _ _ => true
  | .vshr _ _ _ _ _ => true
  | .vceq _ _ _ _ _ => true
  | .vcne _ _ _ _ _ => true
  | .vclt _ _ _ _ _ => true
  | .vcle _ _ _ _ _ => true
  | .vslide1 _ _ _ => true
  | .vslidedn _ _ _ _ _ => true
  | .vslideup _ _ _ _ _ => true
  | .vperm _ _ _ _ => true
  | .vcmpr _ _ _ => true
  | .vexpd _ _ _ => true
  | .vsel _ _ _ _ => true
  | .vrsum _ _ _ => true
  | .vrmax _ _ _ => true
  | .vrmin _ _ _ => true
  | .vscan _ _ _ => true
  | .vscanx _ _ _ => true
  | .vcvt _ _ _ _ => true
  | .vsplat _ _ _ _ => true
  | .vins _ _ _ => true
  | .vext _ _ _ => true
  | .vmv _ _ _ => true
  | .viota _ _ => true
  | .kand _ _ _ => true
  | .kor _ _ _ => true
  | .kxor _ _ _ => true
  | .knot _ _ => true
  | .kpop _ _ => true
  | .kff _ _ => true
  | .kmv _ _ => true
  | .vld _ _ _ _ _ _ _ => true
  | .vlds _ _ _ _ _ _ _ _ => true
  | .vldx _ _ _ _ _ _ _ _ => true
  | .vst _ _ _ _ _ _ _ => true
  | .vsts _ _ _ _ _ _ _ _ => true
  | .vstx _ _ _ _ _ _ _ _ => true
  | .vamoAdd _ _ _ _ _ _ _ => true
  | .vamoMin _ _ _ _ _ _ _ => true
  | .vamoMax _ _ _ _ _ _ _ => true
  | .vamoFadd _ _ _ _ _ _ => true
  | .gcslp _ _ _ _ _ => true
  | .fork _ _ _ _ => true
  | .fwd _ => true
  | .chend => true
  | .join => true
  | .nspec => true
  | .chidx _ => true
  | .cpy _ _ _ _ => true
  | .cpy2 _ _ _ => true
  | .wtany _ => true
  | .wtall _ => true
  | .ffrdy _ _ => true
  | .trbclr _ => true
  | .waitc _ _ _ _ => true
  | .wtml _ _ => true
  | .tgath _ _ => true
  | .tldk _ _ => true
  | .tzero _ => true
  | .tst _ _ _ => true
  | .trd _ _ _ => true
  | .taccr _ _ => true
  | .tseq _ => true
  | .tmma _ _ _ _ => true
  | .fence _ _ => true
  | .bararr _ _ _ _ => true
  | .barwt _ _ _ => true
  | .evld _ _ => true
  | .evsig _ _ => true
  | .dsbind _ _ _ => true
  | .sendMsg _ _ _ _ _ => true
  | .sendt _ _ _ _ => true
  | .putMsg _ _ _ _ _ _ => true
  | .getMsg _ _ _ _ _ => true
  | .ramo _ _ _ _ _ _ _ => true
  | .vscacc _ _ _ => true
  | .vscfl => true
  | .balw _ _ _ => true
  | .seala => true
  | .sealw => true
  | .spawn _ => true
  | .start _ _ => true
  | .endThread => true
  | .yield => true
  | .wfe _ => true
  | .ecall _ => true
  | .eret => true
  | .csrr _ _ => true
  | .csrw _ _ _ => true
  | .csrs _ _ _ => true
  | .csrc _ _ _ => true
  | .tlbi _ => true
  | .tlbiAll => true
  | .rcommit => true
  | .bist _ => true
  | .brk _ => true
  | .trcmkStart _ => true
  | .trcmkStop _ => true
  | .interruptEntry _ => false
  | .ageBoost _ => false
  | .copyComplete _ _ => false
  | .chunkStart _ _ => false
  | .versionRequest _ _ => false
  | .storeNotice _ => false
  | .forwardArrival _ => false
  | .conflictingWrite _ _ => false
  | .unpick _ _ _ => false
  | .l1WayReclaim _ _ => false
  | .chunkOldest _ => false
  | .tileOpStart _ => false
  | .tileOpComplete _ => false
  | .taccrReadServe _ => false
  | .evuWait _ => false
  | .evuTake _ => false
  | .evuDrain _ => false
  | .evuPeek _ => false
  | .evuClear _ => false
  | .evuArrive _ => false
  | .evuBarrierWait _ => false
  | .evuPoll _ => false
  | .evuSet _ => false
  | .evuLock _ => false
  | .evuTry _ => false
  | .evuUnlock _ => false
  | .evuOwner _ => false
  | .evsigDeliver _ => false
  | .evuWaitSatisfied _ => false
  | .barrierPhaseComplete _ => false
  | .gcslpWake _ => false
  | .bindReply _ _ => false
  | .ingressPut _ => false
  | .ingressSend _ => false
  | .ingressGet _ => false
  | .ingressRamo _ => false
  | .combiningPair _ => false
  | .combiningFlush _ => false
  | .staleIncarnationDrop _ => false
  | .resetNotice _ _ => false
  | .demand _ _ => false
  | .grant _ _ _ => false
  | .acknowledgement _ _ => false
  | .negativeAcknowledgement _ _ => false
  | .getResponse _ _ => false
  | .retransmissionTimeout _ => false
  | .creditReturn _ _ => false
  | .portXoff _ => false
  | .portXon _ => false
  | .sendtLaunch _ => false
  | .startArrival _ => false
  | .dispatchPlace _ => false
  | .deschedule _ => false
  | .parkedRequeue _ _ => false
  | .frameBoundary => false
  | .regionSweep => false
  | .undoDrain _ => false
  | .traceDrain _ _ => false
  | .tagScrub => false
  | .sealArrive _ => false
  | .sealedDeclare _ => false
  | .sealedApply => false
  | .sealwRelease _ => false
  | .undoPressure _ => false
  | .uncorrectableError _ => false
  | .correctedError _ => false
  | .poisonRead _ _ => false
  | .domainRollback => false
  | .rollbackResume _ => false
  | .gangSwitchBegin _ => false
  | .gangSwitchRestore _ => false
  | .gangSwitchResume _ => false
  | .bistComplete _ _ _ _ => false
  | .thermalTrip _ => false
  | .powerOverCap => false
  | .coolantFault => false
  | .powerOn _ => false
  | .camellRetry _ => false
  | .hostRead _ _ => false
  | .hostWrite _ _ => false
  | .stagingWrite _ _ => false
  | .rcfgWrite _ _ _ => false
  | .rwinWrite _ _ _ _ => false
  | .incAdvance _ _ => false
  | .haltFree _ _ _ => false
  | .reload _ _ => false
  | .barrierDomainConfig _ _ _ => false
  | .domcfgWrite _ => false
  | .rollreq _ => false
  | .dissolve _ => false
  | .go _ => false
  | .gswtArm _ _ => false
  | .gswtCancel _ _ => false
  | .rangePendingWrite _ _ => false
  | .vhwmWrite _ _ _ => false
  | .trclostClear _ _ => false
  | .errlostClear => false
  | .cevalClear _ => false
  | .capwWrite _ => false
  | .moduleReset _ => false
  | .imageLoad _ _ => false
  | .attnonceWrite _ _ => false
  | .attokWrite _ => false
  | .dcrWrite _ _ => false
  | .illegalInstruction _ => false
  | .accessPerformed _ => false
  | .vectorInstructionComplete _ => false
  | .thermChange _ _ _ => false

end Sys2Proof
end

