-- ==== Sys2Proof/Decode.lean ====
section
/-! DEFINITION. Decoding a 32-bit word (02_encoding.md R38-R53), total, refusing by name (R40); after it the encoder,
written from the same tables; and the decoder as the host calls it. -/

namespace Sys2Proof

/-- Why a word is not an instruction (R40). Each makes the issuing unit raise ILLEGAL-INSTRUCTION. -/
inductive Reject where
  | zeroMajor         -- major 0x00
  | reservedMajor     -- majors 0x2F-0x3E
  | undefinedMajor    -- major 0x3F
  | reservedFunction  -- a function, width or kind value the tables do not list
  | mustBeZero        -- a field or bit that must be zero (or one) is not
  | fieldRange        -- a field outside the legal values listed for it
deriving DecidableEq, Repr

/-- The value of the `n` bits of `w` from bit `lo` upward. -/
def fld (w lo n : Nat) : Nat := w / 2 ^ lo % 2 ^ n

/-- The same bits as a bit vector. -/
def bits (w lo n : Nat) : BitVec n := BitVec.ofNat n (fld w lo n)

/-- A row of the tables applies when its fixed bits are as listed and its fields have legal values. -/
def accept (fixed : Bool) (i : Instr) : Except Reject Instr :=
  if fixed then (if i.wellFormed then .ok i else .error .fieldRange) else .error .mustBeZero

/-- Major 0x01: ADD, SUB, AND, OR … (R42). -/
def decodeMajor01 (w : Nat) : Except Reject Instr :=
  match fld w 0 6 with
  | 0 => accept (fld w 6 5 == 0) (.add (bits w 21 5) (bits w 16 5) (bits w 11 5))
  | 1 => accept (fld w 6 5 == 0) (.sub (bits w 21 5) (bits w 16 5) (bits w 11 5))
  | 2 => accept (fld w 6 5 == 0) (.andR (bits w 21 5) (bits w 16 5) (bits w 11 5))
  | 3 => accept (fld w 6 5 == 0) (.orR (bits w 21 5) (bits w 16 5) (bits w 11 5))
  | 4 => accept (fld w 6 5 == 0) (.xorR (bits w 21 5) (bits w 16 5) (bits w 11 5))
  | 5 => accept (fld w 6 5 == 0) (.andn (bits w 21 5) (bits w 16 5) (bits w 11 5))
  | 6 => accept (fld w 6 5 == 0) (.sll (bits w 21 5) (bits w 16 5) (bits w 11 5))
  | 7 => accept (fld w 6 5 == 0) (.srl (bits w 21 5) (bits w 16 5) (bits w 11 5))
  | 8 => accept (fld w 6 5 == 0) (.sra (bits w 21 5) (bits w 16 5) (bits w 11 5))
  | 9 => accept (fld w 6 5 == 0) (.slt (bits w 21 5) (bits w 16 5) (bits w 11 5))
  | 10 => accept (fld w 6 5 == 0) (.sltu (bits w 21 5) (bits w 16 5) (bits w 11 5))
  | 11 => accept (fld w 6 5 == 0) (.minS (bits w 21 5) (bits w 16 5) (bits w 11 5))
  | 12 => accept (fld w 6 5 == 0) (.maxS (bits w 21 5) (bits w 16 5) (bits w 11 5))
  | 13 => accept (fld w 6 5 == 0) (.minu (bits w 21 5) (bits w 16 5) (bits w 11 5))
  | 14 => accept (fld w 6 5 == 0) (.maxu (bits w 21 5) (bits w 16 5) (bits w 11 5))
  | 16 => accept (fld w 6 5 == 0) (.mul (bits w 21 5) (bits w 16 5) (bits w 11 5))
  | 17 => accept (fld w 6 5 == 0) (.mulh (bits w 21 5) (bits w 16 5) (bits w 11 5))
  | 18 => accept (fld w 6 5 == 0) (.mulhu (bits w 21 5) (bits w 16 5) (bits w 11 5))
  | 19 => accept (fld w 6 5 == 0) (.div (bits w 21 5) (bits w 16 5) (bits w 11 5))
  | 20 => accept (fld w 6 5 == 0) (.divu (bits w 21 5) (bits w 16 5) (bits w 11 5))
  | 21 => accept (fld w 6 5 == 0) (.rem (bits w 21 5) (bits w 16 5) (bits w 11 5))
  | 22 => accept (fld w 6 5 == 0) (.remu (bits w 21 5) (bits w 16 5) (bits w 11 5))
  | 24 => accept (fld w 6 10 == 0) (.clz (bits w 21 5) (bits w 16 5))
  | 25 => accept (fld w 6 10 == 0) (.ctz (bits w 21 5) (bits w 16 5))
  | 26 => accept (fld w 6 10 == 0) (.popc (bits w 21 5) (bits w 16 5))
  | 28 => accept (fld w 6 10 == 0) (.sxb (bits w 21 5) (bits w 16 5))
  | 29 => accept (fld w 6 10 == 0) (.sxh (bits w 21 5) (bits w 16 5))
  | 30 => accept (fld w 6 10 == 0) (.sxw (bits w 21 5) (bits w 16 5))
  | 31 => accept (fld w 6 10 == 0) (.zxw (bits w 21 5) (bits w 16 5))
  | 32 => accept (true) (.sel (bits w 21 5) (bits w 16 5) (bits w 11 5) (bits w 6 5))
  | _ => .error .reservedFunction

/-- Major 0x02: ADDI (R42). -/
def decodeMajor02 (w : Nat) : Except Reject Instr :=
  accept (true) (.addi (bits w 21 5) (bits w 16 5) (bits w 0 16))

/-- Major 0x03: ANDI (R42). -/
def decodeMajor03 (w : Nat) : Except Reject Instr :=
  accept (true) (.andi (bits w 21 5) (bits w 16 5) (bits w 0 16))

/-- Major 0x04: ORI (R42). -/
def decodeMajor04 (w : Nat) : Except Reject Instr :=
  accept (true) (.ori (bits w 21 5) (bits w 16 5) (bits w 0 16))

/-- Major 0x05: XORI (R42). -/
def decodeMajor05 (w : Nat) : Except Reject Instr :=
  accept (true) (.xori (bits w 21 5) (bits w 16 5) (bits w 0 16))

/-- Major 0x06: SLTI (R42). -/
def decodeMajor06 (w : Nat) : Except Reject Instr :=
  accept (true) (.slti (bits w 21 5) (bits w 16 5) (bits w 0 16))

/-- Major 0x07: SLTIU (R42). -/
def decodeMajor07 (w : Nat) : Except Reject Instr :=
  accept (true) (.sltiu (bits w 21 5) (bits w 16 5) (bits w 0 16))

/-- Major 0x08: SLLI, SRLI, SRAI (R42). -/
def decodeMajor08 (w : Nat) : Except Reject Instr :=
  match fld w 6 2 with
  | 0 => accept (fld w 8 8 == 0) (.slli (bits w 21 5) (bits w 16 5) (bits w 0 6))
  | 1 => accept (fld w 8 8 == 0) (.srli (bits w 21 5) (bits w 16 5) (bits w 0 6))
  | 2 => accept (fld w 8 8 == 0) (.srai (bits w 21 5) (bits w 16 5) (bits w 0 6))
  | _ => .error .reservedFunction

/-- Major 0x09: LIZ (R42). -/
def decodeMajor09 (w : Nat) : Except Reject Instr :=
  accept (fld w 16 2 == 0) (.liz (bits w 21 5) (bits w 19 2) (bits w 18 1) (bits w 0 16))

/-- Major 0x0A: LIK (R42). -/
def decodeMajor0A (w : Nat) : Except Reject Instr :=
  accept (fld w 16 3 == 0) (.lik (bits w 21 5) (bits w 19 2) (bits w 0 16))

/-- Major 0x0B: ADDPC (R42). -/
def decodeMajor0B (w : Nat) : Except Reject Instr :=
  accept (true) (.addpc (bits w 21 5) (bits w 0 21))

/-- Major 0x0C: BEQ (R42). -/
def decodeMajor0C (w : Nat) : Except Reject Instr :=
  accept (true) (.beq (bits w 21 5) (bits w 16 5) (bits w 0 16))

/-- Major 0x0D: BNE (R42). -/
def decodeMajor0D (w : Nat) : Except Reject Instr :=
  accept (true) (.bne (bits w 21 5) (bits w 16 5) (bits w 0 16))

/-- Major 0x0E: BLT (R42). -/
def decodeMajor0E (w : Nat) : Except Reject Instr :=
  accept (true) (.blt (bits w 21 5) (bits w 16 5) (bits w 0 16))

/-- Major 0x0F: BGE (R42). -/
def decodeMajor0F (w : Nat) : Except Reject Instr :=
  accept (true) (.bge (bits w 21 5) (bits w 16 5) (bits w 0 16))

/-- Major 0x10: BLTU (R42). -/
def decodeMajor10 (w : Nat) : Except Reject Instr :=
  accept (true) (.bltu (bits w 21 5) (bits w 16 5) (bits w 0 16))

/-- Major 0x11: BGEU (R42). -/
def decodeMajor11 (w : Nat) : Except Reject Instr :=
  accept (true) (.bgeu (bits w 21 5) (bits w 16 5) (bits w 0 16))

/-- Major 0x12: JAL (R42). -/
def decodeMajor12 (w : Nat) : Except Reject Instr :=
  accept (true) (.jal (bits w 21 5) (bits w 0 21))

/-- Major 0x13: JALR (R42). -/
def decodeMajor13 (w : Nat) : Except Reject Instr :=
  accept (true) (.jalr (bits w 21 5) (bits w 16 5) (bits w 0 16))

/-- Major 0x14: LDB, LDBU, LDH, LDHU … (R42). -/
def decodeMajor14 (w : Nat) : Except Reject Instr :=
  match fld w 13 3 with
  | 0 => accept (true) (.ldb (bits w 21 5) (bits w 16 5) (bits w 0 13))
  | 1 => accept (true) (.ldbu (bits w 21 5) (bits w 16 5) (bits w 0 13))
  | 2 => accept (true) (.ldh (bits w 21 5) (bits w 16 5) (bits w 0 13))
  | 3 => accept (true) (.ldhu (bits w 21 5) (bits w 16 5) (bits w 0 13))
  | 4 => accept (true) (.ldw (bits w 21 5) (bits w 16 5) (bits w 0 13))
  | 5 => accept (true) (.ldwu (bits w 21 5) (bits w 16 5) (bits w 0 13))
  | 6 => accept (true) (.ldd (bits w 21 5) (bits w 16 5) (bits w 0 13))
  | _ => .error .reservedFunction

/-- Major 0x15: STB, STH, STW, STD (R42). -/
def decodeMajor15 (w : Nat) : Except Reject Instr :=
  match fld w 13 3 with
  | 0 => accept (true) (.stb (bits w 21 5) (bits w 16 5) (bits w 0 13))
  | 1 => accept (true) (.sth (bits w 21 5) (bits w 16 5) (bits w 0 13))
  | 2 => accept (true) (.stw (bits w 21 5) (bits w 16 5) (bits w 0 13))
  | 3 => accept (true) (.std (bits w 21 5) (bits w 16 5) (bits w 0 13))
  | _ => .error .reservedFunction

/-- Major 0x16: AMOADD, AMOAND, AMOOR, AMOXOR … (R42). -/
def decodeMajor16 (w : Nat) : Except Reject Instr :=
  match fld w 0 5 with
  | 0 => accept (true) (.amoadd (bits w 21 5) (bits w 16 5) (bits w 11 5) (bits w 8 3) (bits w 6 2) (bits w 5 1))
  | 1 => accept (true) (.amoand (bits w 21 5) (bits w 16 5) (bits w 11 5) (bits w 8 3) (bits w 6 2) (bits w 5 1))
  | 2 => accept (true) (.amoor (bits w 21 5) (bits w 16 5) (bits w 11 5) (bits w 8 3) (bits w 6 2) (bits w 5 1))
  | 3 => accept (true) (.amoxor (bits w 21 5) (bits w 16 5) (bits w 11 5) (bits w 8 3) (bits w 6 2) (bits w 5 1))
  | 4 => accept (true) (.amomin (bits w 21 5) (bits w 16 5) (bits w 11 5) (bits w 8 3) (bits w 6 2) (bits w 5 1))
  | 5 => accept (true) (.amomax (bits w 21 5) (bits w 16 5) (bits w 11 5) (bits w 8 3) (bits w 6 2) (bits w 5 1))
  | 6 => accept (true) (.amominu (bits w 21 5) (bits w 16 5) (bits w 11 5) (bits w 8 3) (bits w 6 2) (bits w 5 1))
  | 7 => accept (true) (.amomaxu (bits w 21 5) (bits w 16 5) (bits w 11 5) (bits w 8 3) (bits w 6 2) (bits w 5 1))
  | 8 => accept (true) (.amoswap (bits w 21 5) (bits w 16 5) (bits w 11 5) (bits w 8 3) (bits w 6 2) (bits w 5 1))
  | 9 => accept (true) (.amocas (bits w 21 5) (bits w 16 5) (bits w 11 5) (bits w 8 3) (bits w 6 2) (bits w 5 1))
  | _ => .error .reservedFunction

/-- Major 0x17: FAMO_FADD, FAMO_FMIN, FAMO_FMAX (R42). -/
def decodeMajor17 (w : Nat) : Except Reject Instr :=
  match fld w 0 5 with
  | 0 => accept (fld w 5 1 == 0) (.famoFadd (bits w 21 5) (bits w 16 5) (bits w 11 5) (bits w 8 3) (bits w 6 2))
  | 1 => accept (fld w 5 1 == 0) (.famoFmin (bits w 21 5) (bits w 16 5) (bits w 11 5) (bits w 8 3) (bits w 6 2))
  | 2 => accept (fld w 5 1 == 0) (.famoFmax (bits w 21 5) (bits w 16 5) (bits w 11 5) (bits w 8 3) (bits w 6 2))
  | _ => .error .reservedFunction

/-- Major 0x18: VSETL, VCFG, VSYNC (R42). -/
def decodeMajor18 (w : Nat) : Except Reject Instr :=
  match fld w 0 8 with
  | 0 => accept (fld w 8 8 == 0) (.vsetl (bits w 21 5) (bits w 16 5))
  | 1 => accept (fld w 8 3 == 0 && fld w 16 5 == 0) (.vcfg (bits w 21 5) (bits w 11 5))
  | 2 => accept (fld w 8 18 == 0) (.vsync)
  | _ => .error .reservedFunction

/-- Major 0x19: VADD, VSUB, VMUL, VFMA … (R42). -/
def decodeMajor19 (w : Nat) : Except Reject Instr :=
  match fld w 0 7 with
  | 0 => accept (true) (.vadd (bits w 21 5) (bits w 16 5) (bits w 11 5) (bits w 8 3) (bits w 7 1))
  | 1 => accept (true) (.vsub (bits w 21 5) (bits w 16 5) (bits w 11 5) (bits w 8 3) (bits w 7 1))
  | 2 => accept (true) (.vmul (bits w 21 5) (bits w 16 5) (bits w 11 5) (bits w 8 3) (bits w 7 1))
  | 3 => accept (true) (.vfma (bits w 21 5) (bits w 16 5) (bits w 11 5) (bits w 8 3) (bits w 7 1))
  | 4 => accept (true) (.vmulh (bits w 21 5) (bits w 16 5) (bits w 11 5) (bits w 8 3) (bits w 7 1))
  | 5 => accept (true) (.vadds (bits w 21 5) (bits w 16 5) (bits w 11 5) (bits w 8 3) (bits w 7 1))
  | 6 => accept (true) (.vsubs (bits w 21 5) (bits w 16 5) (bits w 11 5) (bits w 8 3) (bits w 7 1))
  | 7 => accept (true) (.vmin (bits w 21 5) (bits w 16 5) (bits w 11 5) (bits w 8 3) (bits w 7 1))
  | 8 => accept (true) (.vmax (bits w 21 5) (bits w 16 5) (bits w 11 5) (bits w 8 3) (bits w 7 1))
  | 9 => accept (fld w 7 1 == 0 && fld w 11 5 == 0) (.vabs (bits w 21 5) (bits w 16 5) (bits w 8 3))
  | 10 => accept (fld w 7 1 == 0 && fld w 11 5 == 0) (.vneg (bits w 21 5) (bits w 16 5) (bits w 8 3))
  | 11 => accept (fld w 7 1 == 0 && fld w 11 5 == 0) (.vrcp (bits w 21 5) (bits w 16 5) (bits w 8 3))
  | 12 => accept (fld w 7 1 == 0 && fld w 11 5 == 0) (.vrsq (bits w 21 5) (bits w 16 5) (bits w 8 3))
  | 13 => accept (fld w 7 1 == 0 && fld w 11 5 == 0) (.vexp2 (bits w 21 5) (bits w 16 5) (bits w 8 3))
  | 14 => accept (fld w 7 1 == 0 && fld w 11 5 == 0) (.vlog2 (bits w 21 5) (bits w 16 5) (bits w 8 3))
  | 15 => accept (true) (.vand (bits w 21 5) (bits w 16 5) (bits w 11 5) (bits w 8 3) (bits w 7 1))
  | 16 => accept (true) (.vor (bits w 21 5) (bits w 16 5) (bits w 11 5) (bits w 8 3) (bits w 7 1))
  | 17 => accept (true) (.vxor (bits w 21 5) (bits w 16 5) (bits w 11 5) (bits w 8 3) (bits w 7 1))
  | 18 => accept (true) (.vshl (bits w 21 5) (bits w 16 5) (bits w 11 5) (bits w 8 3) (bits w 7 1))
  | 19 => accept (true) (.vshr (bits w 21 5) (bits w 16 5) (bits w 11 5) (bits w 8 3) (bits w 7 1))
  | _ => .error .reservedFunction

/-- Major 0x1A: VCEQ, VCNE, VCLT, VCLE (R42). -/
def decodeMajor1A (w : Nat) : Except Reject Instr :=
  match fld w 0 7 with
  | 0 => accept (fld w 24 2 == 0) (.vceq (bits w 21 3) (bits w 16 5) (bits w 11 5) (bits w 8 3) (bits w 7 1))
  | 1 => accept (fld w 24 2 == 0) (.vcne (bits w 21 3) (bits w 16 5) (bits w 11 5) (bits w 8 3) (bits w 7 1))
  | 2 => accept (fld w 24 2 == 0) (.vclt (bits w 21 3) (bits w 16 5) (bits w 11 5) (bits w 8 3) (bits w 7 1))
  | 3 => accept (fld w 24 2 == 0) (.vcle (bits w 21 3) (bits w 16 5) (bits w 11 5) (bits w 8 3) (bits w 7 1))
  | _ => .error .reservedFunction

/-- Major 0x1B: VSLIDE1, VSLIDEDN, VSLIDEUP, VPERM … (R42). -/
def decodeMajor1B (w : Nat) : Except Reject Instr :=
  match fld w 0 7 with
  | 0 => accept (fld w 7 1 == 1 && fld w 16 5 == 0) (.vslide1 (bits w 21 5) (bits w 11 5) (bits w 8 3))
  | 1 => accept (true) (.vslidedn (bits w 21 5) (bits w 16 5) (bits w 11 5) (bits w 8 3) (bits w 7 1))
  | 2 => accept (true) (.vslideup (bits w 21 5) (bits w 16 5) (bits w 11 5) (bits w 8 3) (bits w 7 1))
  | 3 => accept (fld w 7 1 == 0) (.vperm (bits w 21 5) (bits w 16 5) (bits w 11 5) (bits w 8 3))
  | 4 => accept (fld w 7 1 == 0 && fld w 11 5 == 0) (.vcmpr (bits w 21 5) (bits w 16 5) (bits w 8 3))
  | 5 => accept (fld w 7 1 == 0 && fld w 11 5 == 0) (.vexpd (bits w 21 5) (bits w 16 5) (bits w 8 3))
  | 6 => accept (fld w 7 1 == 0) (.vsel (bits w 21 5) (bits w 16 5) (bits w 11 5) (bits w 8 3))
  | _ => .error .reservedFunction

/-- Major 0x1C: VRSUM, VRMAX, VRMIN, VSCAN … (R42). -/
def decodeMajor1C (w : Nat) : Except Reject Instr :=
  match fld w 0 8 with
  | 0 => accept (fld w 11 5 == 0) (.vrsum (bits w 21 5) (bits w 16 5) (bits w 8 3))
  | 1 => accept (fld w 11 5 == 0) (.vrmax (bits w 21 5) (bits w 16 5) (bits w 8 3))
  | 2 => accept (fld w 11 5 == 0) (.vrmin (bits w 21 5) (bits w 16 5) (bits w 8 3))
  | 3 => accept (fld w 11 5 == 0) (.vscan (bits w 21 5) (bits w 16 5) (bits w 8 3))
  | 4 => accept (fld w 11 5 == 0) (.vscanx (bits w 21 5) (bits w 16 5) (bits w 8 3))
  | _ => .error .reservedFunction

/-- Major 0x1D: VCVT (R42). -/
def decodeMajor1D (w : Nat) : Except Reject Instr :=
  accept (fld w 4 4 == 0 && fld w 11 5 == 0) (.vcvt (bits w 21 5) (bits w 16 5) (bits w 8 3) (bits w 0 4))

/-- Major 0x1E: VSPLAT, VINS, VEXT, VMV … (R42). -/
def decodeMajor1E (w : Nat) : Except Reject Instr :=
  match fld w 0 7 with
  | 0 => accept (fld w 7 1 == 1) (.vsplat (bits w 21 5) (bits w 16 5) (bits w 11 5) (bits w 8 3))
  | 1 => accept (fld w 7 4 == 1) (.vins (bits w 21 5) (bits w 16 5) (bits w 11 5))
  | 2 => accept (fld w 7 4 == 1) (.vext (bits w 21 5) (bits w 16 5) (bits w 11 5))
  | 3 => accept (fld w 7 1 == 0 && fld w 11 5 == 0) (.vmv (bits w 21 5) (bits w 16 5) (bits w 8 3))
  | 4 => accept (fld w 7 1 == 0 && fld w 11 10 == 0) (.viota (bits w 21 5) (bits w 8 3))
  | _ => .error .reservedFunction

/-- Major 0x1F: KAND, KOR, KXOR, KNOT … (R42). -/
def decodeMajor1F (w : Nat) : Except Reject Instr :=
  match fld w 0 8 with
  | 0 => accept (fld w 8 3 == 0 && fld w 14 2 == 0 && fld w 19 2 == 0 && fld w 24 2 == 0) (.kand (bits w 21 3) (bits w 16 3) (bits w 11 3))
  | 1 => accept (fld w 8 3 == 0 && fld w 14 2 == 0 && fld w 19 2 == 0 && fld w 24 2 == 0) (.kor (bits w 21 3) (bits w 16 3) (bits w 11 3))
  | 2 => accept (fld w 8 3 == 0 && fld w 14 2 == 0 && fld w 19 2 == 0 && fld w 24 2 == 0) (.kxor (bits w 21 3) (bits w 16 3) (bits w 11 3))
  | 3 => accept (fld w 8 8 == 0 && fld w 19 2 == 0 && fld w 24 2 == 0) (.knot (bits w 21 3) (bits w 16 3))
  | 4 => accept (fld w 8 8 == 0 && fld w 19 2 == 0) (.kpop (bits w 21 5) (bits w 16 3))
  | 5 => accept (fld w 8 8 == 0 && fld w 19 2 == 0) (.kff (bits w 21 5) (bits w 16 3))
  | 6 => accept (fld w 8 8 == 0 && fld w 19 2 == 0 && fld w 24 2 == 0) (.kmv (bits w 21 3) (bits w 16 3))
  | _ => .error .reservedFunction

/-- Major 0x20: VLD, VLDS, VLDX (R42). -/
def decodeMajor20 (w : Nat) : Except Reject Instr :=
  match fld w 0 2 with
  | 0 => accept (fld w 11 5 == 0) (.vld (bits w 21 5) (bits w 16 5) (bits w 8 3) (bits w 7 1) (bits w 6 1) (bits w 4 2) (bits w 2 2))
  | 1 => accept (true) (.vlds (bits w 21 5) (bits w 16 5) (bits w 11 5) (bits w 8 3) (bits w 7 1) (bits w 6 1) (bits w 4 2) (bits w 2 2))
  | 2 => accept (true) (.vldx (bits w 21 5) (bits w 16 5) (bits w 11 5) (bits w 8 3) (bits w 7 1) (bits w 6 1) (bits w 4 2) (bits w 2 2))
  | _ => .error .reservedFunction

/-- Major 0x21: VST, VSTS, VSTX (R42). -/
def decodeMajor21 (w : Nat) : Except Reject Instr :=
  match fld w 0 2 with
  | 0 => accept (fld w 11 5 == 0) (.vst (bits w 21 5) (bits w 16 5) (bits w 8 3) (bits w 7 1) (bits w 6 1) (bits w 4 2) (bits w 2 2))
  | 1 => accept (true) (.vsts (bits w 21 5) (bits w 16 5) (bits w 11 5) (bits w 8 3) (bits w 7 1) (bits w 6 1) (bits w 4 2) (bits w 2 2))
  | 2 => accept (true) (.vstx (bits w 21 5) (bits w 16 5) (bits w 11 5) (bits w 8 3) (bits w 7 1) (bits w 6 1) (bits w 4 2) (bits w 2 2))
  | _ => .error .reservedFunction

/-- Major 0x22: VAMO_ADD, VAMO_MIN, VAMO_MAX, VAMO_FADD (R42). -/
def decodeMajor22 (w : Nat) : Except Reject Instr :=
  match fld w 0 2 with
  | 0 => accept (fld w 3 1 == 1 && fld w 7 1 == 0) (.vamoAdd (bits w 21 5) (bits w 16 5) (bits w 11 5) (bits w 8 3) (bits w 6 1) (bits w 4 2) (bits w 2 1))
  | 1 => accept (fld w 3 1 == 1 && fld w 7 1 == 0) (.vamoMin (bits w 21 5) (bits w 16 5) (bits w 11 5) (bits w 8 3) (bits w 6 1) (bits w 4 2) (bits w 2 1))
  | 2 => accept (fld w 3 1 == 1 && fld w 7 1 == 0) (.vamoMax (bits w 21 5) (bits w 16 5) (bits w 11 5) (bits w 8 3) (bits w 6 1) (bits w 4 2) (bits w 2 1))
  | 3 => accept (fld w 2 2 == 2 && fld w 7 1 == 0) (.vamoFadd (bits w 21 5) (bits w 16 5) (bits w 11 5) (bits w 8 3) (bits w 6 1) (bits w 4 2))
  | _ => .error .reservedFunction

/-- Major 0x23: GCSLP (R42). -/
def decodeMajor23 (w : Nat) : Except Reject Instr :=
  accept (fld w 1 7 == 0 && fld w 24 2 == 0) (.gcslp (bits w 21 3) (bits w 16 5) (bits w 11 5) (bits w 8 3) (bits w 0 1))

/-- Major 0x24: FORK, FWD, CHEND, JOIN … (R42). -/
def decodeMajor24 (w : Nat) : Except Reject Instr :=
  match fld w 8 3 with
  | 0 => accept (true) (.fork (bits w 21 5) (bits w 16 5) (bits w 11 5) (bits w 0 8))
  | 1 => accept (fld w 0 8 == 0 && fld w 11 5 == 0 && fld w 21 5 == 0) (.fwd (bits w 16 5))
  | 2 => accept (fld w 0 8 == 0 && fld w 11 15 == 0) (.chend)
  | 3 => accept (fld w 0 8 == 0 && fld w 11 15 == 0) (.join)
  | 4 => accept (fld w 0 8 == 0 && fld w 11 15 == 0) (.nspec)
  | 5 => accept (fld w 0 8 == 0 && fld w 11 10 == 0) (.chidx (bits w 21 5))
  | _ => .error .reservedFunction

/-- Major 0x25: CPY, CPY2 (R42). -/
def decodeMajor25 (w : Nat) : Except Reject Instr :=
  match fld w 0 5 with
  | 0 => accept (true) (.cpy (bits w 20 6) (bits w 15 5) (bits w 10 5) (bits w 5 5))
  | 1 => accept (fld w 5 5 == 0) (.cpy2 (bits w 20 6) (bits w 15 5) (bits w 10 5))
  | _ => .error .reservedFunction

/-- Major 0x26: WTANY, WTALL, FFRDY, TRBCLR … (R42). -/
def decodeMajor26 (w : Nat) : Except Reject Instr :=
  match fld w 0 5 with
  | 0 => accept (fld w 5 10 == 0 && fld w 20 6 == 0) (.wtany (bits w 15 5))
  | 1 => accept (fld w 5 10 == 0 && fld w 20 6 == 0) (.wtall (bits w 15 5))
  | 2 => accept (fld w 10 5 == 0 && fld w 20 6 == 0) (.ffrdy (bits w 15 5) (bits w 5 5))
  | 3 => accept (fld w 5 10 == 0 && fld w 20 6 == 0) (.trbclr (bits w 15 5))
  | 4 => accept (fld w 25 1 == 0) (.waitc (bits w 20 5) (bits w 15 5) (bits w 10 5) (bits w 5 5))
  | 5 => accept (fld w 5 5 == 0 && fld w 20 6 == 0) (.wtml (bits w 15 5) (bits w 10 5))
  | _ => .error .reservedFunction

/-- Major 0x27: TGATH, TLDK, TZERO, TST … (R42). -/
def decodeMajor27 (w : Nat) : Except Reject Instr :=
  match fld w 0 5 with
  | 0 => accept (fld w 5 6 == 0 && fld w 21 5 == 0) (.tgath (bits w 16 5) (bits w 11 5))
  | 1 => accept (fld w 5 11 == 0 && fld w 24 2 == 0) (.tldk (bits w 21 3) (bits w 16 5))
  | 2 => accept (fld w 5 19 == 0) (.tzero (bits w 24 2))
  | 3 => accept (fld w 9 7 == 0 && fld w 21 3 == 0) (.tst (bits w 24 2) (bits w 16 5) (bits w 5 4))
  | 4 => accept (fld w 5 6 == 0 && fld w 21 3 == 0) (.trd (bits w 24 2) (bits w 16 5) (bits w 11 5))
  | 5 => accept (fld w 5 11 == 0 && fld w 21 3 == 0) (.taccr (bits w 24 2) (bits w 16 5))
  | 6 => accept (fld w 5 11 == 0 && fld w 21 5 == 0) (.tseq (bits w 16 5))
  | _ => .error .reservedFunction

/-- Major 0x28: TMMA (R42). -/
def decodeMajor28 (w : Nat) : Except Reject Instr :=
  accept (fld w 0 11 == 0) (.tmma (bits w 24 2) (bits w 21 3) (bits w 16 5) (bits w 11 5))

/-- Major 0x29: FENCE, BARARR, BARWT, EVLD … (R42). -/
def decodeMajor29 (w : Nat) : Except Reject Instr :=
  match fld w 0 5 with
  | 0 => accept (fld w 7 6 == 0 && fld w 16 10 == 0) (.fence (bits w 13 3) (bits w 5 2))
  | 1 => accept (fld w 5 1 == 0 && fld w 7 6 == 0) (.bararr (bits w 21 5) (bits w 16 5) (bits w 13 3) (bits w 6 1))
  | 2 => accept (fld w 5 8 == 0) (.barwt (bits w 21 5) (bits w 16 5) (bits w 13 3))
  | 3 => accept (fld w 5 11 == 0) (.evld (bits w 21 5) (bits w 16 5))
  | 4 => accept (fld w 5 11 == 0) (.evsig (bits w 21 5) (bits w 16 5))
  | _ => .error .reservedFunction

/-- Major 0x2A: DSBIND, SEND, SENDT, PUT … (R42). -/
def decodeMajor2A (w : Nat) : Except Reject Instr :=
  match fld w 0 3 with
  | 0 => accept (fld w 3 9 == 0) (.dsbind (bits w 22 4) (bits w 17 5) (bits w 12 5))
  | 1 => accept (fld w 5 7 == 0) (.sendMsg (bits w 22 4) (bits w 17 5) (bits w 12 5) (bits w 4 1) (bits w 3 1))
  | 2 => accept (fld w 4 8 == 0) (.sendt (bits w 22 4) (bits w 17 5) (bits w 12 5) (bits w 3 1))
  | 3 => accept (fld w 5 2 == 0) (.putMsg (bits w 22 4) (bits w 17 5) (bits w 12 5) (bits w 7 5) (bits w 4 1) (bits w 3 1))
  | 4 => accept (fld w 3 1 == 0 && fld w 5 2 == 0) (.getMsg (bits w 22 4) (bits w 17 5) (bits w 12 5) (bits w 7 5) (bits w 4 1))
  | 5 => accept (true) (.ramo (bits w 22 4) (bits w 17 5) (bits w 12 5) (bits w 7 5) (bits w 5 2) (bits w 4 1) (bits w 3 1))
  | 6 => accept (fld w 3 4 == 0 && fld w 10 2 == 0 && fld w 22 4 == 0) (.vscacc (bits w 17 5) (bits w 12 5) (bits w 7 3))
  | 7 => accept (fld w 3 23 == 0) (.vscfl)
  | _ => .error .reservedFunction

/-- Major 0x2B: BALW (R42). -/
def decodeMajor2B (w : Nat) : Except Reject Instr :=
  accept (true) (.balw (bits w 22 4) (bits w 17 5) (bits w 0 17))

/-- Major 0x2C: SEALA, SEALW (R42). -/
def decodeMajor2C (w : Nat) : Except Reject Instr :=
  match fld w 0 13 with
  | 0 => accept (fld w 13 13 == 0) (.seala)
  | 1 => accept (fld w 13 13 == 0) (.sealw)
  | _ => .error .reservedFunction

/-- Major 0x2D: SPAWN, START, END, YIELD … (R42). -/
def decodeMajor2D (w : Nat) : Except Reject Instr :=
  match fld w 0 13 with
  | 0 => accept (fld w 13 3 == 0 && fld w 21 5 == 0) (.spawn (bits w 16 5))
  | 1 => accept (fld w 13 3 == 0) (.start (bits w 21 5) (bits w 16 5))
  | 2 => accept (fld w 13 13 == 0) (.endThread)
  | 3 => accept (fld w 13 13 == 0) (.yield)
  | 4 => accept (fld w 13 3 == 0 && fld w 21 5 == 0) (.wfe (bits w 16 5))
  | _ => .error .reservedFunction

/-- Major 0x2E: ECALL, ERET, CSRR, CSRW … (R42). -/
def decodeMajor2E (w : Nat) : Except Reject Instr :=
  match fld w 0 4 with
  | 0 => accept (fld w 16 10 == 0) (.ecall (bits w 4 12))
  | 1 => accept (fld w 4 22 == 0) (.eret)
  | 2 => accept (fld w 16 5 == 0) (.csrr (bits w 21 5) (bits w 4 12))
  | 3 => accept (true) (.csrw (bits w 21 5) (bits w 16 5) (bits w 4 12))
  | 4 => accept (true) (.csrs (bits w 21 5) (bits w 16 5) (bits w 4 12))
  | 5 => accept (true) (.csrc (bits w 21 5) (bits w 16 5) (bits w 4 12))
  | 6 =>
    match fld w 4 12 with
    | 0 => accept (fld w 21 5 == 0) (.tlbi (bits w 16 5))
    | 1 => accept (fld w 16 10 == 0) (.tlbiAll)
    | _ => .error .mustBeZero
  | 7 => accept (fld w 4 22 == 0) (.rcommit)
  | 8 => accept (fld w 4 12 == 0 && fld w 21 5 == 0) (.bist (bits w 16 5))
  | 9 => accept (fld w 16 10 == 0) (.brk (bits w 4 12))
  | 10 =>
    match fld w 4 12 with
    | 0 => accept (fld w 21 5 == 0) (.trcmkStart (bits w 16 5))
    | 1 => accept (fld w 21 5 == 0) (.trcmkStop (bits w 16 5))
    | _ => .error .mustBeZero
  | _ => .error .reservedFunction

/-- Decoding by major opcode (R42), on the word as a number. -/
def decodeNat (w : Nat) : Except Reject Instr :=
  match fld w 26 6 with
  | 0 => .error .zeroMajor
  | 1 => decodeMajor01 w
  | 2 => decodeMajor02 w
  | 3 => decodeMajor03 w
  | 4 => decodeMajor04 w
  | 5 => decodeMajor05 w
  | 6 => decodeMajor06 w
  | 7 => decodeMajor07 w
  | 8 => decodeMajor08 w
  | 9 => decodeMajor09 w
  | 10 => decodeMajor0A w
  | 11 => decodeMajor0B w
  | 12 => decodeMajor0C w
  | 13 => decodeMajor0D w
  | 14 => decodeMajor0E w
  | 15 => decodeMajor0F w
  | 16 => decodeMajor10 w
  | 17 => decodeMajor11 w
  | 18 => decodeMajor12 w
  | 19 => decodeMajor13 w
  | 20 => decodeMajor14 w
  | 21 => decodeMajor15 w
  | 22 => decodeMajor16 w
  | 23 => decodeMajor17 w
  | 24 => decodeMajor18 w
  | 25 => decodeMajor19 w
  | 26 => decodeMajor1A w
  | 27 => decodeMajor1B w
  | 28 => decodeMajor1C w
  | 29 => decodeMajor1D w
  | 30 => decodeMajor1E w
  | 31 => decodeMajor1F w
  | 32 => decodeMajor20 w
  | 33 => decodeMajor21 w
  | 34 => decodeMajor22 w
  | 35 => decodeMajor23 w
  | 36 => decodeMajor24 w
  | 37 => decodeMajor25 w
  | 38 => decodeMajor26 w
  | 39 => decodeMajor27 w
  | 40 => decodeMajor28 w
  | 41 => decodeMajor29 w
  | 42 => decodeMajor2A w
  | 43 => decodeMajor2B w
  | 44 => decodeMajor2C w
  | 45 => decodeMajor2D w
  | 46 => decodeMajor2E w
  | 63 => .error .undefinedMajor
  | _ => .error .reservedMajor

/-- Decoding a word (R37, R40). -/
def decode (w : BitVec 32) : Except Reject Instr := decodeNat w.toNat

/-- The word of an instruction as a number, from the formats and function values of R38-R53; `none` for an event. -/
def encodeNat : Instr → Option Nat
  | .add d a b => some (67108864 + d.toNat * 2097152 + a.toNat * 65536 + b.toNat * 2048)
  | .sub d a b => some (67108865 + d.toNat * 2097152 + a.toNat * 65536 + b.toNat * 2048)
  | .andR d a b => some (67108866 + d.toNat * 2097152 + a.toNat * 65536 + b.toNat * 2048)
  | .orR d a b => some (67108867 + d.toNat * 2097152 + a.toNat * 65536 + b.toNat * 2048)
  | .xorR d a b => some (67108868 + d.toNat * 2097152 + a.toNat * 65536 + b.toNat * 2048)
  | .andn d a b => some (67108869 + d.toNat * 2097152 + a.toNat * 65536 + b.toNat * 2048)
  | .sll d a b => some (67108870 + d.toNat * 2097152 + a.toNat * 65536 + b.toNat * 2048)
  | .srl d a b => some (67108871 + d.toNat * 2097152 + a.toNat * 65536 + b.toNat * 2048)
  | .sra d a b => some (67108872 + d.toNat * 2097152 + a.toNat * 65536 + b.toNat * 2048)
  | .slt d a b => some (67108873 + d.toNat * 2097152 + a.toNat * 65536 + b.toNat * 2048)
  | .sltu d a b => some (67108874 + d.toNat * 2097152 + a.toNat * 65536 + b.toNat * 2048)
  | .minS d a b => some (67108875 + d.toNat * 2097152 + a.toNat * 65536 + b.toNat * 2048)
  | .maxS d a b => some (67108876 + d.toNat * 2097152 + a.toNat * 65536 + b.toNat * 2048)
  | .minu d a b => some (67108877 + d.toNat * 2097152 + a.toNat * 65536 + b.toNat * 2048)
  | .maxu d a b => some (67108878 + d.toNat * 2097152 + a.toNat * 65536 + b.toNat * 2048)
  | .mul d a b => some (67108880 + d.toNat * 2097152 + a.toNat * 65536 + b.toNat * 2048)
  | .mulh d a b => some (67108881 + d.toNat * 2097152 + a.toNat * 65536 + b.toNat * 2048)
  | .mulhu d a b => some (67108882 + d.toNat * 2097152 + a.toNat * 65536 + b.toNat * 2048)
  | .div d a b => some (67108883 + d.toNat * 2097152 + a.toNat * 65536 + b.toNat * 2048)
  | .divu d a b => some (67108884 + d.toNat * 2097152 + a.toNat * 65536 + b.toNat * 2048)
  | .rem d a b => some (67108885 + d.toNat * 2097152 + a.toNat * 65536 + b.toNat * 2048)
  | .remu d a b => some (67108886 + d.toNat * 2097152 + a.toNat * 65536 + b.toNat * 2048)
  | .clz d a => some (67108888 + d.toNat * 2097152 + a.toNat * 65536)
  | .ctz d a => some (67108889 + d.toNat * 2097152 + a.toNat * 65536)
  | .popc d a => some (67108890 + d.toNat * 2097152 + a.toNat * 65536)
  | .sxb d a => some (67108892 + d.toNat * 2097152 + a.toNat * 65536)
  | .sxh d a => some (67108893 + d.toNat * 2097152 + a.toNat * 65536)
  | .sxw d a => some (67108894 + d.toNat * 2097152 + a.toNat * 65536)
  | .zxw d a => some (67108895 + d.toNat * 2097152 + a.toNat * 65536)
  | .sel d a b c => some (67108896 + d.toNat * 2097152 + a.toNat * 65536 + b.toNat * 2048 + c.toNat * 64)
  | .addi d a imm => some (134217728 + d.toNat * 2097152 + a.toNat * 65536 + imm.toNat)
  | .andi d a imm => some (201326592 + d.toNat * 2097152 + a.toNat * 65536 + imm.toNat)
  | .ori d a imm => some (268435456 + d.toNat * 2097152 + a.toNat * 65536 + imm.toNat)
  | .xori d a imm => some (335544320 + d.toNat * 2097152 + a.toNat * 65536 + imm.toNat)
  | .slti d a imm => some (402653184 + d.toNat * 2097152 + a.toNat * 65536 + imm.toNat)
  | .sltiu d a imm => some (469762048 + d.toNat * 2097152 + a.toNat * 65536 + imm.toNat)
  | .slli d a n => some (536870912 + d.toNat * 2097152 + a.toNat * 65536 + n.toNat)
  | .srli d a n => some (536870976 + d.toNat * 2097152 + a.toNat * 65536 + n.toNat)
  | .srai d a n => some (536871040 + d.toNat * 2097152 + a.toNat * 65536 + n.toNat)
  | .liz d hw sx imm => some (603979776 + d.toNat * 2097152 + hw.toNat * 524288 + sx.toNat * 262144 + imm.toNat)
  | .lik d hw imm => some (671088640 + d.toNat * 2097152 + hw.toNat * 524288 + imm.toNat)
  | .addpc d off => some (738197504 + d.toNat * 2097152 + off.toNat)
  | .beq a b off => some (805306368 + a.toNat * 2097152 + b.toNat * 65536 + off.toNat)
  | .bne a b off => some (872415232 + a.toNat * 2097152 + b.toNat * 65536 + off.toNat)
  | .blt a b off => some (939524096 + a.toNat * 2097152 + b.toNat * 65536 + off.toNat)
  | .bge a b off => some (1006632960 + a.toNat * 2097152 + b.toNat * 65536 + off.toNat)
  | .bltu a b off => some (1073741824 + a.toNat * 2097152 + b.toNat * 65536 + off.toNat)
  | .bgeu a b off => some (1140850688 + a.toNat * 2097152 + b.toNat * 65536 + off.toNat)
  | .jal d off => some (1207959552 + d.toNat * 2097152 + off.toNat)
  | .jalr d a imm => some (1275068416 + d.toNat * 2097152 + a.toNat * 65536 + imm.toNat)
  | .ldb d base off => some (1342177280 + d.toNat * 2097152 + base.toNat * 65536 + off.toNat)
  | .ldbu d base off => some (1342185472 + d.toNat * 2097152 + base.toNat * 65536 + off.toNat)
  | .ldh d base off => some (1342193664 + d.toNat * 2097152 + base.toNat * 65536 + off.toNat)
  | .ldhu d base off => some (1342201856 + d.toNat * 2097152 + base.toNat * 65536 + off.toNat)
  | .ldw d base off => some (1342210048 + d.toNat * 2097152 + base.toNat * 65536 + off.toNat)
  | .ldwu d base off => some (1342218240 + d.toNat * 2097152 + base.toNat * 65536 + off.toNat)
  | .ldd d base off => some (1342226432 + d.toNat * 2097152 + base.toNat * 65536 + off.toNat)
  | .stb d base off => some (1409286144 + d.toNat * 2097152 + base.toNat * 65536 + off.toNat)
  | .sth d base off => some (1409294336 + d.toNat * 2097152 + base.toNat * 65536 + off.toNat)
  | .stw d base off => some (1409302528 + d.toNat * 2097152 + base.toNat * 65536 + off.toNat)
  | .std d base off => some (1409310720 + d.toNat * 2097152 + base.toNat * 65536 + off.toNat)
  | .amoadd d a b sc ord w => some (1476395008 + d.toNat * 2097152 + a.toNat * 65536 + b.toNat * 2048 + sc.toNat * 256 + ord.toNat * 64 + w.toNat * 32)
  | .amoand d a b sc ord w => some (1476395009 + d.toNat * 2097152 + a.toNat * 65536 + b.toNat * 2048 + sc.toNat * 256 + ord.toNat * 64 + w.toNat * 32)
  | .amoor d a b sc ord w => some (1476395010 + d.toNat * 2097152 + a.toNat * 65536 + b.toNat * 2048 + sc.toNat * 256 + ord.toNat * 64 + w.toNat * 32)
  | .amoxor d a b sc ord w => some (1476395011 + d.toNat * 2097152 + a.toNat * 65536 + b.toNat * 2048 + sc.toNat * 256 + ord.toNat * 64 + w.toNat * 32)
  | .amomin d a b sc ord w => some (1476395012 + d.toNat * 2097152 + a.toNat * 65536 + b.toNat * 2048 + sc.toNat * 256 + ord.toNat * 64 + w.toNat * 32)
  | .amomax d a b sc ord w => some (1476395013 + d.toNat * 2097152 + a.toNat * 65536 + b.toNat * 2048 + sc.toNat * 256 + ord.toNat * 64 + w.toNat * 32)
  | .amominu d a b sc ord w => some (1476395014 + d.toNat * 2097152 + a.toNat * 65536 + b.toNat * 2048 + sc.toNat * 256 + ord.toNat * 64 + w.toNat * 32)
  | .amomaxu d a b sc ord w => some (1476395015 + d.toNat * 2097152 + a.toNat * 65536 + b.toNat * 2048 + sc.toNat * 256 + ord.toNat * 64 + w.toNat * 32)
  | .amoswap d a b sc ord w => some (1476395016 + d.toNat * 2097152 + a.toNat * 65536 + b.toNat * 2048 + sc.toNat * 256 + ord.toNat * 64 + w.toNat * 32)
  | .amocas d a b sc ord w => some (1476395017 + d.toNat * 2097152 + a.toNat * 65536 + b.toNat * 2048 + sc.toNat * 256 + ord.toNat * 64 + w.toNat * 32)
  | .famoFadd d a b sc ord => some (1543503872 + d.toNat * 2097152 + a.toNat * 65536 + b.toNat * 2048 + sc.toNat * 256 + ord.toNat * 64)
  | .famoFmin d a b sc ord => some (1543503873 + d.toNat * 2097152 + a.toNat * 65536 + b.toNat * 2048 + sc.toNat * 256 + ord.toNat * 64)
  | .famoFmax d a b sc ord => some (1543503874 + d.toNat * 2097152 + a.toNat * 65536 + b.toNat * 2048 + sc.toNat * 256 + ord.toNat * 64)
  | .vsetl d a => some (1610612736 + d.toNat * 2097152 + a.toNat * 65536)
  | .vcfg d tag => some (1610612737 + d.toNat * 2097152 + tag.toNat * 2048)
  | .vsync => some (1610612738)
  | .vadd d a b km sv => some (1677721600 + d.toNat * 2097152 + a.toNat * 65536 + b.toNat * 2048 + km.toNat * 256 + sv.toNat * 128)
  | .vsub d a b km sv => some (1677721601 + d.toNat * 2097152 + a.toNat * 65536 + b.toNat * 2048 + km.toNat * 256 + sv.toNat * 128)
  | .vmul d a b km sv => some (1677721602 + d.toNat * 2097152 + a.toNat * 65536 + b.toNat * 2048 + km.toNat * 256 + sv.toNat * 128)
  | .vfma d a b km sv => some (1677721603 + d.toNat * 2097152 + a.toNat * 65536 + b.toNat * 2048 + km.toNat * 256 + sv.toNat * 128)
  | .vmulh d a b km sv => some (1677721604 + d.toNat * 2097152 + a.toNat * 65536 + b.toNat * 2048 + km.toNat * 256 + sv.toNat * 128)
  | .vadds d a b km sv => some (1677721605 + d.toNat * 2097152 + a.toNat * 65536 + b.toNat * 2048 + km.toNat * 256 + sv.toNat * 128)
  | .vsubs d a b km sv => some (1677721606 + d.toNat * 2097152 + a.toNat * 65536 + b.toNat * 2048 + km.toNat * 256 + sv.toNat * 128)
  | .vmin d a b km sv => some (1677721607 + d.toNat * 2097152 + a.toNat * 65536 + b.toNat * 2048 + km.toNat * 256 + sv.toNat * 128)
  | .vmax d a b km sv => some (1677721608 + d.toNat * 2097152 + a.toNat * 65536 + b.toNat * 2048 + km.toNat * 256 + sv.toNat * 128)
  | .vabs d a km => some (1677721609 + d.toNat * 2097152 + a.toNat * 65536 + km.toNat * 256)
  | .vneg d a km => some (1677721610 + d.toNat * 2097152 + a.toNat * 65536 + km.toNat * 256)
  | .vrcp d a km => some (1677721611 + d.toNat * 2097152 + a.toNat * 65536 + km.toNat * 256)
  | .vrsq d a km => some (1677721612 + d.toNat * 2097152 + a.toNat * 65536 + km.toNat * 256)
  | .vexp2 d a km => some (1677721613 + d.toNat * 2097152 + a.toNat * 65536 + km.toNat * 256)
  | .vlog2 d a km => some (1677721614 + d.toNat * 2097152 + a.toNat * 65536 + km.toNat * 256)
  | .vand d a b km sv => some (1677721615 + d.toNat * 2097152 + a.toNat * 65536 + b.toNat * 2048 + km.toNat * 256 + sv.toNat * 128)
  | .vor d a b km sv => some (1677721616 + d.toNat * 2097152 + a.toNat * 65536 + b.toNat * 2048 + km.toNat * 256 + sv.toNat * 128)
  | .vxor d a b km sv => some (1677721617 + d.toNat * 2097152 + a.toNat * 65536 + b.toNat * 2048 + km.toNat * 256 + sv.toNat * 128)
  | .vshl d a b km sv => some (1677721618 + d.toNat * 2097152 + a.toNat * 65536 + b.toNat * 2048 + km.toNat * 256 + sv.toNat * 128)
  | .vshr d a b km sv => some (1677721619 + d.toNat * 2097152 + a.toNat * 65536 + b.toNat * 2048 + km.toNat * 256 + sv.toNat * 128)
  | .vceq d a b km sv => some (1744830464 + d.toNat * 2097152 + a.toNat * 65536 + b.toNat * 2048 + km.toNat * 256 + sv.toNat * 128)
  | .vcne d a b km sv => some (1744830465 + d.toNat * 2097152 + a.toNat * 65536 + b.toNat * 2048 + km.toNat * 256 + sv.toNat * 128)
  | .vclt d a b km sv => some (1744830466 + d.toNat * 2097152 + a.toNat * 65536 + b.toNat * 2048 + km.toNat * 256 + sv.toNat * 128)
  | .vcle d a b km sv => some (1744830467 + d.toNat * 2097152 + a.toNat * 65536 + b.toNat * 2048 + km.toNat * 256 + sv.toNat * 128)
  | .vslide1 d b km => some (1811939456 + d.toNat * 2097152 + b.toNat * 2048 + km.toNat * 256)
  | .vslidedn d a b km sv => some (1811939329 + d.toNat * 2097152 + a.toNat * 65536 + b.toNat * 2048 + km.toNat * 256 + sv.toNat * 128)
  | .vslideup d a b km sv => some (1811939330 + d.toNat * 2097152 + a.toNat * 65536 + b.toNat * 2048 + km.toNat * 256 + sv.toNat * 128)
  | .vperm d a b km => some (1811939331 + d.toNat * 2097152 + a.toNat * 65536 + b.toNat * 2048 + km.toNat * 256)
  | .vcmpr d a km => some (1811939332 + d.toNat * 2097152 + a.toNat * 65536 + km.toNat * 256)
  | .vexpd d a km => some (1811939333 + d.toNat * 2097152 + a.toNat * 65536 + km.toNat * 256)
  | .vsel d a b km => some (1811939334 + d.toNat * 2097152 + a.toNat * 65536 + b.toNat * 2048 + km.toNat * 256)
  | .vrsum d a km => some (1879048192 + d.toNat * 2097152 + a.toNat * 65536 + km.toNat * 256)
  | .vrmax d a km => some (1879048193 + d.toNat * 2097152 + a.toNat * 65536 + km.toNat * 256)
  | .vrmin d a km => some (1879048194 + d.toNat * 2097152 + a.toNat * 65536 + km.toNat * 256)
  | .vscan d a km => some (1879048195 + d.toNat * 2097152 + a.toNat * 65536 + km.toNat * 256)
  | .vscanx d a km => some (1879048196 + d.toNat * 2097152 + a.toNat * 65536 + km.toNat * 256)
  | .vcvt d a km tag => some (1946157056 + d.toNat * 2097152 + a.toNat * 65536 + km.toNat * 256 + tag.toNat)
  | .vsplat d tag b km => some (2013266048 + d.toNat * 2097152 + tag.toNat * 65536 + b.toNat * 2048 + km.toNat * 256)
  | .vins d a b => some (2013266049 + d.toNat * 2097152 + a.toNat * 65536 + b.toNat * 2048)
  | .vext d a b => some (2013266050 + d.toNat * 2097152 + a.toNat * 65536 + b.toNat * 2048)
  | .vmv d a km => some (2013265923 + d.toNat * 2097152 + a.toNat * 65536 + km.toNat * 256)
  | .viota d km => some (2013265924 + d.toNat * 2097152 + km.toNat * 256)
  | .kand d a b => some (2080374784 + d.toNat * 2097152 + a.toNat * 65536 + b.toNat * 2048)
  | .kor d a b => some (2080374785 + d.toNat * 2097152 + a.toNat * 65536 + b.toNat * 2048)
  | .kxor d a b => some (2080374786 + d.toNat * 2097152 + a.toNat * 65536 + b.toNat * 2048)
  | .knot d a => some (2080374787 + d.toNat * 2097152 + a.toNat * 65536)
  | .kpop d a => some (2080374788 + d.toNat * 2097152 + a.toNat * 65536)
  | .kff d a => some (2080374789 + d.toNat * 2097152 + a.toNat * 65536)
  | .kmv d a => some (2080374790 + d.toNat * 2097152 + a.toNat * 65536)
  | .vld d base km oo y pol w => some (2147483648 + d.toNat * 2097152 + base.toNat * 65536 + km.toNat * 256 + oo.toNat * 128 + y.toNat * 64 + pol.toNat * 16 + w.toNat * 4)
  | .vlds d base c km oo y pol w => some (2147483649 + d.toNat * 2097152 + base.toNat * 65536 + c.toNat * 2048 + km.toNat * 256 + oo.toNat * 128 + y.toNat * 64 + pol.toNat * 16 + w.toNat * 4)
  | .vldx d base c km oo y pol w => some (2147483650 + d.toNat * 2097152 + base.toNat * 65536 + c.toNat * 2048 + km.toNat * 256 + oo.toNat * 128 + y.toNat * 64 + pol.toNat * 16 + w.toNat * 4)
  | .vst d base km oo y pol w => some (2214592512 + d.toNat * 2097152 + base.toNat * 65536 + km.toNat * 256 + oo.toNat * 128 + y.toNat * 64 + pol.toNat * 16 + w.toNat * 4)
  | .vsts d base c km oo y pol w => some (2214592513 + d.toNat * 2097152 + base.toNat * 65536 + c.toNat * 2048 + km.toNat * 256 + oo.toNat * 128 + y.toNat * 64 + pol.toNat * 16 + w.toNat * 4)
  | .vstx d base c km oo y pol w => some (2214592514 + d.toNat * 2097152 + base.toNat * 65536 + c.toNat * 2048 + km.toNat * 256 + oo.toNat * 128 + y.toNat * 64 + pol.toNat * 16 + w.toNat * 4)
  | .vamoAdd d base c km y pol w => some (2281701384 + d.toNat * 2097152 + base.toNat * 65536 + c.toNat * 2048 + km.toNat * 256 + y.toNat * 64 + pol.toNat * 16 + w.toNat * 4)
  | .vamoMin d base c km y pol w => some (2281701385 + d.toNat * 2097152 + base.toNat * 65536 + c.toNat * 2048 + km.toNat * 256 + y.toNat * 64 + pol.toNat * 16 + w.toNat * 4)
  | .vamoMax d base c km y pol w => some (2281701386 + d.toNat * 2097152 + base.toNat * 65536 + c.toNat * 2048 + km.toNat * 256 + y.toNat * 64 + pol.toNat * 16 + w.toNat * 4)
  | .vamoFadd d base c km y pol => some (2281701387 + d.toNat * 2097152 + base.toNat * 65536 + c.toNat * 2048 + km.toNat * 256 + y.toNat * 64 + pol.toNat * 16)
  | .gcslp d a b km all => some (2348810240 + d.toNat * 2097152 + a.toNat * 65536 + b.toNat * 2048 + km.toNat * 256 + all.toNat)
  | .fork d a b off => some (2415919104 + d.toNat * 2097152 + a.toNat * 65536 + b.toNat * 2048 + off.toNat)
  | .fwd a => some (2415919360 + a.toNat * 65536)
  | .chend => some (2415919616)
  | .join => some (2415919872)
  | .nspec => some (2415920128)
  | .chidx d => some (2415920384 + d.toNat * 2097152)
  | .cpy tag a b c => some (2483027968 + tag.toNat * 1048576 + a.toNat * 32768 + b.toNat * 1024 + c.toNat * 32)
  | .cpy2 tag a b => some (2483027969 + tag.toNat * 1048576 + a.toNat * 32768 + b.toNat * 1024)
  | .wtany a => some (2550136832 + a.toNat * 32768)
  | .wtall a => some (2550136833 + a.toNat * 32768)
  | .ffrdy a c => some (2550136834 + a.toNat * 32768 + c.toNat * 32)
  | .trbclr a => some (2550136835 + a.toNat * 32768)
  | .waitc nl ns nc nt => some (2550136836 + nl.toNat * 1048576 + ns.toNat * 32768 + nc.toNat * 1024 + nt.toNat * 32)
  | .wtml a b => some (2550136837 + a.toNat * 32768 + b.toNat * 1024)
  | .tgath a b => some (2617245696 + a.toNat * 65536 + b.toNat * 2048)
  | .tldk km a => some (2617245697 + km.toNat * 2097152 + a.toNat * 65536)
  | .tzero acc => some (2617245698 + acc.toNat * 16777216)
  | .tst acc a tag => some (2617245699 + acc.toNat * 16777216 + a.toNat * 65536 + tag.toNat * 32)
  | .trd acc a b => some (2617245700 + acc.toNat * 16777216 + a.toNat * 65536 + b.toNat * 2048)
  | .taccr acc a => some (2617245701 + acc.toNat * 16777216 + a.toNat * 65536)
  | .tseq a => some (2617245702 + a.toNat * 65536)
  | .tmma acc km a b => some (2684354560 + acc.toNat * 16777216 + km.toNat * 2097152 + a.toNat * 65536 + b.toNat * 2048)
  | .fence sc ord => some (2751463424 + sc.toNat * 8192 + ord.toNat * 32)
  | .bararr d a sc rel => some (2751463425 + d.toNat * 2097152 + a.toNat * 65536 + sc.toNat * 8192 + rel.toNat * 64)
  | .barwt d a sc => some (2751463426 + d.toNat * 2097152 + a.toNat * 65536 + sc.toNat * 8192)
  | .evld d a => some (2751463427 + d.toNat * 2097152 + a.toNat * 65536)
  | .evsig d a => some (2751463428 + d.toNat * 2097152 + a.toNat * 65536)
  | .dsbind ds a b => some (2818572288 + ds.toNat * 4194304 + a.toNat * 131072 + b.toNat * 4096)
  | .sendMsg ds a b im rel => some (2818572289 + ds.toNat * 4194304 + a.toNat * 131072 + b.toNat * 4096 + im.toNat * 16 + rel.toNat * 8)
  | .sendt ds a b rel => some (2818572290 + ds.toNat * 4194304 + a.toNat * 131072 + b.toNat * 4096 + rel.toNat * 8)
  | .putMsg ds a b c im rel => some (2818572291 + ds.toNat * 4194304 + a.toNat * 131072 + b.toNat * 4096 + c.toNat * 128 + im.toNat * 16 + rel.toNat * 8)
  | .getMsg ds a b c im => some (2818572292 + ds.toNat * 4194304 + a.toNat * 131072 + b.toNat * 4096 + c.toNat * 128 + im.toNat * 16)
  | .ramo ds a b c op im rel => some (2818572293 + ds.toNat * 4194304 + a.toNat * 131072 + b.toNat * 4096 + c.toNat * 128 + op.toNat * 32 + im.toNat * 16 + rel.toNat * 8)
  | .vscacc a b km => some (2818572294 + a.toNat * 131072 + b.toNat * 4096 + km.toNat * 128)
  | .vscfl => some (2818572295)
  | .balw ds a off => some (2885681152 + ds.toNat * 4194304 + a.toNat * 131072 + off.toNat)
  | .seala => some (2952790016)
  | .sealw => some (2952790017)
  | .spawn a => some (3019898880 + a.toNat * 65536)
  | .start d a => some (3019898881 + d.toNat * 2097152 + a.toNat * 65536)
  | .endThread => some (3019898882)
  | .yield => some (3019898883)
  | .wfe a => some (3019898884 + a.toNat * 65536)
  | .ecall csr => some (3087007744 + csr.toNat * 16)
  | .eret => some (3087007745)
  | .csrr d csr => some (3087007746 + d.toNat * 2097152 + csr.toNat * 16)
  | .csrw d a csr => some (3087007747 + d.toNat * 2097152 + a.toNat * 65536 + csr.toNat * 16)
  | .csrs d a csr => some (3087007748 + d.toNat * 2097152 + a.toNat * 65536 + csr.toNat * 16)
  | .csrc d a csr => some (3087007749 + d.toNat * 2097152 + a.toNat * 65536 + csr.toNat * 16)
  | .tlbi a => some (3087007750 + a.toNat * 65536)
  | .tlbiAll => some (3087007766)
  | .rcommit => some (3087007751)
  | .bist a => some (3087007752 + a.toNat * 65536)
  | .brk csr => some (3087007753 + csr.toNat * 16)
  | .trcmkStart a => some (3087007754 + a.toNat * 65536)
  | .trcmkStop a => some (3087007770 + a.toNat * 65536)
  | .interruptEntry _ => none
  | .ageBoost _ => none
  | .copyComplete _ _ => none
  | .chunkStart _ _ => none
  | .versionRequest _ _ => none
  | .storeNotice _ => none
  | .forwardArrival _ => none
  | .conflictingWrite _ _ => none
  | .unpick _ _ _ => none
  | .l1WayReclaim _ _ => none
  | .chunkOldest _ => none
  | .tileOpStart _ => none
  | .tileOpComplete _ => none
  | .taccrReadServe _ => none
  | .evuWait _ => none
  | .evuTake _ => none
  | .evuDrain _ => none
  | .evuPeek _ => none
  | .evuClear _ => none
  | .evuArrive _ => none
  | .evuBarrierWait _ => none
  | .evuPoll _ => none
  | .evuSet _ => none
  | .evuLock _ => none
  | .evuTry _ => none
  | .evuUnlock _ => none
  | .evuOwner _ => none
  | .evsigDeliver _ => none
  | .evuWaitSatisfied _ => none
  | .barrierPhaseComplete _ => none
  | .gcslpWake _ => none
  | .bindReply _ _ => none
  | .ingressPut _ => none
  | .ingressSend _ => none
  | .ingressGet _ => none
  | .ingressRamo _ => none
  | .combiningPair _ => none
  | .combiningFlush _ => none
  | .staleIncarnationDrop _ => none
  | .resetNotice _ _ => none
  | .demand _ _ => none
  | .grant _ _ _ => none
  | .acknowledgement _ _ => none
  | .negativeAcknowledgement _ _ => none
  | .getResponse _ _ => none
  | .retransmissionTimeout _ => none
  | .creditReturn _ _ => none
  | .portXoff _ => none
  | .portXon _ => none
  | .sendtLaunch _ => none
  | .startArrival _ => none
  | .dispatchPlace _ => none
  | .deschedule _ => none
  | .parkedRequeue _ _ => none
  | .frameBoundary => none
  | .regionSweep => none
  | .undoDrain _ => none
  | .traceDrain _ _ => none
  | .tagScrub => none
  | .sealArrive _ => none
  | .sealedDeclare _ => none
  | .sealedApply => none
  | .sealwRelease _ => none
  | .undoPressure _ => none
  | .uncorrectableError _ => none
  | .correctedError _ => none
  | .poisonRead _ _ => none
  | .domainRollback => none
  | .rollbackResume _ => none
  | .gangSwitchBegin _ => none
  | .gangSwitchRestore _ => none
  | .gangSwitchResume _ => none
  | .bistComplete _ _ _ _ => none
  | .thermalTrip _ => none
  | .powerOverCap => none
  | .coolantFault => none
  | .powerOn _ => none
  | .camellRetry _ => none
  | .hostRead _ _ => none
  | .hostWrite _ _ => none
  | .stagingWrite _ _ => none
  | .rcfgWrite _ _ _ => none
  | .rwinWrite _ _ _ _ => none
  | .incAdvance _ _ => none
  | .haltFree _ _ _ => none
  | .reload _ _ => none
  | .barrierDomainConfig _ _ _ => none
  | .domcfgWrite _ => none
  | .rollreq _ => none
  | .dissolve _ => none
  | .go _ => none
  | .gswtArm _ _ => none
  | .gswtCancel _ _ => none
  | .rangePendingWrite _ _ => none
  | .vhwmWrite _ _ _ => none
  | .trclostClear _ _ => none
  | .errlostClear => none
  | .cevalClear _ => none
  | .capwWrite _ => none
  | .moduleReset _ => none
  | .imageLoad _ _ => none
  | .attnonceWrite _ _ => none
  | .attokWrite _ => none
  | .dcrWrite _ _ => none
  | .illegalInstruction _ => none
  | .accessPerformed _ => none
  | .vectorInstructionComplete _ => none
  | .thermChange _ _ _ => none

/-- The 32-bit word of an instruction; `none` for an event, which has none. -/
def encode (i : Instr) : Option (BitVec 32) := (encodeNat i).map (BitVec.ofNat 32)

/-- A word as the ISTORE holds it: four bytes, the least significant at the lowest address (R2, R37). -/
def wordBytes (w : BitVec 32) : List Byte := [w.setWidth 8, (w >>> 8).setWidth 8, (w >>> 16).setWidth 8, (w >>> 24).setWidth 8]

/-- The word held by four bytes, the first at the lowest address. -/
def wordOfBytes (b0 b1 b2 b3 : Byte) : BitVec 32 := b3 ++ b2 ++ b1 ++ b0

/-- The instruction read from a table row's bits: every row is one 32-bit word, laid out in bytes as the ISTORE holds it. -/
def decodeTableWord (nbits w : Nat) : Option Instr :=
  if nbits = 32 then
    match wordBytes (BitVec.ofNat 32 w) with
    | [b0, b1, b2, b3] => (decode (wordOfBytes b0 b1 b2 b3)).toOption
    | _ => none
  else none

end Sys2Proof
end

