-- ==== Sys2Proof/Config.lean ====
section
/-! DEFINITION. What the spec leaves to the implementation or leaves open: opaque constants without a body, so that
nothing can be proved about their values (notes/assumptions 14, 15, 16). -/

namespace Sys2Proof.Config

/-- The per-core quantum that the management processor derives from the module cap in watts (R348, R391). -/
opaque quantumOf : BitVec 13 → Nat

/-- The n-th free value drawn by the run: an ECC syndrome, a cycle-counting PMC after timing the model leaves out. -/
opaque freeValue : Nat → BitVec 64

/-- The spare rows of a DRAM pseudo-channel at module reset (R390). -/
opaque spareRows : BitVec 16

end Sys2Proof.Config
end

