-- ==== Sys2Proof/Machine/Flags.lean ====
section
/-! DEFINITION. Number formats, rounding and the sticky flags (03_number_formats.md R64-R84): integers, FP32, FP16, BF16
and LNS8. A finite value is held exactly as an integer times a power of two and rounded once (R67). -/

namespace Sys2Proof.Machine

/-- The six sticky flags of FFLG and VFLG in their bit positions (R70): NX 0, UF 1, OF 2, DZ 3, NV 4, SA 5. -/
abbrev Flags := BitVec 6

def Flags.none : Flags := 0
def Flags.nx : Flags := 1
def Flags.uf : Flags := 2
def Flags.of : Flags := 4
def Flags.dz : Flags := 8
def Flags.nv : Flags := 16
def Flags.sa : Flags := 32

/-- A flag when a condition holds. -/
def Flags.when (c : Bool) (f : Flags) : Flags := if c then f else Flags.none

/-! ## Integer helpers -/

/-- The low `bits` bits of an integer in two's complement, as a number. -/
def wrapInt (bits : Nat) (v : Int) : Nat := (v % (2 ^ bits : Nat)).toNat

/-- A `bits`-bit pattern read as a signed number. -/
def signedOf (bits n : Nat) : Int := if n % 2 ^ bits < 2 ^ (bits - 1) then (n % 2 ^ bits : Nat) else (n % 2 ^ bits : Nat) - (2 ^ bits : Nat)

/-- An exact value kept if it fits the integer target, otherwise saturated with `f` (R65). -/
def saturate (signed : Bool) (bits : Nat) (v : Int) (f : Flags) : Nat × Flags :=
  let lo : Int := if signed then -(2 ^ (bits - 1) : Nat) else 0
  let hi : Int := if signed then (2 ^ (bits - 1) : Nat) - 1 else (2 ^ bits : Nat) - 1
  if v < lo then (wrapInt bits lo, f) else if hi < v then (wrapInt bits hi, f) else (wrapInt bits v, Flags.none)

/-- The largest `r` with `r * r ≤ n`, bit by bit from `2 ^ k`. -/
def isqrtBits (n : Nat) : Nat → Nat → Nat
  | 0, r => r
  | k + 1, r => if (r + 2 ^ k) * (r + 2 ^ k) ≤ n then isqrtBits n k (r + 2 ^ k) else isqrtBits n k r

def isqrt (n : Nat) : Nat := isqrtBits n (Nat.log2 n / 2 + 1) 0

/-! ## Exact values -/

/-- `n × 2 ^ e`, exactly. -/
structure Dyadic where
  n : Int
  e : Int
deriving DecidableEq, Repr

def Dyadic.zero : Dyadic := ⟨0, 0⟩

def Dyadic.add (a b : Dyadic) : Dyadic :=
  if a.e ≤ b.e then ⟨a.n + b.n * (2 ^ (b.e - a.e).toNat : Nat), a.e⟩ else ⟨a.n * (2 ^ (a.e - b.e).toNat : Nat) + b.n, b.e⟩

def Dyadic.mul (a b : Dyadic) : Dyadic := ⟨a.n * b.n, a.e + b.e⟩

/-- `a < b` on exact values. -/
def Dyadic.lt (a b : Dyadic) : Bool := (Dyadic.add b ⟨-a.n, a.e⟩).n > 0

/-- The rounding modes of FRM (R68). -/
inductive Rounding where
  | rne | rtz | rdn | rup | rmm
deriving DecidableEq, Repr

def Rounding.ofFrm (rm : BitVec 3) : Rounding :=
  match rm.toNat with
  | 1 => .rtz
  | 2 => .rdn
  | 3 => .rup
  | 4 => .rmm
  | _ => .rne

/-- Whether the discarded part `rem / full` of a magnitude whose kept part is `kept` rounds the magnitude up (R68). -/
def Rounding.up (rm : Rounding) (neg : Bool) (kept rem full : Nat) : Bool :=
  match rm with
  | .rne => decide (2 * rem > full) || (decide (2 * rem = full) && decide (kept % 2 = 1))
  | .rtz => false
  | .rdn => neg && decide (rem ≠ 0)
  | .rup => !neg && decide (rem ≠ 0)
  | .rmm => decide (2 * rem ≥ full) && decide (rem ≠ 0)

/-! ## Binary floating-point formats -/

/-- A binary format of R66: exponent bits, fraction bits; the bias is `2 ^ (exp - 1) - 1`. -/
structure Fmt where
  exp  : Nat
  frac : Nat
deriving DecidableEq, Repr

def fp32 : Fmt := ⟨8, 23⟩
def fp16 : Fmt := ⟨5, 10⟩
def bf16 : Fmt := ⟨8, 7⟩

def Fmt.bias (f : Fmt) : Nat := 2 ^ (f.exp - 1) - 1
def Fmt.signBit (f : Fmt) (neg : Bool) : Nat := if neg then 2 ^ (f.exp + f.frac) else 0
def Fmt.inf (f : Fmt) (neg : Bool) : Nat := f.signBit neg + (2 ^ f.exp - 1) * 2 ^ f.frac
def Fmt.maxFinite (f : Fmt) (neg : Bool) : Nat := f.inf neg - 1
/-- The canonical quiet NaN of R72. -/
def Fmt.qnan (f : Fmt) : Nat := f.inf false + 2 ^ (f.frac - 1)

/-- A floating-point datum: a NaN with its fraction left-aligned to 23 bits (so that widening pads and narrowing keeps
the most significant bits, R72), an infinity, or a finite value `± m × 2 ^ e`. -/
inductive FVal where
  | nan (neg : Bool) (frac : Nat)
  | inf (neg : Bool)
  | fin (neg : Bool) (m : Nat) (e : Int)
deriving DecidableEq, Repr

def FVal.neg : FVal → Bool
  | .nan n _ => n
  | .inf n => n
  | .fin n _ _ => n

def FVal.isNan : FVal → Bool
  | .nan _ _ => true
  | .inf _ => false
  | .fin _ _ _ => false

def FVal.isSignalling : FVal → Bool
  | .nan _ f => decide (f / 2 ^ 22 % 2 = 0)
  | .inf _ => false
  | .fin _ _ _ => false

def FVal.isZero : FVal → Bool
  | .fin _ m _ => m == 0
  | .nan _ _ => false
  | .inf _ => false

def FVal.isInf : FVal → Bool
  | .inf _ => true
  | .nan _ _ => false
  | .fin _ _ _ => false

/-- The exact value of a finite datum; zero otherwise. -/
def FVal.dyadic : FVal → Dyadic
  | .fin neg m e => ⟨if neg then -(m : Int) else m, e⟩
  | .nan _ _ => Dyadic.zero
  | .inf _ => Dyadic.zero

/-- Reading a bit pattern (R66). Subnormals are kept. -/
def Fmt.read (f : Fmt) (bits : Nat) : FVal :=
  let neg := decide (bits / 2 ^ (f.exp + f.frac) % 2 = 1)
  let ex := bits / 2 ^ f.frac % 2 ^ f.exp
  let fr := bits % 2 ^ f.frac
  if ex = 2 ^ f.exp - 1 then (if fr = 0 then .inf neg else .nan neg (fr * 2 ^ (23 - f.frac)))
  else if ex = 0 then .fin neg fr (1 - (f.bias : Int) - f.frac)
  else .fin neg (2 ^ f.frac + fr) ((ex : Int) - f.bias - f.frac)

/-- A NaN made quiet in the format, keeping sign and the payload's most significant bits (R72). -/
def Fmt.quiet (f : Fmt) (neg : Bool) (frac : Nat) : Nat :=
  f.signBit neg + (2 ^ f.exp - 1) * 2 ^ f.frac + (2 ^ (f.frac - 1) + frac / 2 ^ (23 - f.frac) % 2 ^ (f.frac - 1))

/-- The nonzero magnitude `m × 2 ^ e` (a little more, when `sticky`) rounded once to the format (R67, R69): the bit
pattern and the flags NX, UF, OF. Tininess is judged after rounding. -/
def Fmt.round (f : Fmt) (rm : Rounding) (neg : Bool) (m0 : Nat) (e0 : Int) (sticky : Bool) : Nat × Flags :=
  let m := 4 * m0 + (if sticky then 1 else 0)
  let e := e0 - 2
  let top : Int := e + (Nat.log2 m : Int)
  let emin : Int := 1 - (f.bias : Int)
  let cut (q : Int) : Nat × Bool :=
    if q ≤ e then (m * 2 ^ (e - q).toNat, false)
    else
      let full := 2 ^ (q - e).toNat
      let kept := m / full
      (if rm.up neg kept (m % full) full then kept + 1 else kept, decide (m % full ≠ 0))
  let q := max (top - f.frac) (emin - f.frac)
  let (mant, inexact) := cut q
  let tiny := decide (top < emin) && !(decide (top = emin - 1) && decide ((cut (top - f.frac)).1 = 2 ^ (f.frac + 1)))
  let body := if mant < 2 ^ f.frac then mant else ((q + f.frac + f.bias).toNat - 1) * 2 ^ f.frac + mant
  if body ≥ (2 ^ f.exp - 1) * 2 ^ f.frac then
    let toInf := match rm with
      | .rne => true
      | .rmm => true
      | .rtz => false
      | .rdn => neg
      | .rup => !neg
    (if toInf then f.inf neg else f.maxFinite neg, Flags.of ||| Flags.nx)
  else (f.signBit neg + body, Flags.when inexact Flags.nx ||| Flags.when (tiny && inexact) Flags.uf)

/-- An exact value rounded once; `zeroNeg` is the sign an exact zero takes. -/
def Fmt.roundDyadic (f : Fmt) (rm : Rounding) (d : Dyadic) (zeroNeg : Bool) : Nat × Flags :=
  if d.n = 0 then (f.signBit zeroNeg, Flags.none) else f.round rm (decide (d.n < 0)) d.n.natAbs d.e false

/-- A datum written in the format, rounding once, a NaN made quiet (R72). -/
def Fmt.write (f : Fmt) (rm : Rounding) : FVal → Nat × Flags
  | .nan neg frac => (f.quiet neg frac, Flags.none)
  | .inf neg => (f.inf neg, Flags.none)
  | .fin neg m e => f.roundDyadic rm ⟨if neg then -(m : Int) else m, e⟩ neg

/-- NV for every signalling operand (R72). -/
def nvOfSignalling (xs : List FVal) : Flags := Flags.when (xs.any FVal.isSignalling) Flags.nv

/-- The first NaN of the operands in the order of R72, made quiet. -/
def Fmt.firstNan (f : Fmt) : List FVal → Option Nat
  | [] => none
  | .nan neg frac :: _ => some (f.quiet neg frac)
  | .inf _ :: xs => f.firstNan xs
  | .fin _ _ _ :: xs => f.firstNan xs

/-- The sign of an exact zero sum of two terms of signs `a` and `b` under IEEE addition. -/
def zeroSumNeg (rm : Rounding) (a b : Bool) : Bool := if a == b then a else decide (rm = .rdn)

/-- `x × y + z` with one rounding (R67, R72). -/
def Fmt.fma (f : Fmt) (rm : Rounding) (x y z : FVal) : Nat × Flags :=
  let nv := nvOfSignalling [x, y, z]
  let pneg := x.neg != y.neg
  if (x.isZero && y.isInf) || (x.isInf && y.isZero) then (f.qnan, Flags.nv)
  else match f.firstNan [x, y, z] with
    | some r => (r, nv)
    | none =>
      if x.isInf || y.isInf then
        (if z.isInf && z.neg != pneg then (f.qnan, Flags.nv) else (f.inf pneg, Flags.none))
      else if z.isInf then (f.inf z.neg, Flags.none)
      else f.roundDyadic rm ((x.dyadic.mul y.dyadic).add z.dyadic) (zeroSumNeg rm pneg z.neg)

/-- `x × y` with one rounding. -/
def Fmt.mul (f : Fmt) (rm : Rounding) (x y : FVal) : Nat × Flags :=
  let pneg := x.neg != y.neg
  if (x.isZero && y.isInf) || (x.isInf && y.isZero) then (f.qnan, Flags.nv)
  else match f.firstNan [x, y] with
    | some r => (r, nvOfSignalling [x, y])
    | none =>
      if x.isInf || y.isInf then (f.inf pneg, Flags.none)
      else f.roundDyadic rm (x.dyadic.mul y.dyadic) pneg

/-- `x + y` with one rounding. -/
def Fmt.add (f : Fmt) (rm : Rounding) (x y : FVal) : Nat × Flags :=
  match f.firstNan [x, y] with
  | some r => (r, nvOfSignalling [x, y])
  | none =>
    if x.isInf && y.isInf && x.neg != y.neg then (f.qnan, Flags.nv)
    else if x.isInf then (f.inf x.neg, Flags.none)
    else if y.isInf then (f.inf y.neg, Flags.none)
    else f.roundDyadic rm (x.dyadic.add y.dyadic) (zeroSumNeg rm x.neg y.neg)

def FVal.negate : FVal → FVal
  | .nan neg frac => .nan neg frac
  | .inf neg => .inf (!neg)
  | .fin neg m e => .fin (!neg) m e

/-- `x − y` with one rounding; a NaN operand keeps its sign (R72). -/
def Fmt.sub (f : Fmt) (rm : Rounding) (x y : FVal) : Nat × Flags := f.add rm x y.negate

/-- The order of R73 on numbers: `x` below `y`, with −0 below +0 when `zeros` is set. -/
def FVal.below (zeros : Bool) (x y : FVal) : Bool :=
  match x, y with
  | .nan _ _, _ => false
  | _, .nan _ _ => false
  | .inf a, .inf b => a && !b
  | .inf a, .fin _ _ _ => a
  | .fin _ _ _, .inf b => !b
  | .fin a m e, .fin b n g =>
    if m == 0 && n == 0 then zeros && a && !b
    else Dyadic.lt (FVal.dyadic (.fin a m e)) (FVal.dyadic (.fin b n g))

/-- VMIN, VMAX, FAMO.FMIN and FAMO.FMAX (R73): the other operand when exactly one is a NaN. -/
def Fmt.minMax (f : Fmt) (isMax : Bool) (x y : FVal) : Nat × Flags :=
  let nv := nvOfSignalling [x, y]
  match x.isNan, y.isNan with
  | true, true => ((f.firstNan [x, y]).getD f.qnan, nv)
  | true, false => ((f.write .rne y).1, nv)
  | false, true => ((f.write .rne x).1, nv)
  | false, false =>
    let pickY := if isMax then FVal.below true x y else FVal.below true y x
    ((f.write .rne (if pickY then y else x)).1, Flags.none)

/-- The comparisons of R73. -/
inductive Rel where
  | eq | ne | lt | le
deriving DecidableEq, Repr

def FVal.compare (r : Rel) (x y : FVal) : Bool × Flags :=
  let unordered := x.isNan || y.isNan
  let lt := FVal.below false x y
  let gt := FVal.below false y x
  match r with
  | .eq => (!unordered && !lt && !gt, nvOfSignalling [x, y])
  | .ne => (unordered || lt || gt, nvOfSignalling [x, y])
  | .lt => (!unordered && lt, Flags.when unordered Flags.nv)
  | .le => (!unordered && !gt, Flags.when unordered Flags.nv)

/-! ## The correctly rounded functions of R74 -/

/-- `1 / x`: the quotient to 80 bits beyond the divisor, and a sticky remainder. -/
def Fmt.rcp (f : Fmt) (rm : Rounding) (x : FVal) : Nat × Flags :=
  match x with
  | .nan neg frac => (f.quiet neg frac, nvOfSignalling [x])
  | .inf neg => (f.signBit neg, Flags.none)
  | .fin neg m e =>
    if m = 0 then (f.inf neg, Flags.dz)
    else
      let k := Nat.log2 m + 80
      f.round rm neg (2 ^ k / m) (-(k : Int) - e) (decide (2 ^ k % m ≠ 0))

/-- `1 / √x`. -/
def Fmt.rsq (f : Fmt) (rm : Rounding) (x : FVal) : Nat × Flags :=
  match x with
  | .nan neg frac => (f.quiet neg frac, nvOfSignalling [x])
  | .inf neg => if neg then (f.qnan, Flags.nv) else (0, Flags.none)
  | .fin neg m e =>
    if m = 0 then (f.inf neg, Flags.dz)
    else if neg then (f.qnan, Flags.nv)
    else
      let (m', e') := if e % 2 = 0 then (m, e) else (2 * m, e - 1)
      let k := Nat.log2 m' + 80
      let r := isqrt (2 ^ (2 * k) / m')
      f.round rm false r (-(k : Int) - e' / 2) (decide (r * r * m' ≠ 2 ^ (2 * k)))

/-- Fraction bits of the fixed-point numbers in which VEXP2 and VLOG2 are evaluated before their one rounding. -/
def fixBits : Nat := 320

/-- `⌊2 ^ fixBits × ln 2⌋` to within a few units: the series of `1 / (k 2 ^ k)`. -/
def ln2Series : Nat → Nat
  | 0 => 0
  | k + 1 => ln2Series k + 2 ^ (fixBits - (k + 1)) / (k + 1)

def ln2Fix : Nat := ln2Series (fixBits - 1)

/-- `e ^ y` for a fixed-point `0 ≤ y < 1`, `terms` more terms of the power series after term `k` of value `t`. -/
def expSeries (y : Nat) : Nat → Nat → Nat → Nat
  | 0, _, _ => 0
  | terms + 1, k, t => t + expSeries y terms (k + 1) (t * y / 2 ^ fixBits / (k + 1))

/-- `2 ^ (fr / 2 ^ fixBits)` in fixed point, for a fraction below 1. -/
def exp2Fix (fr : Nat) : Nat := expSeries (fr * ln2Fix / 2 ^ fixBits) 90 0 (2 ^ fixBits)

/-- `2 ^ x` (R74). A non-integer power is irrational, so its value always has a sticky remainder. -/
def Fmt.exp2 (f : Fmt) (rm : Rounding) (x : FVal) : Nat × Flags :=
  match x with
  | .nan neg frac => (f.quiet neg frac, nvOfSignalling [x])
  | .inf neg => if neg then (0, Flags.none) else (f.inf false, Flags.none)
  | .fin neg m e =>
    if m = 0 then f.round rm false 1 0 false
    else if decide (e + (Nat.log2 m : Int) ≥ 9) then f.round rm false 1 (if neg then -512 else 512) false
    else
      let v : Int := (if neg then -(m : Int) else m)
      let fixed : Int := v * (2 ^ (e + (fixBits : Int)).toNat : Nat)
      let whole := fixed / (2 ^ fixBits : Nat)
      let fr := (fixed % (2 ^ fixBits : Nat)).toNat
      if fr = 0 then f.round rm false 1 whole false
      else f.round rm false (exp2Fix fr) (whole - fixBits) true

/-- `2 × artanh` of a fixed-point `t`: the odd-power series. -/
def artanhSeries (t2 : Nat) : Nat → Nat → Nat → Nat
  | 0, _, _ => 0
  | terms + 1, k, p => 2 * p / (2 * k + 1) + artanhSeries t2 terms (k + 1) (p * t2 / 2 ^ fixBits)

/-- `log2 (y / 2 ^ fixBits)` in fixed point for `1 ≤ y / 2 ^ fixBits < 2`. -/
def log2Fix (y : Nat) : Nat :=
  let t := (y - 2 ^ fixBits) * 2 ^ fixBits / (y + 2 ^ fixBits)
  artanhSeries (t * t / 2 ^ fixBits) 105 0 t * 2 ^ fixBits / ln2Fix

/-- `log2 x` (R74). -/
def Fmt.log2 (f : Fmt) (rm : Rounding) (x : FVal) : Nat × Flags :=
  match x with
  | .nan neg frac => (f.quiet neg frac, nvOfSignalling [x])
  | .inf neg => if neg then (f.qnan, Flags.nv) else (f.inf false, Flags.none)
  | .fin neg m e =>
    if m = 0 then (f.inf true, Flags.dz)
    else if neg then (f.qnan, Flags.nv)
    else
      let top : Int := e + (Nat.log2 m : Int)
      if m = 2 ^ Nat.log2 m then f.roundDyadic rm ⟨top, 0⟩ false
      else
        let y := m * 2 ^ (fixBits - Nat.log2 m)
        let v : Int := top * (2 ^ fixBits : Nat) + log2Fix y
        if v ≥ 0 then f.round rm false v.natAbs (-(fixBits : Int)) true
        else f.round rm true (v.natAbs - 1) (-(fixBits : Int)) true

/-! ## Sums -/

/-- A sum of data with one rounding (R157): the lowest NaN, else the invalid infinities, else the exact sum. -/
def Fmt.sum (f : Fmt) (rm : Rounding) (xs : List FVal) : Nat × Flags :=
  match xs with
  | [] => (0, Flags.none)
  | x0 :: _ =>
    match f.firstNan xs with
    | some r => (r, nvOfSignalling xs)
    | none =>
      let pos := xs.any (fun x => x.isInf && !x.neg)
      let ngt := xs.any (fun x => x.isInf && x.neg)
      if pos && ngt then (f.qnan, Flags.nv)
      else if pos then (f.inf false, Flags.none)
      else if ngt then (f.inf true, Flags.none)
      else
        let exact := xs.foldl (fun acc x => acc.add x.dyadic) Dyadic.zero
        let zneg := if xs.all (fun x => x.isZero && x.neg == x0.neg) then x0.neg else decide (rm = .rdn)
        f.roundDyadic rm exact zneg

/-! ## Conversions (R75) -/

/-- A datum rounded to an integer and saturated; NaN gives 0; both raise NV, an inexact value NX. -/
def FVal.toInteger (rm : Rounding) (signed : Bool) (bits : Nat) (x : FVal) : Nat × Flags :=
  match x with
  | .nan _ _ => (0, Flags.nv)
  | .inf neg => ((saturate signed bits (if neg then -(2 ^ 70 : Nat) else (2 ^ 70 : Nat)) Flags.nv).1, Flags.nv)
  | .fin neg m e =>
    if e ≥ 0 then saturate signed bits (if neg then -(m * 2 ^ (min e 200).toNat : Nat) else (m * 2 ^ (min e 200).toNat : Nat)) Flags.nv
    else
      let full := 2 ^ (-e).toNat
      let kept := m / full
      let mag := if rm.up neg kept (m % full) full then kept + 1 else kept
      let (r, fl) := saturate signed bits (if neg then -(mag : Int) else mag) Flags.nv
      (r, if fl = Flags.none then Flags.when (decide (m % full ≠ 0)) Flags.nx else fl)

/-- A float converted to another format, one rounding; a signalling NaN raises NV (R72, R75). -/
def Fmt.convert (f : Fmt) (rm : Rounding) (x : FVal) : Nat × Flags :=
  let (r, fl) := f.write rm x
  (r, fl ||| nvOfSignalling [x])

/-- An integer rounded once to a float. -/
def Fmt.ofInt (f : Fmt) (rm : Rounding) (v : Int) : Nat × Flags := f.roundDyadic rm ⟨v, 0⟩ false

/-! ## LNS8 (R76-R80) -/

/-- A code of R76: zero, NaN, or sign and logarithm. -/
inductive LVal where
  | zero
  | nan
  | fin (neg : Bool) (l : Int)
deriving DecidableEq, Repr

def LVal.read (b : Nat) : LVal :=
  let l := signedOf 5 (b / 4 % 32)
  let neg := decide (b / 128 % 2 = 1)
  if l = -16 then (if neg then .nan else .zero) else .fin neg l

def lnsCode (neg : Bool) (l : Int) (q : Nat) : Nat := (if neg then 128 else 0) + wrapInt 5 l * 4 + q % 4
def lnsZero : Nat := 0x40
def lnsNan : Nat := 0xC0

/-- The summation table T of R77, in Q1.15. -/
def lnsTable (k : Nat) : Nat :=
  match k % 4 with
  | 0 => 0x8000
  | 1 => 0x9837
  | 2 => 0xB505
  | _ => 0xD745

/-- The magnitude of logarithm `l` at scale exponent `sc` (R77). -/
def lnsMagnitude (l sc : Int) : Dyadic := ⟨lnsTable (l % 4).toNat, l / 4 + sc - 15⟩

/-- The float value of a code with scale exponent `sc`; an LNS8 NaN is the canonical quiet NaN, without a flag. -/
def LVal.toFVal (sc : Int) : LVal → FVal
  | .zero => .fin false 0 0
  | .nan => .nan false (2 ^ 22)
  | .fin neg l => .fin neg (lnsMagnitude l sc).n.toNat (lnsMagnitude l sc).e

/-- The logarithm nearest to `x` counting up from `l`: the first whose midpoint to the next lies above `x`, an exact
midpoint going to the even one (R79). -/
def lnsNearest (x : Dyadic) (sc : Int) : Nat → Int → Int
  | 0, l => l
  | k + 1, l =>
    let mid := (lnsMagnitude l sc).mul (lnsMagnitude (l + 1) sc)
    let x2 := x.mul x
    if x2.lt mid || (!mid.lt x2 && decide (l % 2 = 0)) then l else lnsNearest x sc k (l + 1)

/-- Conversion into LNS8 with scale exponent `sc` and selector `q` (R79). -/
def lnsConvert (sc : Int) (q : Nat) (x : FVal) : Nat × Flags :=
  match x with
  | .nan _ _ => (lnsNan + q % 4, nvOfSignalling [x])
  | .inf neg => (lnsCode neg 15 q, Flags.of ||| Flags.nx)
  | .fin neg m e =>
    if m = 0 then (lnsZero + q % 4, Flags.none)
    else
      let v : Dyadic := ⟨m, e⟩
      let l := lnsNearest v sc 32 (-16)
      if l > 15 then (lnsCode neg 15 q, Flags.of ||| Flags.nx)
      else if l < -15 then (lnsZero + q % 4, Flags.uf ||| Flags.nx)
      else
        let g := lnsMagnitude l sc
        (lnsCode neg l q, Flags.when (g.lt v || v.lt g) Flags.nx)

/-- VMUL of two LNS8 codes (R80). -/
def lnsMul (a b : Nat) : Nat × Flags :=
  match LVal.read a, LVal.read b with
  | .nan, _ => (lnsNan, Flags.none)
  | _, .nan => (lnsNan, Flags.none)
  | .zero, _ => (lnsZero, Flags.none)
  | _, .zero => (lnsZero, Flags.none)
  | .fin s1 l1, .fin s2 l2 =>
    let l := l1 + l2
    if l > 15 then (lnsCode (s1 != s2) 15 0, Flags.of ||| Flags.nx)
    else if l < -15 then (lnsZero, Flags.uf ||| Flags.nx)
    else (lnsCode (s1 != s2) l 0, Flags.none)

/-! ## Type tags (06_vector.md R134) -/

inductive Family where
  | signed | unsigned | float | lns
deriving DecidableEq, Repr

/-- The type tags of R134; `untagged` is 0x0. -/
inductive Tag where
  | untagged | i8 | i16 | i32 | i64 | n8 | n16 | n32 | n64 | fp16 | bf16 | fp32 | lns8
deriving DecidableEq, Repr

def Tag.code : Tag → Nat
  | .untagged => 0 | .i8 => 1 | .i16 => 2 | .i32 => 3 | .i64 => 4 | .n8 => 5 | .n16 => 6 | .n32 => 7 | .n64 => 8
  | .fp16 => 9 | .bf16 => 10 | .fp32 => 11 | .lns8 => 12

/-- The tag of a code; the reserved codes 0xD-0xF and above have none. -/
def Tag.ofCode : Nat → Option Tag
  | 0 => some .untagged | 1 => some .i8 | 2 => some .i16 | 3 => some .i32 | 4 => some .i64 | 5 => some .n8 | 6 => some .n16
  | 7 => some .n32 | 8 => some .n64 | 9 => some .fp16 | 10 => some .bf16 | 11 => some .fp32 | 12 => some .lns8 | _ => none

/-- The element width W in bytes; an untagged register has none (0). -/
def Tag.width : Tag → Nat
  | .untagged => 0 | .i8 => 1 | .i16 => 2 | .i32 => 4 | .i64 => 8 | .n8 => 1 | .n16 => 2 | .n32 => 4 | .n64 => 8
  | .fp16 => 2 | .bf16 => 2 | .fp32 => 4 | .lns8 => 1

def Tag.family : Tag → Option Family
  | .untagged => none
  | .i8 => some .signed | .i16 => some .signed | .i32 => some .signed | .i64 => some .signed
  | .n8 => some .unsigned | .n16 => some .unsigned | .n32 => some .unsigned | .n64 => some .unsigned
  | .fp16 => some .float | .bf16 => some .float | .fp32 => some .float
  | .lns8 => some .lns

/-- The format of a float tag. -/
def Tag.fmt : Tag → Option Fmt
  | .fp16 => some Sys2Proof.Machine.fp16
  | .bf16 => some Sys2Proof.Machine.bf16
  | .fp32 => some Sys2Proof.Machine.fp32
  | .untagged => none | .i8 => none | .i16 => none | .i32 => none | .i64 => none
  | .n8 => none | .n16 => none | .n32 => none | .n64 => none | .lns8 => none

/-- Converting one element from tag `src` to tag `dst` (R75, R77, R79, R158): `scSrc` the scale exponent of an LNS8
source, `scDst` and `q` those of an LNS8 target. -/
def convertElem (rm : Rounding) (src dst : Tag) (scSrc scDst : Int) (q : Nat) (x : Nat) : Nat × Flags :=
  if src = dst then (x, Flags.none)
  else
    let ints (t : Tag) : Option Bool := match t.family with
      | some .signed => some true
      | some .unsigned => some false
      | some .float => none
      | some .lns => none
      | none => none
    match ints src, ints dst with
    | some s1, some s2 => saturate s2 (8 * dst.width) (if s1 then signedOf (8 * src.width) x else (x : Int)) Flags.sa
    | some s1, none =>
      let v : Int := if s1 then signedOf (8 * src.width) x else (x : Int)
      match dst.fmt with
      | some f => f.ofInt rm v
      | none => lnsConvert scDst q (.fin (decide (v < 0)) v.natAbs 0)
    | none, di =>
      let v : FVal := match src.fmt with
        | some f => f.read x
        | none => (LVal.read x).toFVal scSrc
      match di with
      | some s2 => v.toInteger rm s2 (8 * dst.width)
      | none => match dst.fmt with
        | some f => f.convert rm v
        | none => lnsConvert scDst q v

end Sys2Proof.Machine
end

