-- ==== Sys2Proof/Machine/State.lean ====
section
/-! DEFINITION. The state of one KLN-HV8 module as plain data (INVENTORY.md, heading State, lists every piece with its
rule), the faults and refusals, and the state right after module reset. -/

namespace Sys2Proof.Machine

/-- A sparse table: keys strictly rising; a key not listed has the default its reader names. -/
abbrev Table (α : Type) := List (Nat × α)

/-! ## A context's registers -/

/-- A vector register (R130): 1,024 bytes of which those at or beyond `64 * hwm` read as zero, a type tag, a mark. -/
structure VReg where
  data : BitVec 8192
  tag  : Tag
  hwm  : Nat
deriving DecidableEq, Repr

/-- The CSRs of a context that a fork image and a snapshot hold (R169, R322). -/
structure Csrs where
  fflg : Flags            -- FFLG (R70)
  vflg : Flags            -- VFLG, the OR over the lanes (R70)
  frm : BitVec 3          -- FRM.RM (R68)
  vl : Nat                -- VL (R132)
  pol : Vector Word 4     -- POL0-3 (R116)
  cpydim : Word           -- CPYDIM (R117)
  fkliv : Word            -- FKLIV (R165)
  fkvec : Word            -- FKVEC (R166)
  fklim : Nat             -- FKCFG.LIM (R167)
  nopred : Bool           -- FKCFG.NOPRED (R167)
  tfmt : BitVec 12        -- TFMT (R207)
  scla : Word             -- SCLA (R208)
  sclb : Word             -- SCLB (R208)
  apitch : Word           -- APITCH (R209)
  slotcfg : Word          -- SLOTCFG (R267)
  owntbl : BitVec 14      -- OWNTBL (R274)
  ecls : Nat              -- ECLS.CLS (R350)
  pri : BitVec 3          -- THPRI.PRI (R346)
  age : Nat               -- THPRI.AGE (R346)
  desched : BitVec 32     -- DESCHED (R347)
  trapv : BitVec 9        -- TRAPV.BASE (R353)
  tcause : BitVec 10      -- TCAUSE (R354)
  tval : Word             -- TVAL (R354)
  xpc : Word              -- XPC (R354)
  xscr : Word             -- XSCR (R354)
  ie : Bool               -- XSTAT.IE (R356)
  exl : Bool              -- XSTAT.EXL
  plvl : Bool             -- XSTAT.PLVL, true for S
  pie : Bool              -- XSTAT.PIE
  gsi : Bool              -- XSTAT.GSI
  ipend : Bool            -- XSTAT.IPEND
  ptroot : Word           -- PTROOT (R122)
  scopechk : BitVec 58    -- SCOPECHK (R383)
  trcctl : BitVec 6       -- TRCCTL (R376)
  pmc : Vector Word 15    -- PMC1-PMC15 (R381)
deriving DecidableEq, Repr

/-- A deferred copy, tile or message fault: cause, TVAL, and a copy's tag (R118, R213, R278). -/
structure PendFault where
  cause : BitVec 8
  tval  : Word
  tag   : BitVec 6
deriving DecidableEq, Repr

/-- An outstanding copy (R117): its shape, and what it samples at issue. CPY is one row of its length. -/
structure Copy where
  tag    : BitVec 6
  dst    : Word
  src    : Word
  rows   : Nat
  rowlen : Nat
  spitch : Nat
  dpitch : Nat
  ptroot : Word
  sup    : Bool
  rin    : BitVec 32
  row    : Nat          -- the engine's progress: the row it works on, and bytes of that row copied
  off    : Nat
deriving DecidableEq, Repr

/-- An issued scalar store or atomic not yet acknowledged (R117, R235). -/
structure AccPend where
  isStore : Bool
  flags   : Flags
deriving DecidableEq, Repr

/-- The elements of a VAMO that later passes are to perform, in element order: address, physical address and value (R237); its
function, element bytes, data tag and rounding mode as sampled at issue. -/
structure VamoRest where
  fn    : BitVec 2
  ew    : Nat
  tag   : Tag
  frm   : BitVec 3
  elems : List (Word × Nat × Nat)
deriving DecidableEq, Repr

/-- An issued vector instruction not yet complete in every cluster (R142): its class, whether it is an atomic, its trace
entry and the pipe events of its end, and the passes that a VAMO still has to make. -/
structure VecPend where
  isLoad  : Bool
  isStore : Bool
  atomic  : Bool
  entry   : Option (BitVec 256)
  ends    : List (BitVec 64)
  rest    : Option VamoRest
deriving DecidableEq, Repr

/-- Why a context is not ready, where another party ends the wait (R29). -/
inductive WaitKind where
  | poll        -- a condition the instruction looks at again when it next issues
  | allowance   -- R265
  | energy      -- WFE, R344
  | eventUnit   -- R244
  | barrier     -- R248
  | sleep       -- GCSLP, R249
  | bind        -- DSBIND's round trip, R271
  | hub         -- the hub's answer to a write of GSWT, R366
  | commit      -- an RCOMMIT that has arrived at the hub, R126
  | sealing     -- SEALW and held instructions, R321
  | covers (copy tile msg : Bool)   -- an issued wait of R120, and the pending faults that it covers
deriving DecidableEq, Repr

/-- A request of a context at its quad's event unit (R244). -/
structure EvldReq where
  off    : Nat          -- offset in the EVU window
  d      : BitVec 5     -- destination register
  queued : Bool         -- it has reached the EVU and waits there
deriving DecidableEq, Repr

/-- A credit demand of a slot (R264): beats, the operation's function number, and how far it has come. -/
structure Demand where
  beats   : Nat
  fn      : Nat
  order   : Option Nat             -- its place among the demands that have arrived at targets
  answer  : Option GrantReply      -- the target's answer, on its way back
  stale   : Bool                   -- dropped for its incarnation; a reset notice is on its way (R256)
deriving DecidableEq, Repr

/-- A destination slot: DSLOTn and what ALWn is formed from (R261-R264). -/
structure DSlot where
  ep      : BitVec 32
  win     : BitVec 2
  bnd     : Bool
  out     : Bool
  rst     : Bool
  pfl     : Bool
  inc     : BitVec 8
  wc      : Nat
  infl    : Nat
  pmax    : Nat
  demand  : Option Demand
  refusal : Option (Nat × BitVec 4) -- function and reason of a refused demand, until its request completes (R265)
  since   : Nat                    -- TIME when credit was last granted or used (R264)
  init    : Nat                    -- the initial grant of its binding (R264, R282)
deriving DecidableEq, Repr

/-- A bind in progress (R271). -/
structure Binding where
  ds    : BitVec 4
  ep    : BitVec 32
  win   : BitVec 2
deriving DecidableEq, Repr

/-- The incoming state of a carried register in a chunk (R173). -/
inductive Incoming where
  | pred (v : Word)
  | await
  | early (v : Word)
  | final (v : Word)
deriving DecidableEq, Repr

/-- One sector of a version line (R177): `sup` is the stamp (chunk, SC), or none for committed. -/
structure Version where
  sector : Nat
  w      : Bool
  bm     : BitVec 64
  rd     : Bool
  sc     : Nat
  sup    : Option (Nat × Nat)
  data   : BitVec 512
deriving DecidableEq, Repr

/-- A trap recorded in a basted chunk (R191). -/
structure Deferred where
  cause : BitVec 8
  tval  : Word
  xpc   : Word
  epx   : Word
deriving DecidableEq, Repr

/-- What a context holds as a chunk of a ring-level fork (R169-R191). -/
structure Chunk where
  number   : Nat
  incoming : List (BitVec 5 × Incoming)
  written  : BitVec 32              -- registers the chunk has written (R173)
  versions : List Version
  through  : Bool                   -- sewn through (R187)
  sent     : Bool                   -- CHEND has forwarded the carried registers (R184)
  trap     : Option Deferred
  request  : Option (Nat × Bool)    -- a version request under way: the sector, and whether Rd is to be set (R178, R179)
deriving DecidableEq, Repr

/-- A local fork (R195). -/
structure InnerFork where
  d       : BitVec 5
  trip    : Nat
  n       : Nat
  count   : Nat
  number  : Nat
  body    : Word
  join    : Word
  joining : Bool
deriving DecidableEq, Repr

/-- The scalar part of a fork record, as a snapshot holds it (R193, R322). -/
structure ForkScalar where
  addr    : Word
  join    : Word
  d       : BitVec 5
  trip    : Nat
  n       : Nat
  count   : Nat
  oldest  : Nat
  base    : Nat
  lim     : Nat
  nopred  : Bool
  fkliv   : Word
  fkvec   : Word
  awaited : BitVec 32
  preds   : List (BitVec 5 × Bool × BitVec 32)   -- the predictors looked up: register, whether predicted, delta (R371)
  regs    : Vector Word 32
  vl      : Nat
  masks   : Vector (BitVec 1024) 8
deriving DecidableEq, Repr

/-- A snapshot (R322). -/
structure Snapshot where
  rin     : BitVec 32
  sealing : Bool
  regs    : Vector Word 32
  pc      : Word
  sup     : Bool
  csr     : Csrs
  tln     : Word
  issue   : Word
  fork    : Option (ForkScalar × Nat × List (BitVec 5 × Incoming))   -- the fork record, the chunk's number (the count in the
                                        -- join phase) and its incoming states
  inner   : Option InnerFork            -- a local fork
  joinFirst : Bool                      -- the thread stood at a JOIN that is legal there (R201)
  home    : CtxId                       -- where it was taken
deriving DecidableEq, Repr

/-! ## Tile state (R205) -/

/-- An accumulator: live bit, format bit (true for I32), 4,096 elements of 32 bits. -/
structure Acc where
  live : Bool
  int  : Bool
  data : BitVec 131072
deriving DecidableEq, Repr

/-- A queued tile operation (R212), with the scalar operands and masks it read at issue. An MMA marked `late` checks its
accumulator's format when it starts; an ACCR holds the moment at which its request reached the neighbour. -/
inductive TileKind where
  | gath (x y : Nat)
  | zero
  | mma (b : Nat) (k : Nat) (mask : BitVec 256) (late : Bool)
  | st (tag : Tag) (a : Nat)
  | accr (quad : Nat) (asked : Option Nat)
deriving DecidableEq, Repr

structure TileOp where
  num     : Option Word     -- its number in the issue sequence; TZERO has none
  order   : Nat             -- its place among all issues of the module
  acc     : BitVec 2
  kind    : TileKind
  started : Bool
  done    : Bool
  flags   : Flags
  rows    : Option (BitVec 131072)   -- the rows a started TGATH has gathered
  reads   : List (Nat × Nat)         -- QSPM bytes that it has read since its start: offset, length (R216)
  writes  : List (Nat × Nat)         -- QSPM bytes that it has written
  owed    : List Nat                 -- what it debits in each cycle that it is still to run (R230, R349)
  half    : Bool                     -- a TMMA at half rate is in the first cycle of a K-step (R351)
deriving DecidableEq, Repr

structure Tile where
  accs   : Vector Acc 4
  lv     : Bool
  llen   : Nat
  latch  : BitVec 131072          -- 64 rows of 256 bytes
  masks  : Vector (BitVec 256) 8
  tln    : Word
  issue  : Word
  queue  : List TileOp
  fault  : Option PendFault
deriving DecidableEq, Repr

/-! ## Contexts -/

/-- What a context slot holds. -/
inductive CtxStatus where
  | free       -- no thread
  | live       -- a thread
  | halted     -- R361
  | reserved   -- ended in a domain, until its interval is sealed (R324)
  | rolling    -- stopped by a rollback until RESUME (R329)
  | fatal      -- stopped by a domain-fatal error (R333)
  | switching  -- stopped by a gang switch (R367)
deriving DecidableEq, Repr

structure Ctx where
  status  : CtxStatus
  regs    : Vector Word 32
  pc      : Word
  sup     : Bool                       -- the level: true for S
  csr     : Csrs
  vregs   : Vector VReg 32
  masks   : Vector (BitVec 1024) 8
  epx     : Word
  rst     : Word                       -- restart pattern in use after ERET (R148); 0 for none
  upto    : Option (Word × Option Nat) -- the points at which the clusters stop inside the instruction being performed (R146),
                                       -- and its group width once it is performed; none between the steps of the machine
  trb     : Word
  sqcnt   : Vector Nat 4               -- MEM, LIV, CAP, OTH (R168)
  copies  : List Copy
  accs    : List AccPend
  vecs    : List VecPend
  copyFault : Option PendFault
  msgFault  : Option PendFault
  chunk   : Option Chunk
  joinPhase : Bool
  joinFirst : Bool                     -- a JOIN at the label of its join phase is legal now (R201)
  inner   : Option InnerFork
  tile    : Tile
  slots   : Vector DSlot 16
  binding : Option Binding
  evld    : Option EvldReq
  wait    : Option WaitKind
  needs   : List (BitVec 4 × Nat × Bool)   -- slots and beats for which a blocked request waits, and whether with IMM (R265)
  watch   : List Nat                   -- sectors a sleeping GCSLP watches (R249)
  woken   : Bool                       -- a write to one of them makes a fresh evaluation due
  rin     : BitVec 32
  dom     : Bool
  sealing : Bool
  arrived : BitVec 32                  -- the latest interval for which the context has arrived (R323)
  pressed : BitVec 32                  -- the interval in which INTERVAL-PRESSURE was last raised (R318)
  rollcnt : Word
  rolled  : Option (BitVec 32)         -- restored out of the machine to this interval: ROLLCNT follows at its resume (R330)
  snaps   : Vector (Option Snapshot) 2
  boost   : Bool                       -- THPRI.BOOST (R346)
  passed  : Nat                        -- cycles passed over (R32)
  last    : Nat                        -- TIME of its last issue (R345)
  blocked : Nat                        -- TIME since which it waits for allowance (R343)
  yielded : Bool                       -- R342: not chosen in the next cycle another is ready
  cwa     : Word                       -- completion word of the thread (R334)
  issuer  : BitVec 32                  -- who issued its SPAWN or START (R341)
  aff     : BitVec 32                  -- the record's AFF and CODEID, under which it resumes (R334, R342)
  codeid  : BitVec 32
  gswDue  : Option (BitVec 48)         -- GANG-SWITCH due, with its WHEN (R355)
  relFence : Option (BitVec 3)         -- scope of a FENCE.rel whose first store is to come (R383)
  seen    : List (Nat × BitVec 32 × BitVec 3)  -- tagged lines read since the last acquire: line of the VA, releaser, scope (R383)
  born    : BitVec 32                  -- RIN of the thread's first instruction (R330)
  prior   : Word                       -- the restart pattern under which the instruction before was performed, where a cluster was
                                       -- ahead: the next trace entry shows it (R377); else 0
  gap     : Option (Nat × Nat × BitVec 32)   -- the gap entry due at the resume: reason, TIME at the stop, where it stopped (R377)
deriving DecidableEq, Repr

/-! ## Units, quads, rings, dies -/

/-- A translation held by a TLB (R124): the ASID, the page's virtual base and size, what the walk gave. -/
structure TlbEntry where
  asid : BitVec 16
  va   : Nat
  size : Nat
  pa   : Nat
  r    : Bool
  w    : Bool
  u    : Bool
  kind : Nat
deriving DecidableEq, Repr

/-- A vector core or QCC: instruction store, first-level TLB, trace and event buffers (R11, R124, R377, R380). -/
structure Core where
  istore  : List Host.Cell
  bad     : List Nat             -- ISTORE words marked uncorrectable (R419)
  tlb     : List TlbEntry
  seq     : BitVec 32            -- next trace sequence number
  entries : List (BitVec 256)    -- trace entries not yet drained, oldest first
  events  : List (BitVec 64)     -- pipe events not yet drained
  lastEv  : Nat                  -- TIME of the latest pipe event
  batch   : Nat                  -- pipe events emitted in that cycle (R379)
  head    : Word                 -- TRCHEAD
  lost    : Word                 -- TRCLOST
  inc     : BitVec 8             -- incarnation (R256)
  drained : Nat                  -- one more than the frame of its latest drain (R380)
deriving DecidableEq, Repr

structure EvuBarrier where
  tgt : Nat
  arr : Nat
  gen : BitVec 32
  myg : Vector (BitVec 32) 18
deriving DecidableEq, Repr

/-- The event unit of a quad (R240-R244). A mutex's holder is a unit of the quad (0-3, 4 QCC) and a slot. -/
structure Evu where
  lines   : Vector (BitVec 16) 32
  bars    : Vector EvuBarrier 8
  mutexes : Vector (Option (Nat × Nat)) 8
  queue   : List CtxId            -- waiting EVLDs in order of arrival
  signals : List (BitVec 5)       -- EVSIGs on their way to this EVU
deriving DecidableEq, Repr

/-- The ingress engine's state of a receive ring (R259, R260, R326): bytes appended, the TAIL last read, the sealed tail,
the pending tail with its RIN, beats granted and not yet used. -/
structure RingEngine where
  head    : Word
  tail    : Word
  sealed  : Word
  pending : Option (Word × BitVec 32)
  granted : Nat
deriving DecidableEq, Repr

/-- An entry of a combining store (R276). Type 0 is FP32, 1 is I32, 2 is N32. -/
structure Comb where
  win   : BitVec 2
  off   : Nat
  ty    : Nat
  acc   : BitVec 128
  nan   : Bool
  pinf  : Bool
  ninf  : Bool
  inexact : Bool
  rin   : BitVec 32
  dom   : Bool
deriving DecidableEq, Repr

/-- A quad; the windows of a die agent and what goes with them are held in the same form (R257, R373). -/
structure Quad where
  evu      : Evu
  rwin     : Vector Word 4
  engines  : Vector RingEngine 4
  pool     : Nat                  -- free beats of the ingress pool (R264)
  werr     : Word                 -- window error counter (R258)
  comb     : List Comb            -- oldest first
  premature : BitVec 4            -- premature flushes since the last reply, per window
  combFlags : Vector Flags 4      -- flags of premature flushes since the last reply, per window
  bist     : Word                 -- BISTST (R386)
  therm    : BitVec 2             -- R350
  codeid   : BitVec 32            -- CODEID of the QCC (R373)
deriving DecidableEq, Repr

/-- A predictor of R172. -/
structure Predictor where
  reg   : BitVec 5
  delta : BitVec 32
  conf  : Nat
deriving DecidableEq, Repr

structure PredEntry where
  tag   : BitVec 9
  preds : List Predictor
deriving DecidableEq, Repr

/-- A configured ring: CODEID, energy allowance and quantum, ELIM, induction prediction table. -/
structure Ring where
  codeid : BitVec 32
  ealw   : Int
  quant  : Nat
  elim   : Nat
  table  : Table PredEntry
deriving DecidableEq, Repr

/-- A thread record as placed or queued (R334). -/
structure Record where
  pc     : Nat
  rlen   : Nat
  qcc    : Bool
  pri    : BitVec 3
  cls    : Nat
  sup    : Bool
  slot   : Nat
  codeid : BitVec 32
  aff    : BitVec 32
  cwa    : Word
  sp     : Word
  args   : Vector Word 4
deriving DecidableEq, Repr

/-- A store notice of R179 on its way, at the chunk it reaches next; the stamp is none when unstamped. -/
structure Notice where
  target : Nat
  sector : Nat
  mask   : BitVec 64
  data   : BitVec 512
  stamp  : Option (Nat × Nat)
deriving DecidableEq, Repr

/-- A forwarded register value on its way to a chunk (R174); `fin` for one sent by CHEND. -/
structure Forward where
  target : Nat
  reg    : BitVec 5
  value  : Word
  fin    : Bool
deriving DecidableEq, Repr

/-- A ring-level fork (R169-R193). Chunks below `started` have started; those below the oldest (or below the chunk to
which the token is on its way) are sewn; the others of these are live. -/
structure Fork where
  info     : ForkScalar
  image    : Ctx                    -- the fork image (R169)
  started  : Nat
  kept     : List (Nat × List (BitVec 5 × Incoming))          -- incoming states kept for a restart (R175)
  given    : List (Nat × BitVec 5 × Word × Bool)              -- values that arrived before the chunk started
  notices  : List Notice
  forwards : List Forward
  flags    : Flags × Flags          -- FFLG and VFLG carried by the commit token (R71)
  token    : Option Nat             -- a chunk to which the token is on its way
  handover : Option Ctx             -- the sewn chunk's context, whose thread state passes with that token
  due      : Option (Nat × SquashCause × Option (BitVec 5 × Incoming))
                                    -- an unpick that is due: the first chunk, the cause, the state it replaces (R175)
  conflict : List Nat               -- sectors written from outside the thread, still to be compared (R180)
deriving DecidableEq, Repr

/-- A dispatch-queue entry: a new record, or a swapped-out thread in a reserved entry (R337). -/
inductive QueueItem where
  | fresh (r : Record) (issuer : BitVec 32) (ptroot : Word) (rin : BitVec 32) (dom : Bool)
  | swapped (entry : Nat) (ready : Bool)
deriving DecidableEq, Repr

structure QueueEntry where
  part : Nat
  item : QueueItem
deriving DecidableEq, Repr

/-- A swapped-out thread of a die (R343): its reserved entry, where it was, what it waits for. -/
structure Swapped where
  entry  : Nat
  ctx    : Ctx
  home   : CtxId
  fork   : Option Fork
  ringLen : Nat
deriving DecidableEq, Repr

/-- An entry of the egress hold that is not a message request: a held device store (R325, R418). -/
structure HeldStore where
  src : CtxId              -- where it issued
  who : Holder             -- the thread that issued it
  rin : BitVec 32
  pa  : Nat
  size : Nat
  val : Word
  seq : Nat
  via : List TlbEntry      -- the page-table entry under which it was translated (R127)
deriving DecidableEq, Repr

/-- An undo record (R316). -/
structure UndoRec where
  pa     : Nat          -- the sector's address
  pre    : BitVec 512
  oldTag : BitVec 32
  k      : BitVec 32
deriving DecidableEq, Repr

structure Die where
  rcfg    : Vector Word 8          -- RCFG of the physical rings (R373)
  swbase  : Word
  agentInc : BitVec 8
  queue   : List QueueEntry
  swaps   : List Swapped           -- the swapped-out threads of the parked table and of the reserved entries
  holds   : List HeldStore
  sealed  : BitVec 32              -- SEALRIN.SEALED (R310)
  undoBuf : List UndoRec           -- the undo writer's buffer (R317)
  trcbase : Word
  cesel   : Word
  ceval   : Table Nat
  pthr    : Word
  pseudo  : Table Word
  arrivedFor : BitVec 32           -- the latest seal for which the die has forwarded its arrival (R323)
  stales  : Nat                    -- packets with a stale incarnation that the die's gateway has dropped (R256)
  slice   : List TlbEntry          -- second-level TLB slice (R124)
deriving DecidableEq, Repr

/-! ## The fabric -/

inductive ReqKind where
  | put (off : Nat) (data : List Byte)
  | send (data : List Byte)
  | get (off len : Nat) (dst : List (Nat × Nat))   -- the local bytes as physical pieces: address, length
  | ramo (op : Nat) (off : Nat) (x cmp : Word) (rm : BitVec 3) (d : BitVec 5)
  | pairs (ps : List (Nat × BitVec 32 × Nat))     -- offset, value, type
  | flush
  | start (record : BitVec 512) (ptroot : Word)
deriving DecidableEq, Repr

inductive ReqStage where
  | timed (due : Nat)                      -- a SENDT waiting for its PHASE (R268)
  | held (seq : Nat)                       -- in the egress hold (R325)
  | flying
  | performed
  | answered (data : List Byte) (fl : Flags) (pf : Bool)
  | refused (reason : BitVec 4)
  | stale                                  -- dropped for its incarnation; a reset notice is on its way (R256)
deriving DecidableEq, Repr

/-- A message request or START (R255, R339), from its issue to its completion. -/
structure Req where
  src    : Option Holder      -- the issuing thread, when it is of this module
  srcEp  : BitVec 32
  ds     : BitVec 4
  fn     : BitVec 3
  target : BitVec 32
  win    : BitVec 2
  inc    : BitVec 8
  rin    : BitVec 32
  dom    : Bool               -- the source belongs to the module's rollback domain
  part   : Option Nat         -- the source's partition; none for the control node
  out    : Bool
  imm    : Bool
  rel    : Bool
  beats  : Nat
  credited : Bool             -- its beats are credit that the source had been granted by a target of this module (R264)
  tries  : Nat                -- retransmissions of its latest packet (R255)
  kind   : ReqKind
  stage  : ReqStage
  via    : List TlbEntry      -- the page-table entries under which its local bytes were translated (R127)
  ce     : Bool               -- a queue on its way has marked it for congestion (R263)
deriving DecidableEq, Repr

/-! ## Barriers, partitions, domain, hub -/

/-- A barrier domain (R245): members by bit, and the arrivals made since it was configured with their RIN and the phase
and count just after them (R251). -/
structure BarDom where
  en      : Bool
  n       : Nat
  members : BitVec 1280
  ph      : BitVec 32
  arr     : Nat
  history : List (BitVec 32 × BitVec 32 × Nat)
deriving DecidableEq, Repr

inductive PState where
  | free | running | switching | saved
deriving DecidableEq, Repr

/-- A row of the partition table (R373). -/
structure Part where
  pstate : PState
  psave  : Word
  armed  : Option (BitVec 64)            -- the armed GSWT of the partition (R366)
  go     : Bool
  late   : Bool
  spill  : Nat
  rings  : List (Nat × Nat × Nat)        -- recorded configured rings: die, physical ring, index
  saves  : List (CtxId × Ctx)            -- what the restore needs beside the save areas in memory (R369)
  forks  : List (ForkId × Fork)
  entering : Option (BitVec 64)          -- the switch by which another partition's leaving lets this one enter
  restored : Option Nat                  -- TIME of the last restore, until the partition resumes
  stopSeq : Nat                          -- the moment of its latest stop by a switch, in the order of `seq`
  stopTime : Nat                         -- TIME of that stop (R375)
  lates  : List (Fin 8 × Fin 160)        -- units that the armed GSWT has not reached (R368)
deriving DecidableEq, Repr

inductive DomPhase where
  | running | rolling | fatal
deriving DecidableEq, Repr

/-- The rollback domain of the module, when one is formed (R307). -/
structure Domain where
  domid  : BitVec 16
  leader : BitVec 18
  usize  : Nat
  parts  : BitVec 16
  member : BitVec 1024
  s      : BitVec 32          -- the highest interval declared sealed
  declared : BitVec 32        -- the highest seal that has reached this member, applied or to be applied
  reload : BitVec 8           -- dies of which an ISTORE word was lost: RESUME waits for their reload (R332)
  phase  : DomPhase
  wanted : Bool               -- a rollback has been raised and has not begun (R328)
  scrubbed : BitVec 32        -- the seal at which the latest pass over the tags was complete (R314)
deriving DecidableEq, Repr

inductive RegionKind where
  | priv | shared | fine
deriving DecidableEq, Repr

/-- A 2 MiB region of the directory (R107); an unlisted region is uncached. -/
structure Region where
  kind  : RegionKind
  dies  : BitVec 8
  dirty : Bool
deriving DecidableEq, Repr

/-- An attestation report (R397): the nonce, and the numbers of the free values that stand for the image digest, the digest
of the fuses, the ROM version and the signature. -/
structure Report where
  nonce : Vector Word 4
  image : Nat
  fuses : Nat
  rom   : Nat
  sign  : Nat
deriving DecidableEq, Repr

/-- A demand of a sender outside the module that has arrived at a target of the module (R264). -/
structure OutDemand where
  ep    : BitVec 32         -- the target
  win   : BitVec 2
  src   : BitVec 32         -- the sender
  dom   : Bool              -- the sender belongs to the target's rollback domain
  inc   : BitVec 8          -- the target's incarnation that the sender has recorded (R256)
  beats : Nat               -- the beats that the sender lacks
  fn    : Nat
  order : Nat
deriving DecidableEq, Repr

/-- The hub: management registers, error store, attestation (R389, R394-R397). -/
structure Hub where
  step    : Nat                -- BOOTST.STEP
  failed  : Bool
  recov   : Bool
  fcode   : BitVec 8
  capw    : BitVec 13
  imglen  : BitVec 32
  nonce   : Vector Word 4
  asked   : Bool                      -- ATTNONCE3 was stored last (R397)
  report  : Option Report             -- the report that stands
  lanesOff : List (Nat × Nat)         -- transmit lanes disabled at step 5: optical die, lane (R395)
  lanes   : Table (Word × Word)       -- counters of the optical dies' receive lanes (R390)
  laneHits : List Nat                 -- receive lanes whose error rate has reached the threshold (R390)
  staging : List Host.Cell
  domcfg  : Word
  domparts : Word
  dommem  : BitVec 1024
  uelanes : BitVec 7
  errors  : Table (BitVec 512)
  errhead : Word
  errack  : Word
  errlost : Word
  ulogth  : BitVec 34
  topRin  : BitVec 32          -- the highest RIN used since module reset (R307)
  others  : BitVec 32          -- the highest RIN that another package of the pod has reported
  drops   : Vector Nat 5       -- packets to absent units, dropped: by the hub, and by the gateway of each optical die (R18)
  image   : Nat                -- the number of the free value that stands for the digest of the installed image (R397)
  hostData : List Byte         -- what the latest HOST_READ returned (R304)
  qcore   : Nat                -- per-core quantum (R348)
  tripped : Option Nat         -- TIME of a thermal trip (R391)
  powerOff : Bool              -- power stages held off until RESET
  dark    : Bool               -- ROM failed: no Camell (R395)
deriving DecidableEq, Repr

/-- What the model's surroundings do next (a schedule; plain data, no part of the hardware). -/
inductive Act where
  | issue (u : CtxId)            -- this context issues next
  | event (i : Instr)            -- this event comes about next
  | pass (n : Nat)               -- time passes
  | evictTlb (die : Fin 8)       -- TLB entries used by a die are replaced (R124)
  | arrive (r : Req)             -- a request from outside the module arrives
  | progress (u : CtxId) (p : Word)  -- the clusters of a context come to these points before an asynchronous stop (R146)
  | podArrive (b : Fin 16) (pos : Fin 1024) (rin : BitVec 32) (dom : Bool)   -- a unit of another package arrives at a pod barrier (R245)
  | lateUnit (d : Fin 8) (x : Fin 160)  -- the armed GSWT of its partition has not reached a unit yet (R368)
  | memberRin (r : BitVec 32)    -- another package of the pod reports the highest RIN it has used (R307)
  | bindOut (ep : BitVec 32) (win : BitVec 2) (src : BitVec 32) (dom : Bool)  -- a sender outside the module binds to a window (R264)
  | demandOut (x : OutDemand)    -- a demand of such a sender arrives
  | creditBack (ep : BitVec 32) (win : BitVec 2) (n : Nat)   -- such a sender returns unused credit
  | laneLost (die : Fin 4) (lane : Fin 512)  -- a lane fails to lock at step 5 (R395)
  | laneRate (die : Fin 4) (lane : Fin 512) (v : BitVec 32)  -- a lane's pre-FEC error rate over its latest 2^36 bits (R390)
  | rowRepair (die : Fin 8) (p : Fin 384)    -- a DRAM row is replaced by a spare (R390)
  | congest (n : Nat)            -- a switch or gateway marks a request for congestion (R263)
  | passes (u : CtxId) (n : Nat) -- the VAMO at a context's PC issues, and other parties' atomics fall after its first passes (R237)
  | lineLost (line : Nat)        -- the last cache that holds a line gives it up (R383)
deriving DecidableEq, Repr

end Sys2Proof.Machine

namespace Sys2Proof.Machine

/-- The state of the module. The last five fields are the model's own (INVENTORY.md): which agent moves next, and the
number of free values drawn so far. -/
structure State where
  ctxs    : Table Ctx
  cores   : Table Core
  quads   : Table Quad
  rings   : Table Ring
  dies    : Vector Die 8
  forks   : Table Fork
  mem     : List Host.Cell
  tags    : Table (BitVec 32)
  poison  : List Nat
  undo    : Vector (List UndoRec) 8
  regions : Table Region
  lines   : Table (BitVec 32 × BitVec 3)
  rngb    : Vector Word 16
  rngl    : Vector Word 16
  pendB   : Vector Word 16
  pendL   : Vector Word 16
  tgen    : Nat
  commits : List CtxId     -- RCOMMITs in the order of their arrival at the hub (R126)
  bars    : Table BarDom
  net     : List Req
  owners  : Table Holder     -- the thread that took each held mutex, by 8 * its quad's key + its number (R243)
  outs    : List OutDemand   -- demands of senders outside the module that wait for an answer, in order of arrival (R264)
  xoff    : List (BitVec 18)
  parts   : Vector Part 16
  domain  : Option Domain
  hub     : Hub
  time    : Nat
  frames  : Nat              -- frame boundaries that the power managers have served (R348)
  sweeps  : Nat              -- sweeps of the region directory (R107)
  pkg     : BitVec 18
  cur     : CtxId
  turn    : Nat
  agenda  : List Act
  seq     : Nat
  free    : Nat
deriving DecidableEq, Repr

end Sys2Proof.Machine

namespace Sys2Proof.Machine

/-- Reasons a step stops with a fault. -/
inductive Fault where
  /-- Raised by `step` when the agenda names as an event an instruction that has a word: no event of the machine. Safe:
  such an agenda stands for nothing the hardware or its surroundings do. -/
  | notAnEvent
deriving DecidableEq, Repr

/-- Reasons a step is refused. -/
inductive Refusal where
  /-- Raised by `exec` for an instruction whose meaning is not modelled. Safe: the machine stops where the hardware
  goes on. -/
  | notModelled (mnemonic : String)
deriving DecidableEq, Repr

/-! ## Reset values -/

def VReg.zero : VReg := ⟨0, .untagged, 0⟩

/-- Every context CSR at its reset value (the field maps; R335). -/
def Csrs.reset : Csrs where
  fflg := 0
  vflg := 0
  frm := 0
  vl := 0
  pol := Vector.replicate 4 0xFFFFFFFF00000000
  cpydim := 0
  fkliv := 0
  fkvec := 0
  fklim := 16
  nopred := false
  tfmt := 0
  scla := 0
  sclb := 0
  apitch := 0x01000000
  slotcfg := 0
  owntbl := 0
  ecls := 0
  pri := 0
  age := 64
  desched := 4096
  trapv := 0
  tcause := 0
  tval := 0
  xpc := 0
  xscr := 0
  ie := false
  exl := false
  plvl := false
  pie := false
  gsi := false
  ipend := false
  ptroot := 0
  scopechk := 0
  trcctl := 0
  pmc := Vector.replicate 15 0

def Acc.zero : Acc := ⟨false, false, 0⟩

/-- The tile state of a starting tile thread; the timeline is kept (R205). -/
def Tile.start (tln issue : Word) : Tile where
  accs := Vector.replicate 4 Acc.zero
  lv := false
  llen := 0
  latch := 0
  masks := Vector.replicate 8 0
  tln := tln
  issue := issue
  queue := []
  fault := none

def DSlot.unbound : DSlot where
  ep := 0
  win := 0
  bnd := false
  out := false
  rst := false
  pfl := false
  inc := 0
  wc := 0
  infl := 0
  pmax := 0
  demand := none
  refusal := none
  since := 0
  init := 0

/-- A context that holds no thread: every register at the value a thread's start gives it where the thread's record
gives none (R335; log 5). -/
def Ctx.idle : Ctx where
  status := .free
  regs := Vector.replicate 32 0
  pc := 0
  sup := false
  csr := Csrs.reset
  vregs := Vector.replicate 32 VReg.zero
  masks := Vector.replicate 8 0
  epx := 0
  rst := 0
  upto := none
  trb := 0
  sqcnt := Vector.replicate 4 0
  copies := []
  accs := []
  vecs := []
  copyFault := none
  msgFault := none
  chunk := none
  joinPhase := false
  joinFirst := false
  inner := none
  tile := Tile.start 0 0
  slots := Vector.replicate 16 DSlot.unbound
  binding := none
  evld := none
  wait := none
  needs := []
  watch := []
  woken := false
  rin := 0
  dom := false
  sealing := false
  arrived := 0
  pressed := 0
  rollcnt := 0
  rolled := none
  snaps := Vector.replicate 2 none
  boost := false
  passed := 0
  last := 0
  blocked := 0
  yielded := false
  cwa := 0
  issuer := 0
  aff := 0
  codeid := 0
  gswDue := none
  relFence := none
  seen := []
  born := 0
  prior := 0
  gap := none

def Core.reset : Core where
  istore := []
  bad := []
  tlb := []
  seq := 0
  entries := []
  events := []
  lastEv := 0
  batch := 0
  head := 0
  lost := 0
  inc := 0
  drained := 0

def Evu.reset : Evu where
  lines := Vector.replicate 32 0
  bars := Vector.replicate 8 ⟨4, 0, 0, Vector.replicate 18 0xFFFFFFFF⟩
  mutexes := Vector.replicate 8 none
  queue := []
  signals := []

def RingEngine.reset : RingEngine := ⟨0, 0, 0, none, 0⟩

def Quad.reset : Quad where
  evu := Evu.reset
  rwin := Vector.replicate 4 0x700
  engines := Vector.replicate 4 RingEngine.reset
  pool := 512
  werr := 0
  comb := []
  premature := 0
  combFlags := Vector.replicate 4 0
  bist := 0
  therm := 0
  codeid := 0

/-- The per-core quantum before any CAPW store (R348; log 9). -/
def resetQcore : Nat := 10000

/-- A configured ring of length `len` at reset or after its configuration (R172, R348, R373; log 9). -/
def Ring.fresh (qcore len : Nat) : Ring where
  codeid := 0
  ealw := qcore * len
  quant := qcore * len
  elim := 16
  table := []

def Die.reset : Die where
  rcfg := Vector.replicate 8 0
  swbase := 0
  agentInc := 0
  queue := []
  swaps := []
  holds := []
  sealed := 0
  undoBuf := []
  trcbase := 0
  cesel := 0
  ceval := []
  pthr := 0
  pseudo := []
  arrivedFor := 0
  stales := 0
  slice := []

def Part.reset : Part where
  pstate := .free
  psave := 0
  armed := none
  go := false
  late := false
  spill := 0
  rings := []
  saves := []
  forks := []
  entering := none
  restored := none
  stopSeq := 0
  stopTime := 0
  lates := []

def Hub.reset : Hub where
  step := 0
  failed := false
  recov := false
  fcode := 0
  capw := 4000
  imglen := 0
  nonce := Vector.replicate 4 0
  asked := false
  report := none
  lanesOff := []
  lanes := []
  laneHits := []
  staging := []
  domcfg := 0
  domparts := 0
  dommem := 0
  uelanes := 0
  errors := []
  errhead := 0
  errack := 0
  errlost := 0
  ulogth := 0x180000000
  topRin := 0
  others := 0
  drops := Vector.replicate 5 0
  image := 0
  hostData := []
  qcore := resetQcore
  tripped := none
  powerOff := false
  dark := false

/-- The module right after reset: nothing listed in any table is at its reset value, no context holds a thread, memory
lists nothing, bring-up is before its first step (R5, R394, R395). -/
def State.reset : State where
  ctxs := []
  cores := []
  quads := []
  rings := []
  dies := Vector.replicate 8 Die.reset
  forks := []
  mem := []
  tags := []
  poison := []
  undo := Vector.replicate 8 []
  regions := []
  lines := []
  rngb := Vector.replicate 16 0
  rngl := Vector.replicate 16 0
  pendB := Vector.replicate 16 0
  pendL := Vector.replicate 16 0
  tgen := 0
  commits := []
  bars := []
  net := []
  owners := []
  outs := []
  xoff := []
  parts := Vector.replicate 16 Part.reset
  domain := none
  hub := Hub.reset
  time := 0
  frames := 0
  sweeps := 0
  pkg := 0
  cur := ⟨0, 0, 0⟩
  turn := 0
  agenda := []
  seq := 0
  free := 3

end Sys2Proof.Machine
end

