-- ==== Sys2Proof/Machine/Access.lean ====
section
/-! DEFINITION. Tables and wide bit fields, the places of the module (units, quads, rings, endpoints, scopes), memory in
its canonical form, tagged and logged writes, translation, and the checks of R109. -/

namespace Sys2Proof

def CtxId.key (u : CtxId) : Nat := (u.die.val * 160 + u.unit.val) * 4 + u.slot.val

/-- Units 128-159 are QCCs (R16). -/
def isQccUnit (unit : Nat) : Bool := decide (128 ≤ unit)

/-- The quad of a unit number (R10, R16). -/
def quadOfUnit (unit : Nat) : Nat := if unit < 128 then unit / 4 else unit - 128

def CtxId.isQcc (u : CtxId) : Bool := isQccUnit u.unit.val
def CtxId.quad (u : CtxId) : Nat := quadOfUnit u.unit.val

def ForkId.key (f : ForkId) : Nat := (f.die.val * 32 + f.quad.val) * 4 + f.slot.val

/-- The core at a ring index of the ring of a fork, in the fork's slot. -/
def ForkId.coreAt (f : ForkId) (index : Nat) : CtxId :=
  ⟨f.die, ⟨(4 * f.quad.val + index) % 160, Nat.mod_lt _ (by decide)⟩, f.slot⟩

end Sys2Proof

namespace Sys2Proof.Machine

/-! ## Tables -/

def Table.find {α : Type} : Table α → Nat → Option α
  | [], _ => none
  | (k, v) :: t, i => if i = k then some v else if i < k then none else Table.find t i

def Table.getD {α : Type} (t : Table α) (i : Nat) (d : α) : α := (Table.find t i).getD d

def Table.put {α : Type} : Table α → Nat → α → Table α
  | [], i, v => [(i, v)]
  | (k, w) :: t, i, v => if i = k then (k, v) :: t else if i < k then (i, v) :: (k, w) :: t else (k, w) :: Table.put t i v

def Table.drop {α : Type} : Table α → Nat → Table α
  | [], _ => []
  | (k, w) :: t, i => if i = k then t else (k, w) :: Table.drop t i

/-! ## Bit fields -/

/-- Bits `[lo + n - 1 : lo]` of a vector as a number. -/
def field {w : Nat} (v : BitVec w) (lo n : Nat) : Nat := v.toNat / 2 ^ lo % 2 ^ n

def bitOf {w : Nat} (v : BitVec w) (i : Nat) : Bool := v.getLsbD i

/-- `v` with bits `[lo + n - 1 : lo]` replaced. -/
def setField {w : Nat} (v : BitVec w) (lo n x : Nat) : BitVec w :=
  (v &&& ~~~(BitVec.ofNat w ((2 ^ n - 1) * 2 ^ lo))) ||| BitVec.ofNat w (x % 2 ^ n * 2 ^ lo)

/-- A field placed at bit `lo` of a 64-bit word. -/
def place (lo n x : Nat) : Word := BitVec.ofNat 64 (x % 2 ^ n * 2 ^ lo)

def boolBit (lo : Nat) (b : Bool) : Word := if b then BitVec.ofNat 64 (2 ^ lo) else 0

/-- Little-endian bytes of a number (R2). -/
def bytesOf : Nat → Nat → List Byte
  | 0, _ => []
  | n + 1, v => BitVec.ofNat 8 v :: bytesOf n (v / 256)

/-- The number held by little-endian bytes. -/
def ofBytes : List Byte → Nat
  | [] => 0
  | b :: bs => b.toNat + 256 * ofBytes bs

def signExtend64 (bits n : Nat) : Word := BitVec.ofInt 64 (signedOf bits n)

/-! ## Units, quads, rings (R10-R17) -/

/-- Position of a unit within its quad: 0-3 core, 4 QCC. -/
def unitInQuad (unit : Nat) : Nat := if unit < 128 then unit % 4 else 4

def unitKey (die unit : Nat) : Nat := die * 160 + unit
def quadKey (die quad : Nat) : Nat := die * 32 + quad

def mkFin8 (n : Nat) : Fin 8 := ⟨n % 8, Nat.mod_lt _ (by decide)⟩
def mkFin32 (n : Nat) : Fin 32 := ⟨n % 32, Nat.mod_lt _ (by decide)⟩
def mkFin160 (n : Nat) : Fin 160 := ⟨n % 160, Nat.mod_lt _ (by decide)⟩
def mkFin4 (n : Nat) : Fin 4 := ⟨n % 4, Nat.mod_lt _ (by decide)⟩
def mkFin16 (n : Nat) : Fin 16 := ⟨n % 16, Nat.mod_lt _ (by decide)⟩

def mkCtxId (die unit slot : Nat) : CtxId := ⟨mkFin8 die, mkFin160 unit, mkFin4 slot⟩

/-- The context of a key of the module's table of contexts. -/
def ctxOfKey (k : Nat) : CtxId := mkCtxId (k / 640) (k / 4 % 160) (k % 4)

/-- Size of a unit's ISTORE (R37). -/
def istoreSize (unit : Nat) : Nat := if unit < 128 then 0x20000 else 0x10000

/-- Context slots of a unit: 4 on a core, 2 on a QCC (R24, R27). -/
def slotsOfUnit (unit : Nat) : Nat := if unit < 128 then 4 else 2

def State.die (s : State) (d : Fin 8) : Die := s.dies[d.val]'d.isLt
def State.setDie (s : State) (d : Fin 8) (x : Die) : State := { s with dies := s.dies.set d.val x d.isLt }

/-- MODE of the physical ring that holds a quad (R12, R373). -/
def State.ringMode (s : State) (d : Fin 8) (quad : Nat) : Nat :=
  field ((s.die d).rcfg[quad / 4 % 8]'(Nat.mod_lt _ (by decide))) 0 2

/-- Length in quads of a configured ring under a MODE. -/
def modeQuads (mode : Nat) : Nat := if mode = 0 then 4 else if mode = 1 then 2 else 1

/-- The first quad of the configured ring that covers a quad, and the ring's length in cores (R12). -/
def State.ringFirst (s : State) (d : Fin 8) (quad : Nat) : Nat :=
  quad / modeQuads (s.ringMode d quad) * modeQuads (s.ringMode d quad)

def State.ringLen (s : State) (d : Fin 8) (quad : Nat) : Nat := 4 * modeQuads (s.ringMode d quad)

/-- The index j of a configured ring within its physical ring. -/
def State.ringIndex (s : State) (d : Fin 8) (quad : Nat) : Nat := quad % 4 / modeQuads (s.ringMode d quad)

/-- The partition that holds the configured ring covering a quad; 0 for none (R13, R373). -/
def State.partOf (s : State) (d : Fin 8) (quad : Nat) : Nat :=
  field ((s.die d).rcfg[quad / 4 % 8]'(Nat.mod_lt _ (by decide))) (8 * s.ringIndex d quad + 8) 8

def State.ctx (s : State) (u : CtxId) : Ctx := Table.getD s.ctxs u.key Ctx.idle
def State.setCtx (s : State) (u : CtxId) (c : Ctx) : State := { s with ctxs := Table.put s.ctxs u.key c }
def State.updCtx (s : State) (u : CtxId) (f : Ctx → Ctx) : State := s.setCtx u (f (s.ctx u))

def State.core (s : State) (d : Fin 8) (unit : Nat) : Core := Table.getD s.cores (unitKey d.val unit) Core.reset
def State.setCore (s : State) (d : Fin 8) (unit : Nat) (x : Core) : State :=
  { s with cores := Table.put s.cores (unitKey d.val unit) x }

def State.quad (s : State) (d : Fin 8) (q : Nat) : Quad := Table.getD s.quads (quadKey d.val q) Quad.reset
def State.setQuad (s : State) (d : Fin 8) (q : Nat) (x : Quad) : State :=
  { s with quads := Table.put s.quads (quadKey d.val q) x }

/-- The configured ring that begins at a quad. -/
def State.ring (s : State) (d : Fin 8) (first : Nat) : Ring :=
  Table.getD s.rings (quadKey d.val first) (Ring.fresh resetQcore (s.ringLen d first))
def State.setRing (s : State) (d : Fin 8) (first : Nat) (x : Ring) : State :=
  { s with rings := Table.put s.rings (quadKey d.val first) x }

/-- The configured ring that governs a unit (R12, R348). -/
def State.ringOf (s : State) (u : CtxId) : Ring := s.ring u.die (s.ringFirst u.die u.quad)
def State.setRingOf (s : State) (u : CtxId) (x : Ring) : State := s.setRing u.die (s.ringFirst u.die u.quad) x

def State.partOfCtx (s : State) (u : CtxId) : Nat := s.partOf u.die u.quad
def State.part (s : State) (p : Nat) : Part := s.parts[p % 16]'(Nat.mod_lt _ (by decide))
def State.setPart (s : State) (p : Nat) (x : Part) : State :=
  { s with parts := s.parts.set (p % 16) x (Nat.mod_lt _ (by decide)) }

/-- The fork of the thread in a context's slot (R24, R26). -/
def State.forkIdOf (s : State) (u : CtxId) : ForkId := ⟨u.die, mkFin32 (s.ringFirst u.die u.quad), u.slot⟩
def State.fork (s : State) (f : ForkId) : Option Fork := Table.find s.forks f.key
def State.setFork (s : State) (f : ForkId) (x : Fork) : State := { s with forks := Table.put s.forks f.key x }
def State.dropFork (s : State) (f : ForkId) : State := { s with forks := Table.drop s.forks f.key }

/-- Where chunk `k` runs (R26, R170). -/
def State.chunkCtx (s : State) (f : ForkId) (x : Fork) (k : Nat) : CtxId :=
  f.coreAt ((x.info.base + k) % s.ringLen f.die f.quad.val)

/-- Endpoint identifier of a unit of this module (R16). -/
def State.endpoint (s : State) (d : Fin 8) (unit : Nat) : BitVec 32 :=
  BitVec.ofNat 32 (s.pkg.toNat * 2 ^ 14 + d.val * 2 ^ 10 + unit)

def controlNode : BitVec 32 := 0xFFFFC000

/-- A unit that an endpoint identifier names within this module: a die and a unit number, 1023 for the die agent;
`none` where the module has no such unit (R16, R18). -/
def State.unitOf (s : State) (ep : BitVec 32) : Option (Fin 8 × Nat) :=
  if field ep 14 18 = s.pkg.toNat && decide (field ep 10 4 < 8) && (decide (field ep 0 10 < 160) || decide (field ep 0 10 = 1023))
  then some (mkFin8 (field ep 10 4), field ep 0 10) else none

/-- The agents of the hub die and of the optical dies are endpoints without windows (R16). -/
def State.isAgent (s : State) (ep : BitVec 32) : Bool :=
  decide (field ep 14 18 = s.pkg.toNat) && (decide (field ep 10 4 = 8) || decide (12 ≤ field ep 10 4)) && decide (field ep 0 10 = 1023)

/-- Whether an identifier of this package names nothing that exists (R16, R18). -/
def State.absent (s : State) (ep : BitVec 32) : Bool := decide (field ep 14 18 = s.pkg.toNat) && (s.unitOf ep).isNone && !s.isAgent ep

/-- The narrowest scope that encloses two endpoints of R16, as a code of R14 (R284). -/
def State.scopeBetween (s : State) (a b : BitVec 32) : Nat :=
  if a = controlNode || b = controlNode then 7
  else if field a 24 8 ≠ field b 24 8 then 7
  else if field a 14 18 ≠ field b 14 18 then 6
  else if field a 10 4 ≠ field b 10 4 then 5
  else if a = b then 1
  else
    let ua := field a 0 10
    let ub := field b 0 10
    if ua ≥ 160 || ub ≥ 160 then 4
    else if quadOfUnit ua = quadOfUnit ub then 2
    else if field a 14 18 = s.pkg.toNat && decide (field a 10 4 < 8) &&
      s.ringFirst (mkFin8 (field a 10 4)) (quadOfUnit ua) = s.ringFirst (mkFin8 (field a 10 4)) (quadOfUnit ub) then 3
    else 4

/-! ## The physical map (R104) -/

inductive Place where
  | dram
  | qspm (die quad off : Nat)
  | evu (die quad off : Nat)
  | device (off : Nat)
  | hole
deriving DecidableEq, Repr

/-- End of the DRAM range: all of R104, or what a rollback domain leaves (R308). -/
def State.dramEnd (s : State) : Nat :=
  match s.domain with
  | none => 0x8000000000
  | some d => 8 * (64 - d.usize) * 2 ^ 30

def qspmBase (die quad : Nat) : Nat := 0x100000000000 + die * 0x8000000 + quad * 0x400000

def State.place (s : State) (pa : Nat) : Place :=
  if pa < s.dramEnd then .dram
  else if 0x100000000000 ≤ pa ∧ pa < 0x100000000000 + 8 * 0x8000000 then
    .qspm ((pa - 0x100000000000) / 0x8000000) ((pa - 0x100000000000) % 0x8000000 / 0x400000) (pa % 0x400000)
  else if 0x110000000000 ≤ pa ∧ pa < 0x110000000000 + 8 * 0x200000 then
    .evu ((pa - 0x110000000000) / 0x200000) ((pa - 0x110000000000) % 0x200000 / 0x10000) (pa % 0x10000)
  else if 0x130000000000 ≤ pa ∧ pa < 0x130100000000 then .device (pa - 0x130000000000)
  else .hole

/-- The stack that holds a DRAM address (R105), or that stands beside a QSPM's die (R316). -/
def State.stackOf (s : State) (pa : Nat) : Nat :=
  match s.place pa with
  | .qspm d _ _ => d % 8
  | .dram => ((pa / 2 ^ 8 % 8) ^^^ (pa / 2 ^ 21 % 8)) ^^^ (pa / 2 ^ 30 % 8)
  | .evu _ _ _ => 0
  | .device _ => 0
  | .hole => 0

/-! ## Memory -/

/-- A byte of memory; one that is not listed reads as 0 (log 6). -/
def memGet : List Host.Cell → Nat → Byte
  | [], _ => 0
  | (k, b) :: m, a => if a = k then b else if a < k then 0 else memGet m a

/-- Setting a byte keeps the canonical form: rising addresses, no byte listed that reads as unlisted. -/
def memSet : List Host.Cell → Nat → Byte → List Host.Cell
  | [], a, v => if v = 0 then [] else [(a, v)]
  | (k, b) :: m, a, v =>
    if a = k then (if v = 0 then m else (a, v) :: m)
    else if a < k then (if v = 0 then (k, b) :: m else (a, v) :: (k, b) :: m)
    else (k, b) :: memSet m a v

def memRead (m : List Host.Cell) (a : Nat) : Nat → List Byte
  | 0 => []
  | n + 1 => memGet m a :: memRead m (a + 1) n

def memWrite (m : List Host.Cell) (a : Nat) : List Byte → List Host.Cell
  | [] => m
  | b :: bs => memWrite (memSet m a b) (a + 1) bs

/-- The canonical form above key `lo`. -/
def memFrom (lo : Nat) : List Host.Cell → Bool
  | [] => true
  | (k, b) :: m => decide (lo ≤ k) && decide (b ≠ 0) && memFrom (k + 1) m

/-- Canonical form of a memory: strictly rising addresses, no listed byte equal to what an unlisted one reads as. -/
def Memory.wf (m : List Host.Cell) : Bool := memFrom 0 m

/-- A 64-byte sector's bytes as one value. -/
def sectorData (m : List Host.Cell) (sector : Nat) : BitVec 512 := BitVec.ofNat 512 (ofBytes (memRead m (64 * sector) 64))

def State.isPoisoned (s : State) (pa n : Nat) : Bool := s.poison.any (fun x => decide (pa / 64 ≤ x) && decide (x ≤ (pa + n - 1) / 64))

/-! ## Windows in memory (R257, R259, R315, R326) -/

def winEn (w : Word) : Bool := bitOf w 0
def winRing (w : Word) : Bool := bitOf w 4
def winExt (w : Word) : Bool := bitOf w 5
def winIst (w : Word) : Bool := bitOf w 6
def winBase (w : Word) : Nat := field w 16 32 * 2 ^ 16
def winSize (w : Word) : Nat := field w 48 16 * 2 ^ 16
def winHolds (w : Word) (pa : Nat) : Bool := decide (winBase w ≤ pa) && decide (pa < winBase w + winSize w)

/-- Data area of a receive ring. -/
def ringArea (w : Word) : Nat := winSize w - 64

/-- Whether an address lies in an external window: its writes are neither tagged nor logged (R315). -/
def State.isExternal (s : State) (pa : Nat) : Bool :=
  s.quads.any (fun kq => kq.2.rwin.toList.any (fun w => winEn w && winExt w && winHolds w pa))

def mem64 (m : List Host.Cell) (a : Nat) : Word := BitVec.ofNat 64 (ofBytes (memRead m a 8))

/-- A TAIL beyond what has been appended, or further behind than the area is long (R260). -/
def badTail (w : Word) (head tail : Word) : Bool := decide (tail.toNat > head.toNat) || decide (head.toNat - tail.toNat > ringArea w)

/-- The engine of a ring reads TAIL again after a write by software to its header sector; an invalid TAIL counts a window
error, and for an external ring the TAIL waits for the seal of its write's interval (R260, R326). One written outside every
domain has no interval to wait for, and stays pending until a seal comes (log 84). -/
def Quad.noteTail (q : Quad) (m : List Host.Cell) (rin : BitVec 32) (pa n : Nat) (i : Fin 4) : Quad :=
  let w := q.rwin[i.val]'i.isLt
  let e := q.engines[i.val]'i.isLt
  if winEn w && winRing w && decide (pa < winBase w + 64) && decide (winBase w < pa + n) then
    let tail := mem64 m (winBase w + 8)
    { q with
      engines := q.engines.set i.val { e with tail := tail, pending := if winExt w then some (tail, rin) else none } i.isLt
      werr := if badTail w e.head tail then q.werr + 1 else q.werr }
  else q

def Quad.noteTails (q : Quad) (m : List Host.Cell) (rin : BitVec 32) (pa n : Nat) : Quad :=
  (((q.noteTail m rin pa n 0).noteTail m rin pa n 1).noteTail m rin pa n 2).noteTail m rin pa n 3

/-! ## Undo records, tags, region directory -/

/-- Undo space of a stack in bytes (R316). -/
def State.undoUsed (s : State) (k : Nat) : Nat := 80 * (s.undo[k % 8]'(Nat.mod_lt _ (by decide))).length

/-- How many records more the undo region of a stack can take (R318). -/
def State.undoFree (s : State) (k : Nat) : Nat :=
  match s.domain with
  | none => 2 ^ 31
  | some d => (d.usize * 2 ^ 30 - s.undoUsed k) / 80

def State.appendUndo (s : State) (k : Nat) (rs : List UndoRec) : State :=
  { s with undo := s.undo.set (k % 8) (s.undo[k % 8]'(Nat.mod_lt _ (by decide)) ++ rs) (Nat.mod_lt _ (by decide)) }

/-- The sectors that `[pa, pa + n)` touches. -/
def sectorsOf (pa n : Nat) : List Nat := (List.range (if n = 0 then 0 else (pa + n - 1) / 64 - pa / 64 + 1)).map (fun i => pa / 64 + i)

/-- Whether a write with interval `rin` to a sector needs an undo record (R314, R315). -/
def State.needsRecord (s : State) (rin : BitVec 32) (sec : Nat) : Bool :=
  decide (rin ≠ 0) && decide (Table.getD s.tags sec 0 ≠ rin) && !s.isExternal (64 * sec)

def Place.isQspm (p : Place) : Bool :=
  match p with
  | .dram => false
  | .qspm _ _ _ => true
  | .evu _ _ _ => false
  | .device _ => false
  | .hole => false

/-- The record of a sector for interval `rin`, as it would be made now (R316). -/
def State.undoRecord (s : State) (rin : BitVec 32) (sec : Nat) : UndoRec :=
  ⟨64 * sec, sectorData s.mem sec, Table.getD s.tags sec 0, rin⟩

/-- The record that a list holds of a sector for an interval. -/
def hasRecord (rin : BitVec 32) (sec : Nat) (l : List UndoRec) : Bool := l.any (fun r => decide (r.pa = 64 * sec) && decide (r.k = rin))

/-- A sector whose record stands in its undo region, as a write of a QSPM sector needs it (R317). -/
def State.recorded (s : State) (rin : BitVec 32) (sec : Nat) : Bool :=
  hasRecord rin sec (s.undo[s.stackOf (64 * sec) % 8]'(Nat.mod_lt _ (by decide)))

/-- The sectors of a list that need a record which the undo writer of die `k` has still to take. -/
def State.recordsFor (s : State) (rin : BitVec 32) (k : Nat) (secs : List Nat) : List Nat :=
  secs.filter (fun sec => s.needsRecord rin sec && decide (s.stackOf (64 * sec) = k) &&
    !(s.recorded rin sec || hasRecord rin sec (s.die (mkFin8 k)).undoBuf))

/-- Whether the undo writer of die `k` and its region have room for what a write of these sectors needs (R317, R318). -/
def State.recordRoom (s : State) (rin : BitVec 32) (k : Nat) (secs : List Nat) : Bool :=
  let new := (s.recordsFor rin k secs).length
  new = 0 || (decide ((s.die (mkFin8 k)).undoBuf.length + new ≤ 512) &&
    decide ((s.die (mkFin8 k)).undoBuf.length + new ≤ s.undoFree k))

/-- Whether a write with `rin` to these sectors may be performed: the undo writers take every record that it still needs, and
the record of every QSPM sector is in its undo region already (R317, R318). -/
def State.mayLogAll (s : State) (rin : BitVec 32) (secs : List Nat) : Bool :=
  decide (rin = 0) ||
  ((List.range 8).all (fun k => s.recordRoom rin k secs.eraseDups) &&
    secs.all (fun sec => !((s.place (64 * sec)).isQspm && s.needsRecord rin sec) || s.recorded rin sec))

def State.mayLog (s : State) (rin : BitVec 32) (pa n : Nat) : Bool := s.mayLogAll rin (sectorsOf pa n)

/-- A write that may not be performed yet offers its records to the undo writers, one by one, and each takes it while it has
room (R317; log 134). -/
def State.askLogAll (s : State) (rin : BitVec 32) (secs : List Nat) : State :=
  secs.foldl (fun t sec =>
    let k := t.stackOf (64 * sec)
    if !(t.recordsFor rin k [sec]).isEmpty && t.recordRoom rin k [sec] then
      t.setDie (mkFin8 k) { t.die (mkFin8 k) with undoBuf := (t.die (mkFin8 k)).undoBuf ++ [t.undoRecord rin sec] }
    else t) s

def State.askLog (s : State) (rin : BitVec 32) (pa n : Nat) : State := s.askLogAll rin (sectorsOf pa n)

/-- Logging and retagging one sector before a write with interval `rin` (R314, R317): its record enters the undo writer, unless
one has been taken already. -/
def State.logSector (s : State) (rin : BitVec 32) (sec : Nat) : State :=
  if !s.needsRecord rin sec then s
  else
    let d := mkFin8 (s.stackOf (64 * sec))
    let s1 := { s with tags := Table.put s.tags sec rin }
    if s.recorded rin sec || hasRecord rin sec (s.die d).undoBuf then s1
    else s1.setDie d { s1.die d with undoBuf := (s1.die d).undoBuf ++ [s.undoRecord rin sec] }

def State.logRange (s : State) (rin : BitVec 32) (pa n : Nat) : State := (sectorsOf pa n).foldl (fun t sec => t.logSector rin sec) s

/-- The region directory after an access of a die (R107); which accesses those are is log 137. -/
def Region.touch (r : Option Region) (die : Nat) (write : Bool) : Region :=
  match r with
  | none => ⟨.priv, 1#8 <<< die, write⟩
  | some r =>
    let dies := r.dies ||| (1#8 <<< die)
    match r.kind with
    | .priv =>
      if dies = r.dies then ⟨.priv, dies, r.dirty || write⟩
      else if r.dirty || write then ⟨.fine, dies, true⟩ else ⟨.shared, dies, false⟩
    | .shared => if write then ⟨.fine, dies, true⟩ else ⟨.shared, dies, false⟩
    | .fine => ⟨.fine, dies, r.dirty || write⟩

def State.touchRegion (s : State) (die pa : Nat) (write : Bool) : State :=
  if pa < 0x8000000000 then
    { s with regions := Table.put s.regions (pa / 2 ^ 21) (Region.touch (Table.find s.regions (pa / 2 ^ 21)) die write) }
  else s

/-- An access of a range of addresses: every region of it. -/
def State.touchRange (s : State) (die pa n : Nat) (write : Bool) : State :=
  (List.range (if n = 0 then 0 else (pa + n - 1) / 2 ^ 21 - pa / 2 ^ 21 + 1)).foldl (fun t i => t.touchRegion die ((pa / 2 ^ 21 + i) * 2 ^ 21) write) s

/-- The sectors a write of `[pa, pa + n)` covers wholly. -/
def coversSector (pa n sec : Nat) : Bool := decide (pa ≤ 64 * sec) && decide (64 * sec + 64 ≤ pa + n)

/-- A thread's fork sees a write from outside the thread (R180): the sectors still to be compared. -/
def Fork.noteWrite (x : Fork) (pa n : Nat) : Fork :=
  if n = 0 then x
  else { x with conflict := x.conflict ++ (List.range ((pa + n - 1) / 64 - pa / 64 + 1)).map (fun i => pa / 64 + i) }

/-- A sleeping GCSLP that watches a sector of the write gets a fresh evaluation (R249, R250). -/
def Ctx.wake (c : Ctx) (pa n : Nat) : Ctx :=
  if c.watch.any (fun x => decide (pa / 64 ≤ x) && decide (64 * x < pa + n)) then { c with woken := true } else c

/-- A write performed in memory: logged and tagged with `rin` (0 for a write that is not), seen by chunks of every fork
but `own` that read the sector and by sleepers, lifting poison from wholly written sectors. -/
def State.storeRaw (s : State) (own : Option Nat) (rin : BitVec 32) (pa : Nat) (bs : List Byte) : State :=
  let s1 := s.logRange rin pa bs.length
  { s1 with
    mem := memWrite s1.mem pa bs
    poison := s1.poison.filter (fun x => !coversSector pa bs.length x)
    forks := s1.forks.map (fun kf => if own = some kf.1 then kf else (kf.1, kf.2.noteWrite pa bs.length))
    ctxs := s1.ctxs.map (fun kc => (kc.1, kc.2.wake pa bs.length)) }

/-- A write by software, which the engines of receive rings notice as well. -/
def State.store (s : State) (own : Option Nat) (rin : BitVec 32) (pa : Nat) (bs : List Byte) : State :=
  let s1 := s.storeRaw own rin pa bs
  { s1 with quads := s1.quads.map (fun kq => (kq.1, kq.2.noteTails s1.mem rin pa bs.length)) }

/-! ## Translation (R122-R125) -/

/-- What an access is for (R109, R123). -/
inductive AccKind where
  | load | store | atomic | copySrc | copyDst | evld
deriving DecidableEq, Repr

def AccKind.reads : AccKind → Bool
  | .load => true
  | .store => false
  | .atomic => true
  | .copySrc => true
  | .copyDst => true
  | .evld => true

def AccKind.writes : AccKind → Bool
  | .load => false
  | .store => true
  | .atomic => true
  | .copySrc => false
  | .copyDst => true
  | .evld => false

/-- The cause codes of R355. -/
def causeIllegalInstruction : BitVec 8 := 0x01
def causeIllegalOperand : BitVec 8 := 0x02
def causeMisaligned : BitVec 8 := 0x03
def causeTranslation : BitVec 8 := 0x04
def causePermission : BitVec 8 := 0x05
def causeRange : BitVec 8 := 0x06
def causeRemoteNack : BitVec 8 := 0x07
def causeSlotViolation : BitVec 8 := 0x08
def causePeerReset : BitVec 8 := 0x09
def causeBreakpoint : BitVec 8 := 0x0A
def causeEcall : BitVec 8 := 0x0B
def causePrivilege : BitVec 8 := 0x0C
def causePressure : BitVec 8 := 0x0D
def causeGangSwitch : BitVec 8 := 0x0E
def causeDomainFatal : BitVec 8 := 0x0F
def causeUncorrectable : BitVec 8 := 0x10

/-- Who translates: the unit, level and PTROOT of a context, as sampled when its access was issued. -/
structure Viewer where
  die    : Fin 8
  unit   : Nat
  sup    : Bool
  ptroot : Word
deriving DecidableEq, Repr

def State.viewer (s : State) (u : CtxId) : Viewer := ⟨u.die, u.unit.val, (s.ctx u).sup, (s.ctx u).csr.ptroot⟩

/-- A mapping: physical address and permissions. -/
structure Mapping where
  pa   : Nat
  r    : Bool
  w    : Bool
  u    : Bool
  kind : Nat
deriving DecidableEq, Repr

/-- The lowest-numbered active range pair that hits (R125). -/
def rangeHit (bs ls : List Word) (va : Nat) : Option Mapping :=
  match bs, ls with
  | b :: bs, l :: ls =>
    let base := field b 16 41 * 2 ^ 16
    if bitOf b 0 && decide (base ≤ va) && decide (va < base + field l 0 32 * 2 ^ 16) then
      some ⟨field l 32 32 * 2 ^ 16 + (va - base), bitOf b 1, bitOf b 2, bitOf b 3, 0⟩
    else rangeHit bs ls va
  | _, _ => none

def levelIndex (va level : Nat) : Nat :=
  match level with
  | 0 => va / 2 ^ 48 % 512
  | 1 => va / 2 ^ 39 % 512
  | 2 => va / 2 ^ 30 % 512
  | 3 => va / 2 ^ 21 % 512
  | _ => va / 2 ^ 16 % 32

def pageSize (level : Nat) : Nat := if level = 2 then 2 ^ 30 else if level = 3 then 2 ^ 21 else 2 ^ 16

/-- The table walk of R123 from the table at `t`, `fuel` levels being left; the page's base and size, or none for a
translation fault. -/
def walk (m : List Host.Cell) (va : Nat) : Nat → Nat → Option TlbEntry
  | 0, _ => none
  | fuel + 1, t =>
    let level := 4 - fuel
    let pte := ofBytes (memRead m (t + 8 * levelIndex va level) 8)
    let pa := pte / 2 ^ 8 % 2 ^ 40 * 2 ^ 8
    if pte % 2 = 0 || decide (pte / 2 ^ 7 % 2 = 1) || decide (pte / 2 ^ 48 ≠ 0) then none
    else if pte / 2 % 2 = 1 then
      (if level < 2 || decide (pte / 2 ^ 5 % 4 > 1) || decide (pa % pageSize level ≠ 0) then none
       else some ⟨0, va / pageSize level * pageSize level, pageSize level, pa, decide (pte / 4 % 2 = 1),
         decide (pte / 8 % 2 = 1), decide (pte / 16 % 2 = 1), pte / 2 ^ 5 % 4⟩)
    else if level = 4 || (decide (level < 3) && decide (pa % 4096 ≠ 0)) then none
    else walk m va fuel pa

/-- The addresses of the page-table entries that the walk reads, one of each level. -/
def walkReads (m : List Host.Cell) (va : Nat) : Nat → Nat → List Nat
  | 0, _ => []
  | fuel + 1, t =>
    let a := t + 8 * levelIndex va (4 - fuel)
    let pte := ofBytes (memRead m a 8)
    a :: if pte % 2 = 1 && decide (pte / 2 % 2 = 0) then walkReads m va fuel (pte / 2 ^ 8 % 2 ^ 40 * 2 ^ 8) else []

def TlbEntry.hits (e : TlbEntry) (asid : Nat) (va : Nat) : Bool :=
  decide (e.asid.toNat = asid) && decide (e.va ≤ va) && decide (va < e.va + e.size)

def TlbEntry.mapping (e : TlbEntry) (va : Nat) : Mapping := ⟨e.pa + (va - e.va), e.r, e.w, e.u, e.kind⟩

/-- The slice of the second-level TLB that serves an address (R124). -/
def sliceOf (va : Nat) : Fin 8 := mkFin8 (((va / 2 ^ 21 % 8) ^^^ (va / 2 ^ 24 % 8)) ^^^ (va / 2 ^ 27 % 8))

/-- Installing a walked entry: in the requester's first level and in its slice, a 1 GiB page in all slices (R124). -/
def State.installTlb (s : State) (v : Viewer) (e : TlbEntry) : State :=
  let c := s.core v.die v.unit
  let s1 := s.setCore v.die v.unit { c with tlb := (e :: c.tlb).take 64 }
  if e.size = 2 ^ 30 then
    { s1 with dies := s1.dies.map (fun d => { d with slice := (e :: d.slice).take 16384 }) }
  else
    let d := sliceOf e.va
    s1.setDie d { s1.die d with slice := (e :: (s1.die d).slice).take 16384 }

/-- Finding a mapping: ranges, then PTROOT.EN = 0, then first level, slice, walk (R122-R125). The walker of the slice reads the
tables (R107, R124). -/
def State.lookup (s : State) (v : Viewer) (va : Nat) : Option Mapping × State :=
  match rangeHit s.rngb.toList s.rngl.toList va with
  | some m => (some m, s)
  | none =>
    if bitOf v.ptroot 0 then
      let asid := field v.ptroot 48 16
      match (s.core v.die v.unit).tlb.find? (fun e => e.hits asid va) with
      | some e => (some (e.mapping va), s)
      | none =>
        match (s.die (sliceOf va)).slice.find? (fun e => e.hits asid va) with
        | some e => (some (e.mapping va), s)
        | none =>
          let root := field v.ptroot 12 36 * 2 ^ 12
          let s1 := (walkReads s.mem va 5 root).foldl (fun t a => t.touchRegion (sliceOf va).val a false) s
          match walk s.mem va 5 root with
          | some e =>
            let e := { e with asid := BitVec.ofNat 16 asid }
            (some (e.mapping va), s1.installTlb v e)
          | none => (none, s1)
    else if v.sup && decide (va < 2 ^ 48) then
      (some ⟨va, true, true, true, match s.place va with
        | .device _ => 1
        | .dram => 0
        | .qspm _ _ _ => 0
        | .evu _ _ _ => 0
        | .hole => 0⟩, s)
    else (none, s)

/-- Whether the translation of an address walks and meets poison (R419). -/
def State.walkPoisoned (s : State) (v : Viewer) (va : Nat) : Bool :=
  (rangeHit s.rngb.toList s.rngl.toList va).isNone && bitOf v.ptroot 0 &&
  !(s.core v.die v.unit).tlb.any (fun e => e.hits (field v.ptroot 48 16) va) &&
  !(s.die (sliceOf va)).slice.any (fun e => e.hits (field v.ptroot 48 16) va) &&
  (walkReads s.mem va 5 (field v.ptroot 12 36 * 2 ^ 12)).any (fun a => s.poison.contains (a / 64))

/-- The permission check of R109 for a mapping found at level `sup` by a unit of `die`, `quad` (R106, R108, R123). -/
def State.permits (s : State) (v : Viewer) (k : AccKind) (isScalar : Bool) (m : Mapping) : Bool :=
  (!k.reads || m.r) && (!k.writes || m.w) && (v.sup || m.u) &&
  (m.kind = 0 || isScalar) &&
  (match s.place m.pa with
   | .qspm d q _ => decide (k ≠ .evld) && decide (d = v.die.val) && decide (q = quadOfUnit v.unit)
   | .evu d q _ => decide (k = .evld) && decide (d = v.die.val) && decide (q = quadOfUnit v.unit)
   | .dram => decide (k ≠ .evld)
   | .device _ => decide (k ≠ .evld) && decide (m.kind = 1)
   | .hole => decide (k ≠ .evld))

/-- The page-table entries that translate a list of addresses, as the TLBs hold them once the accesses are checked (R127). -/
def State.entriesFor (s : State) (v : Viewer) (vas : List Word) : List TlbEntry :=
  (vas.filterMap (fun a =>
    let va := a.toNat % 2 ^ 57
    if (rangeHit s.rngb.toList s.rngl.toList va).isSome || !bitOf v.ptroot 0 then none
    else
      let here (e : TlbEntry) : Bool := e.hits (field v.ptroot 48 16) va
      match (s.core v.die v.unit).tlb.find? here with
      | some e => some e
      | none => (s.die (sliceOf va)).slice.find? here)).eraseDups

/-- RCOMMITs that wait at the hub, in the order of their arrival (R126). -/
def State.committing (s : State) : List CtxId :=
  s.commits.filter (fun u => decide ((s.ctx u).status = .live) && decide ((s.ctx u).wait = some .commit))

/-- No cause: the translation of the access stalls, because it goes through ranges and an RCOMMIT waits (R126). -/
def causeStall : BitVec 8 := 0x00

/-- The checks of R109 on one access: the mapping, or the cause of the first failed check; UNCORRECTABLE where the walk reads
poison (R419). TVAL is the address. -/
def State.check (s : State) (v : Viewer) (k : AccKind) (isScalar : Bool) (va : Word) (size : Nat) :
    Except (BitVec 8) Mapping × State :=
  if va.toNat % size ≠ 0 then (.error causeMisaligned, s)
  else if !(field va 56 8 = 0 || field va 56 8 = 255) then (.error causeTranslation, s)
  else if !s.committing.isEmpty && (rangeHit s.rngb.toList s.rngl.toList (va.toNat % 2 ^ 57)).isSome then (.error causeStall, s)
  else if s.walkPoisoned v (va.toNat % 2 ^ 57) then (.error causeUncorrectable, s)
  else
    match s.lookup v (va.toNat % 2 ^ 57) with
    | (none, s1) => (.error causeTranslation, s1)
    | (some m, s1) =>
      if !s1.permits v k isScalar m then (.error causePermission, s1)
      else match s1.place m.pa with
        | .hole => (.error causeRange, s1)
        | .dram => (.ok m, s1)
        | .qspm _ _ _ => (.ok m, s1)
        | .evu _ _ _ => (.ok m, s1)
        | .device _ => (.ok m, s1)

end Sys2Proof.Machine
end

