-- ==== Sys2Proof/Machine/Ops.lean ====
section
/-! DEFINITION. The named operations the meanings are built from: the issuing context and its registers, how an
instruction ends, error records and halting, chunks' versions and sewing, taking an exception and returning from one,
and loads and stores of a context. -/

namespace Sys2Proof.Machine

/-! ## The issuing context -/

def State.me (s : State) : Ctx := s.ctx s.cur
def State.upd (s : State) (f : Ctx → Ctx) : State := s.updCtx s.cur f

/-- A scalar register as an instruction reads it: s0 reads as zero (R85). -/
def Ctx.x (c : Ctx) (r : BitVec 5) : Word := if r = 0 then 0 else c.regs[r.toNat]'r.isLt

/-- Writing a scalar register: a write to s0 is discarded (R85). In a chunk the register counts as written (R173). -/
def Ctx.setX (c : Ctx) (r : BitVec 5) (v : Word) : Ctx :=
  if r = 0 then c
  else { c with
    regs := c.regs.set r.toNat v r.isLt
    chunk := c.chunk.map (fun ch => { ch with written := ch.written ||| (1#32 <<< r.toNat) }) }

def State.x (s : State) (r : BitVec 5) : Word := s.me.x r

/-- A mask register: k0 reads as all ones (R131). -/
def Ctx.k (c : Ctx) (r : BitVec 3) : BitVec 1024 := if r = 0 then BitVec.allOnes 1024 else c.masks[r.toNat]'r.isLt

/-- Writing a mask register: a write to k0 is discarded (R131). -/
def Ctx.setK (c : Ctx) (r : BitVec 3) (v : BitVec 1024) : Ctx :=
  if r = 0 then c else { c with masks := c.masks.set r.toNat v r.isLt }

def Ctx.v (c : Ctx) (r : BitVec 5) : VReg := c.vregs[r.toNat]'r.isLt
def Ctx.setV (c : Ctx) (r : BitVec 5) (v : VReg) : Ctx := { c with vregs := c.vregs.set r.toNat v r.isLt }

/-- Sticky flags set by scalar, FAMO and tile work, and by the vector unit's lanes (R70). -/
def Ctx.orF (c : Ctx) (f : Flags) : Ctx := { c with csr := { c.csr with fflg := c.csr.fflg ||| f } }
def Ctx.orV (c : Ctx) (f : Flags) : Ctx := { c with csr := { c.csr with vflg := c.csr.vflg ||| f } }

/-- An event counter of the context, counting when TRCCTL lets it (R376, R381); `n` is the counter's number. -/
def Ctx.counting (c : Ctx) : Bool := bitOf c.csr.trcctl 2 && (!bitOf c.csr.trcctl 3 || bitOf c.csr.trcctl 4)

def pmcAdd (p : Vector Word 15) (i amount : Nat) : Vector Word 15 :=
  p.set (i % 15) (p[i % 15]'(Nat.mod_lt _ (by decide)) + BitVec.ofNat 64 amount) (Nat.mod_lt _ (by decide))

def Ctx.count (c : Ctx) (n amount : Nat) : Ctx :=
  if c.counting && decide (amount ≠ 0) then { c with csr := { c.csr with pmc := pmcAdd c.csr.pmc (n - 1) amount } } else c

/-! ## Energy (R348, R349) -/

/-- A debit from the allowance that governs a unit; it saturates at the most negative 32-bit value. -/
def State.debit (s : State) (u : CtxId) (units : Nat) : State :=
  let r := s.ringOf u
  (s.setRingOf u { r with ealw := max (-(2 ^ 31)) (r.ealw - units) }).updCtx u (fun c => c.count 13 units)

/-! ## How an instruction ends -/

/-- The context has executed its instruction: PC + 4, no longer waiting. -/
def Ctx.advance (c : Ctx) : Ctx := { c with pc := c.pc + 4, wait := none }

def State.advance (s : State) : State := s.upd Ctx.advance

/-- Executed with a scalar result (R92). -/
def State.retire (s : State) (d : BitVec 5) (v : Word) : State := s.upd (fun c => (c.setX d v).advance)

/-- Executed with a control transfer. -/
def State.jump (s : State) (pc : Word) : State := s.upd (fun c => { c with pc := pc, wait := none })

/-- The instruction does not issue: the context is not ready and its PC stands (R29, R88). -/
def State.hold (s : State) (k : WaitKind) : State :=
  s.upd (fun c => { c with wait := some k, blocked := if c.wait = some k then c.blocked else s.time })

/-! ## Error records (R388, R389) -/

/-- A unit path (R387). -/
def unitPath (pkg die quad unit array bank row : Nat) : BitVec 64 :=
  place 46 18 pkg ||| place 42 4 die ||| place 37 5 quad ||| place 34 3 unit ||| place 28 6 array ||| place 18 10 bank ||| place 0 18 row

structure ErrInfo where
  path   : BitVec 64
  rin    : BitVec 32
  cls    : Nat
  action : Nat
  synd   : BitVec 64
  info1  : Word
  info2  : Word
deriving DecidableEq, Repr

def State.domId (s : State) : BitVec 16 := (s.domain.map (·.domid)).getD 0

/-- Whether a record concerns the rollback domain: it names an interval, or its error rolls the domain back or is fatal to it. -/
def ErrInfo.inDomain (e : ErrInfo) : Bool := decide (e.rin ≠ 0) || decide (e.action = 1) || decide (e.action = 2)

/-- The 64 bytes of an error record (R388). -/
def State.errRecord (s : State) (e : ErrInfo) (seq : Word) : BitVec 512 :=
  BitVec.ofNat 512 (ofBytes (
    bytesOf 8 e.path.toNat ++ bytesOf 8 s.time ++ bytesOf 4 e.rin.toNat ++
    bytesOf 2 (if e.inDomain then s.domId.toNat else 0) ++ bytesOf 1 e.cls ++ bytesOf 1 e.action ++
    bytesOf 8 e.synd.toNat ++ bytesOf 8 e.info1.toNat ++ bytesOf 8 e.info2.toNat ++ bytesOf 8 seq.toNat ++ bytesOf 8 0))

def recAction (r : BitVec 512) : Nat := field r 184 8
def recSeq (r : BitVec 512) : Nat := field r 384 64

/-- The slot of the oldest unconsumed record of action 0, among the listed slots. -/
def oldestRepairable (ack : Nat) : Table (BitVec 512) → Option (Nat × Nat) → Option (Nat × Nat)
  | [], best => best
  | (i, r) :: t, best =>
    let better := match best with
      | none => true
      | some b => decide (recSeq r < b.2)
    if recAction r = 0 && decide (ack ≤ recSeq r) && better then oldestRepairable ack t (some (i, recSeq r))
    else oldestRepairable ack t best

/-- Storing an error record in the hub, dropping or replacing when the store is full (R389). -/
def State.writeError (s : State) (e : ErrInfo) : State :=
  let h := s.hub
  let r := s.errRecord e h.errhead
  if h.errhead - h.errack < 8192 then
    { s with hub := { h with errors := Table.put h.errors (h.errhead.toNat % 8192) r, errhead := h.errhead + 1 } }
  else if e.action = 0 then { s with hub := { h with errlost := h.errlost + 1 } }
  else match oldestRepairable h.errack.toNat h.errors none with
    | none => { s with hub := { h with errlost := h.errlost + 1 } }
    | some (i, _) =>
      { s with hub := { h with errors := Table.put h.errors i r, errhead := h.errhead + 1, errlost := h.errlost + 1 } }

/-- The unit path of a context's unit; ARRAY 0x3F, logic. -/
def State.pathOf (s : State) (u : CtxId) : BitVec 64 :=
  unitPath s.pkg.toNat u.die.val u.quad (unitInQuad u.unit.val) 0x3F 0 0

/-! ## Halting (R361) -/

/-- The context is halted and its die agent writes the record of class halt. Its trap CSRs stay as they are. -/
def State.halt (s : State) (u : CtxId) (cause : BitVec 8) (val pc : Word) : State :=
  let c := s.ctx u
  (s.setCtx u { c with status := .halted, wait := none }).writeError
    ⟨s.pathOf u, c.rin, 3, 3, cause.setWidth 64, val, pc⟩

/-! ## Chunks, versions, sewing (R177-R187) -/

/-- Whether the context runs a chunk that is not the oldest (R26). -/
def State.basted (s : State) (u : CtxId) : Bool :=
  match (s.ctx u).chunk with
  | none => false
  | some ch =>
    match s.fork (s.forkIdOf u) with
    | none => false
    | some f => decide (ch.number ≠ f.info.oldest)

/-- The key by which a context's own writes are known to its fork. -/
def State.ownFork (s : State) (u : CtxId) : Option Nat :=
  if (s.ctx u).chunk.isSome then some (s.forkIdOf u).key else none

def Chunk.version (ch : Chunk) (sector : Nat) : Option Version := ch.versions.find? (fun v => v.sector = sector)

def Chunk.putVersion (ch : Chunk) (v : Version) : Chunk :=
  if ch.versions.any (fun x => x.sector = v.sector) then
    { ch with versions := ch.versions.map (fun x => if x.sector = v.sector then v else x) }
  else { ch with versions := ch.versions ++ [v] }

/-- Bit mask of bytes `[off, off + n)` of a sector. -/
def byteMask (off n : Nat) : BitVec 64 := BitVec.ofNat 64 ((2 ^ n - 1) * 2 ^ off)

/-- Widening a byte mask of a sector to its bits. -/
def spreadMask (m : BitVec 64) : Nat → BitVec 512
  | 0 => 0
  | n + 1 => spreadMask m n ||| (if m.getLsbD n then BitVec.ofNat 512 (255 * 2 ^ (8 * n)) else 0)

/-- `old` with the masked bytes taken from `new`. -/
def mergeBytes (m : BitVec 64) (old new : BitVec 512) : BitVec 512 :=
  (old &&& ~~~(spreadMask m 64)) ||| (new &&& spreadMask m 64)

/-- The runs of stored bytes of a version, as addresses and bytes. -/
def maskedStores (base : Nat) (bm : BitVec 64) (data : BitVec 512) : List (Nat × Byte) :=
  (List.range 64).filterMap (fun i => if bm.getLsbD i then some (base + i, (data >>> (8 * i)).setWidth 8) else none)

/-- Making a version's stored bytes committed stores with the chunk's RIN (R185). -/
def State.sewVersion (own : Option Nat) (rin : BitVec 32) (s : State) (v : Version) : State :=
  (maskedStores (64 * v.sector) v.bm v.data).foldl (fun t ab => t.store own rin ab.1 [ab.2]) s

/-- Sewing through the chunk of a context (R187): once, its stores so far become committed. No effect elsewhere. -/
def State.sewThrough (s : State) (u : CtxId) : State :=
  match (s.ctx u).chunk with
  | none => s
  | some ch =>
    if ch.through then s
    else
      let s1 := (ch.versions.filter (·.w)).foldl (fun t v => (State.sewVersion (s.ownFork u) (s.ctx u).rin t v).touchRegion u.die.val (64 * v.sector) true) s
      s1.updCtx u (fun c => { c with chunk := c.chunk.map (fun ch => { ch with versions := [], through := true, request := none }) })

/-- Whether the undo log has room for what sewing the context's chunk would write (R317, R318). -/
def State.maySew (s : State) (u : CtxId) : Bool :=
  match (s.ctx u).chunk with
  | none => true
  | some ch => s.mayLogAll (s.ctx u).rin ((ch.versions.filter (·.w)).map (·.sector))

/-- Asking the undo writers for what sewing would need (R317). -/
def State.askSew (s : State) (u : CtxId) : State :=
  match (s.ctx u).chunk with
  | none => s
  | some ch => s.askLogAll (s.ctx u).rin ((ch.versions.filter (·.w)).map (·.sector))

/-- A store notice leaves a chunk for the next younger one (R179). -/
def State.sendNotice (s : State) (u : CtxId) (n : Notice) : State :=
  let f := s.forkIdOf u
  match s.fork f with
  | none => s
  | some x => if n.target < x.started then s.setFork f { x with notices := x.notices ++ [n] } else s

/-! ## Trace entries outside vector instructions (R377, R380) -/

/-- A free value, and the state in which the next one is another. -/
def State.fresh (s : State) : Word × State := (Config.freeValue s.free, { s with free := s.free + 1 })

/-- Whether an entry's number is at or after another's. -/
def entryReached (x e : BitVec 256) : Bool := decide ((field x 49 15 + 2 ^ 15 - field e 49 15) % 2 ^ 15 < 2 ^ 14)

/-- An entry at its position: before the entries that have later numbers. -/
def insertEntry (e : BitVec 256) : List (BitVec 256) → List (BitVec 256)
  | [] => [e]
  | x :: xs => if entryReached x e then e :: x :: xs else x :: insertEntry e xs

/-- A trace entry enters its core's buffer; when no place is free the oldest undrained one is dropped. -/
def State.pushEntry (s : State) (d : Fin 8) (unit : Nat) (e : BitVec 256) : State :=
  let c := s.core d unit
  if c.entries.length < 256 then s.setCore d unit { c with entries := insertEntry e c.entries }
  else s.setCore d unit { c with
    entries := insertEntry e (c.entries.drop 1)
    lost := if bitOf (s.die d).trcbase 0 then setField c.lost 0 32 (field c.lost 0 32 + 1) else c.lost }

/-- A pipe event enters its core's buffer. -/
def State.pushEvent (s : State) (d : Fin 8) (unit : Nat) (e : BitVec 64) : State :=
  let c := s.core d unit
  if c.events.length < 1024 then s.setCore d unit { c with events := c.events ++ [e] }
  else s.setCore d unit { c with
    events := c.events.drop 1 ++ [e]
    lost := if bitOf (s.die d).trcbase 0 then setField c.lost 32 32 (field c.lost 32 32 + 1) else c.lost }

/-- Slot, type and sequence number of an entry. -/
def entryBits (slot ty : Nat) (seq : BitVec 32) : Word := place 24 2 slot ||| place 26 2 ty ||| place 49 15 seq.toNat

/-- A gap (1), mark (2) or unpick notice (3): what R377 does not give for its type is a free value. -/
def State.pushOther (s : State) (u : CtxId) (ty : Nat) (known : Word) (knownMask : Word) (first last ptr ptrMask : Word) : State :=
  let core := s.core u.die u.unit.val
  let s1 := s.setCore u.die u.unit.val { core with seq := core.seq + 1 }
  let f1 := s1.fresh
  let f2 := f1.2.fresh
  let always := entryBits u.slot.val ty core.seq
  let fixedMask : Word := 0xFFFE0000CF000000 ||| knownMask
  let w0 := always ||| (known &&& knownMask) ||| (f1.1 &&& ~~~fixedMask)
  let w3 := (ptr &&& ptrMask) ||| (f2.1 &&& ~~~ptrMask)
  f2.2.pushEntry u.die u.unit.val (w3 ++ last ++ first ++ w0)

/-! ## Unpicking (R175, R181) -/

/-- How many chunks of a fork are sewn. -/
def Fork.sewn (x : Fork) : Nat := x.token.getD x.info.oldest

def squashIndex (c : SquashCause) : Fin 4 :=
  match c with
  | .mem => 0
  | .liv => 1
  | .cap => 2
  | .oth => 3

/-- SQCNT after `n` chunks more of a cause; each field saturates (R168). -/
def addSquash (v : Vector Nat 4) (c : SquashCause) (n : Nat) : Vector Nat 4 :=
  v.set (squashIndex c).val (min 0xFFFF (v[(squashIndex c).val]'(squashIndex c).isLt + n)) (squashIndex c).isLt

def packSq (v : Vector Nat 4) : Word := place 0 16 v[0] ||| place 16 16 v[1] ||| place 32 16 v[2] ||| place 48 16 v[3]

/-- The context that holds the thread state of a fork: the oldest chunk's. -/
def State.oldestCtx (s : State) (f : ForkId) (x : Fork) : CtxId := s.chunkCtx f x x.info.oldest

/-- Live SQCNT of a forked thread, which passes with the token (R169, R185). -/
def State.liveSq (s : State) (f : ForkId) (x : Fork) : Vector Nat 4 :=
  match x.handover with
  | some c => c.sqcnt
  | none => (s.ctx (s.oldestCtx f x)).sqcnt

/-- An incoming state that the chunk keeps, with the one register replaced. -/
def replaceIncoming (l : List (BitVec 5 × Incoming)) (r : Option (BitVec 5 × Incoming)) : List (BitVec 5 × Incoming) :=
  match r with
  | none => l
  | some (reg, i) => l.map (fun p => if p.1 = reg then (reg, i) else p)

/-- Stopping one unpicked chunk: its context is free again, with an unpick notice of its core (R377). -/
def State.stopChunk (s : State) (u : CtxId) (k : Nat) (sq : Word) : State :=
  let s1 := s.setCtx u { Ctx.idle with last := (s.ctx u).last }
  s1.pushOther u 3 0 0 (BitVec.ofNat 64 k) sq 0 0

/-- Unpicking chunk `j` and every younger live chunk of a fork (R181): they are counted, stopped, and start again; `j`
keeps its incoming states but for the one replaced (R175). -/
def State.unpickNow (s : State) (f : ForkId) (j : Nat) (cause : SquashCause) (r : Option (BitVec 5 × Incoming)) : State :=
  match s.fork f with
  | none => s
  | some x =>
    if x.started ≤ j then s
    else
      let n := x.started - j
      let sq := addSquash (s.liveSq f x) cause n
      let first := s.chunkCtx f x j
      let kept := replaceIncoming (((s.ctx first).chunk.map (·.incoming)).getD []) r
      let s1 := match x.handover with
        | some _ => s
        | none => s.updCtx (s.oldestCtx f x) (fun c => { c with sqcnt := sq })
      let s2 := (List.range (j - x.sewn)).foldl (fun t i => t.updCtx (s.chunkCtx f x (x.sewn + i)) (fun c => c.count 11 n)) s1
      let s3 := (List.range n).foldl (fun t i => t.stopChunk (s.chunkCtx f x (j + i)) (j + i) (packSq sq)) s2
      s3.setFork f { x with
        started := j
        kept := x.kept.filter (fun p => decide (p.1 < j)) ++ [(j, kept)]
        given := x.given.filter (fun p => decide (p.1 < j))
        notices := x.notices.filter (fun m => decide (m.target < j))
        forwards := x.forwards.filter (fun w => decide (w.target ≤ j))
        handover := x.handover.map (fun c => { c with sqcnt := sq }) }

/-- Performing the unpick of a fork that is due: the value that it replaces stays with the chunk (R175). -/
def State.settleDue (s : State) (f : ForkId) : State :=
  match s.fork f with
  | none => s
  | some x =>
    match x.due with
    | none => s
    | some d => (s.setFork f { x with due := none }).unpickNow f d.1 d.2.1 d.2.2

/-- An unpick by another cause than the one that is due, which comes first. -/
def State.unpickFrom (s : State) (f : ForkId) (j : Nat) (cause : SquashCause) (r : Option (BitVec 5 × Incoming)) : State :=
  (s.settleDue f).unpickNow f j cause r

/-- Unpicking every chunk but the oldest. -/
def State.unpickYounger (s : State) (u : CtxId) (cause : SquashCause) : State :=
  match (s.ctx u).chunk with
  | none => s
  | some ch => s.unpickFrom (s.forkIdOf u) (ch.number + 1) cause none

/-- What a thread's contexts hand on with the commit token beside TRB, the pending copy fault and SQCNT (R185): the
thread's slots, pending message fault, interval and what else belongs to the thread as a whole. -/
def Ctx.takeThread (c h : Ctx) : Ctx :=
  { c with
    trb := h.trb
    copyFault := h.copyFault
    msgFault := h.msgFault
    sqcnt := h.sqcnt
    slots := h.slots
    rin := h.rin
    dom := h.dom
    sealing := h.sealing
    arrived := h.arrived
    pressed := h.pressed
    rollcnt := h.rollcnt
    snaps := h.snaps
    cwa := h.cwa
    issuer := h.issuer
    aff := h.aff
    codeid := h.codeid
    gswDue := h.gswDue
    relFence := h.relFence
    born := h.born
    csr := { c.csr with ipend := h.csr.ipend } }

/-- The commit token of a fork, on its way, reaches its chunk (R185). -/
def State.landToken (s : State) (f : ForkId) : State :=
  match s.fork f with
  | none => s
  | some x =>
    match x.token, x.handover with
    | some k, some h =>
      if x.started ≤ k then s
      else (s.setFork f { x with
        info := { x.info with oldest := k }
        token := none
        handover := none
        due := x.due.filter (fun d => decide (k < d.1)) }).updCtx (s.chunkCtx f x k) (fun c => c.takeThread h)
    | _, _ => s

/-! ## Taking an exception and returning (R359-R363) -/

/-- Trap entry proper (R360): the one place where a context enters its handler. `p` is the saved pc, `epx` the restart
pattern the stop records. An entry that is no legal instruction address halts the context, its registers as they were (log 131). -/
def State.enter (s : State) (u : CtxId) (interrupt deferred : Bool) (cause : BitVec 8) (val p epx : Word) : State :=
  let s1 := s.sewThrough u
  let c := s1.ctx u
  let target : Word := (c.csr.trapv.setWidth 64) * 256 + (if interrupt then 0x100 else 0)
  if !interrupt && c.csr.exl then s.halt u cause val p
  else if target.toNat ≥ istoreSize u.unit.val then s1.halt u cause val p
  else
    let c1 := c.count 15 1
    s1.setCtx u { c1 with
      sup := true
      pc := target
      epx := epx
      rst := 0
      prior := 0
      joinFirst := false
      wait := none
      evld := none
      watch := []
      woken := false
      csr := { c1.csr with
        xpc := p
        tcause := cause.setWidth 10 ||| (if interrupt then 0x100 else 0) ||| (if deferred then 0x200 else 0)
        tval := val
        plvl := c.sup
        pie := c.csr.ie
        ie := false
        exl := true } }

/-- A synchronous trap of the issuing context's instruction (R358): in a basted chunk it is recorded and the chunk stops
(R191), else it is taken. -/
def State.raiseEpx (s : State) (cause : BitVec 8) (val epx : Word) : State :=
  if s.basted s.cur then
    s.upd (fun c => { c with wait := some .poll, chunk := c.chunk.map (fun ch => { ch with trap := some ⟨cause, val, c.pc, epx⟩ }) })
  else s.enter s.cur false false cause val s.me.pc epx

def State.raise (s : State) (cause : BitVec 8) (val : Word) : State := s.raiseEpx cause val 0

/-- ILLEGAL-OPERAND whose rule names no value (R355). -/
def State.illegalOperand (s : State) : State := s.raise causeIllegalOperand 0

/-- The join label of the join phase that the issuing context is in, local or at ring level (R201). -/
def State.joinLabel (s : State) : Option Word :=
  match s.me.inner with
  | some i => if i.joining then some i.join else none
  | none => if s.me.joinPhase then (s.fork (s.forkIdOf s.cur)).map (fun x => x.info.join) else none

/-- Return from an exception (R363) at S level: the level, IE and pc of before; `rst` is the restart pattern under which
the context goes on (R148). An XPC that is no instruction address traps. -/
def State.eret (s : State) (rst : Word) : State :=
  let t := s.me.csr.xpc
  if t.toNat % 4 ≠ 0 then s.raise causeMisaligned t
  else if t.toNat ≥ istoreSize s.cur.unit.val then s.raise causeRange t
  else s.upd (fun c => { c with
    sup := c.csr.plvl
    pc := t
    epx := 0
    rst := rst
    prior := 0
    joinFirst := s.joinLabel = some t
    wait := none
    csr := { c.csr with ie := c.csr.pie, exl := false } })

/-! ## Results of a part of an instruction -/

/-- What a part of an instruction can come to: a value, a trap, a wait, or the halting of the context by poison (R419). -/
inductive Got (α : Type) where
  | ok (a : α) (s : State)
  | trap (cause : BitVec 8) (val : Word) (s : State)
  | wait (k : WaitKind) (s : State)
  | poisoned (s : State)

def Got.bind {α β : Type} (g : Got α) (f : α → State → Got β) : Got β :=
  match g with
  | .ok a s => f a s
  | .trap c v s => .trap c v s
  | .wait k s => .wait k s
  | .poisoned s => .poisoned s

/-- The context in which a thread halts: a forked thread's oldest chunk (R332), else the context itself. -/
def State.threadCtx (s : State) (u : CtxId) : CtxId :=
  match (s.ctx u).chunk with
  | none => u
  | some _ =>
    match s.fork (s.forkIdOf u) with
    | none => u
    | some x => s.oldestCtx (s.forkIdOf u) x

/-- Halting a thread for an uncorrectable error (R332, R419): cause UNCORRECTABLE, TVAL 0, XPC the resume point; of a
forked thread every younger chunk stops, and a commit token on its way comes first. An EVLD that waits at an event unit stays there
(log 125). -/
def State.haltUncorrectable (s : State) (u : CtxId) (e : Word → ErrInfo) : State :=
  let s0 := if (s.ctx u).chunk.isSome then s.landToken (s.forkIdOf u) else s
  let h := s0.threadCtx u
  let s1 := s0.unpickYounger h .oth
  let c := s1.ctx h
  let s2 := s1.setCtx h { c with
    status := .halted
    wait := none
    csr := { c.csr with tcause := causeUncorrectable.setWidth 10, tval := 0, xpc := c.pc } }
  s2.writeError (e c.pc)

/-- Halting for a read of a poisoned sector (R419). -/
def State.haltPoisoned (s : State) (u : CtxId) : State :=
  s.haltUncorrectable u (fun pc => ⟨s.pathOf u, (s.ctx u).rin, 3, 6, causeUncorrectable.setWidth 64, 0, pc⟩)

/-- The next state a part comes to: its value handled by `f`, a trap taken, a wait held. -/
def Got.finish {α : Type} (g : Got α) (f : α → State → State) : State :=
  match g with
  | .ok a s => f a s
  | .trap c v s => s.raise c v
  | .wait k s => s.hold k
  | .poisoned s => s.haltPoisoned s.cur

/-! ## Loads and stores of the issuing context -/

/-- Checking an access of the issuing context (R109). -/
def State.checkMine (s : State) (k : AccKind) (isScalar : Bool) (va : Word) (size : Nat) : Got Mapping :=
  match s.check (s.viewer s.cur) k isScalar va size with
  | (.ok m, s1) => .ok m s1
  | (.error c, s1) =>
    if c = causeStall then .wait .poll s1 else if c = causeUncorrectable then .poisoned s1 else .trap c va s1

/-- A version request leaves a chunk (R178, R179). -/
def State.askVersion (s : State) (sector : Nat) (rd : Bool) : State :=
  s.upd (fun c => { c with chunk := c.chunk.map (fun ch => { ch with request := some (sector, rd) }) })

/-- Reading `n` bytes of one sector at a normal or QSPM address (R110, R178). -/
def State.readPa (s : State) (pa n : Nat) : Got (List Byte) :=
  let committed : Got (List Byte) :=
    if s.isPoisoned pa n then .poisoned s
    else .ok (memRead s.mem pa n) (s.touchRegion s.cur.die.val pa false)
  match s.me.chunk with
  | none => committed
  | some ch =>
    match ch.version (pa / 64) with
    | some v =>
      let m := byteMask (pa % 64) n
      let s1 := if s.basted s.cur && decide (m &&& ~~~v.bm ≠ 0) then
          s.upd (fun c => { c with chunk := c.chunk.map (fun ch => ch.putVersion { v with rd := true }) })
        else s
      .ok (bytesOf n (v.data.toNat / 2 ^ (8 * (pa % 64)))) s1
    | none => if s.basted s.cur then .wait .poll (s.askVersion (pa / 64) true) else committed

/-- A store of a chunk into its version of a sector, the masked bytes of `d`: SC rises by 1 and one notice leaves (R179). -/
def State.storeVersion (s : State) (ch : Chunk) (v : Version) (m : BitVec 64) (d : BitVec 512) : State :=
  let v' := { v with w := true, bm := v.bm ||| m, sc := v.sc + 1, data := mergeBytes m v.data d }
  (s.upd (fun c => { c with chunk := some (ch.putVersion v') })).sendNotice s.cur
    ⟨ch.number + 1, v.sector, m, d, some (ch.number, v.sc + 1)⟩

/-- A committed store of the issuing context, by the fork `own` if it is forked. -/
def State.storeMine (s : State) (pa : Nat) (bs : List Byte) : State :=
  (s.store (s.ownFork s.cur) s.me.rin pa bs).touchRegion s.cur.die.val pa true

/-- Storing bytes within one sector at a normal or QSPM address (R110, R179, R187): in a chunk into its version, else
committed. It waits for a version, or for room in the undo log (R317, R318). -/
def State.writePa (s : State) (pa : Nat) (bs : List Byte) : Got Unit :=
  match s.me.chunk with
  | none => if s.mayLog s.me.rin pa bs.length then .ok () (s.storeMine pa bs) else .wait .poll (s.askLog s.me.rin pa bs.length)
  | some ch =>
    let m := byteMask (pa % 64) bs.length
    let d := BitVec.ofNat 512 (ofBytes bs * 2 ^ (8 * (pa % 64)))
    if ch.through then
      (if s.mayLog s.me.rin pa bs.length then .ok () ((s.storeMine pa bs).sendNotice s.cur ⟨ch.number + 1, pa / 64, m, d, none⟩)
       else .wait .poll (s.askLog s.me.rin pa bs.length))
    else match ch.version (pa / 64) with
      | some v => .ok () (s.storeVersion ch v m d)
      | none => .wait .poll (s.askVersion (pa / 64) false)

/-- PMC8 counts QSPM accesses (R381). -/
def State.qspmAccess (s : State) (pa : Nat) : Nat :=
  match s.place pa with
  | .qspm _ _ _ => 1
  | .dram => 0
  | .evu _ _ _ => 0
  | .device _ => 0
  | .hole => 0

def State.countQspm (s : State) (pa : Nat) : State := if s.qspmAccess pa = 0 then s else s.upd (fun c => c.count 8 1)

/-- An issued store is outstanding until its coherence point acknowledges it (R117). -/
def Ctx.addStore (c : Ctx) (fl : Flags) : Ctx := { c with accs := c.accs ++ [⟨true, fl⟩] }

/-- An issued atomic, which sets its flags when it completes (R235). -/
def Ctx.addAtomic (c : Ctx) (fl : Flags) : Ctx := { c with accs := c.accs ++ [⟨false, fl⟩] }

/-- Requests of a context not yet completed, of the store class and of the load class (R117, R278). -/
def Req.isLoad (r : Req) : Bool :=
  match r.kind with
  | .get _ _ _ => true
  | .ramo _ _ _ _ _ _ => true
  | .put _ _ => false
  | .send _ => false
  | .pairs _ => false
  | .flush => false
  | .start _ _ => false

/-- A request counts as acknowledged once it is in the egress hold (R325). -/
def Req.inHold (r : Req) : Bool :=
  match r.stage with
  | .held _ => true
  | .timed _ => false
  | .flying => false
  | .performed => false
  | .answered _ _ _ => false
  | .refused _ => false
  | .stale => false

/-- A SENDT that waits for its PHASE has not issued (R268). -/
def Req.issued (r : Req) : Bool :=
  match r.stage with
  | .timed _ => false
  | .held _ => true
  | .flying => true
  | .performed => true
  | .answered _ _ _ => true
  | .refused _ => true
  | .stale => true

def State.mine (s : State) (u : CtxId) : List Req := s.net.filter (fun r => decide (r.src = some (.here u)) && r.issued)

/-- What goes with a thread that moves: its requests, its held device stores, the mutexes it has taken. -/
def State.moveThread (s : State) (a b : Holder) : State :=
  { s with
    net := s.net.map (fun r => if r.src = some a then { r with src := some b } else r)
    dies := s.dies.map (fun d => { d with holds := d.holds.map (fun h => if h.who = a then { h with who := b } else h) })
    owners := s.owners.map (fun kh => (kh.1, if kh.2 = a then b else kh.2)) }

/-- The most requests of a class that a context may have outstanding (R117). -/
def classLimit : Nat := 31

/-- The device stores of a context that the egress hold of its die keeps (R325). -/
def State.heldStores (s : State) (u : CtxId) : List HeldStore := (s.die u.die).holds.filter (fun h => decide (h.who = .here u))

def State.storeCount (s : State) (u : CtxId) : Nat :=
  ((s.ctx u).accs.filter (·.isStore)).length + ((s.ctx u).vecs.filter (·.isStore)).length + ((s.mine u).filter (fun r => !r.isLoad)).length +
    (s.heldStores u).length

def State.loadCount (s : State) (u : CtxId) : Nat :=
  ((s.ctx u).vecs.filter (·.isLoad)).length + ((s.mine u).filter Req.isLoad).length

/-- Outstanding requests of a slot (R261 OUTST). -/
def State.outst (s : State) (u : CtxId) (ds : BitVec 4) : Nat :=
  ((s.mine u).filter (fun r => r.ds = ds && (match r.kind with
    | .start _ _ => false
    | .put _ _ => true
    | .send _ => true
    | .get _ _ _ => true
    | .ramo _ _ _ _ _ _ => true
    | .pairs _ => true
    | .flush => true))).length

/-! ## The scope checker (R383) -/

/-- A release write tags its line with the scope and the unit. -/
def State.tagLine (s : State) (pa : Nat) (sc : BitVec 3) : State :=
  if bitOf s.me.csr.scopechk 0 then
    { s with lines := Table.put s.lines (pa / 128) (s.endpoint s.cur.die s.cur.unit.val, sc) } else s

/-- A store instruction, by the addresses that it writes: the first after a FENCE.rel is a release write of every line. -/
def State.noteStores (s : State) (pas : List Nat) : State :=
  match s.me.relFence, pas with
  | none, _ => s
  | some _, [] => s
  | some sc, _ => (pas.foldl (fun t pa => t.tagLine pa sc) s).upd (fun c => { c with relFence := none })

def State.noteStore (s : State) (pa : Nat) : State := s.noteStores [pa]

/-- Line of a virtual address, as SCOPECHK.LINE holds it. -/
def lineOfVa (va : Word) : Nat := field va 7 50

/-- A load of a tagged line, which a later acquire fence makes an acquiring read. -/
def State.noteLoad (s : State) (va : Word) (pa : Nat) : State :=
  if bitOf s.me.csr.scopechk 0 then
    (match Table.find s.lines (pa / 128) with
     | none => s
     | some t => s.upd (fun c => { c with seen := c.seen ++ [(lineOfVa va, t.1, t.2)] }))
  else s

/-- Recording a mismatch, unless one stands. -/
def Ctx.mismatch (c : Ctx) (rsc : BitVec 3) (need line : Nat) : Ctx :=
  if bitOf c.csr.scopechk 1 then c
  else { c with csr := { c.csr with scopechk :=
    (Machine.place 0 2 3 ||| Machine.place 2 3 rsc.toNat ||| Machine.place 5 3 need ||| Machine.place 8 50 line).setWidth 58 } }

/-- A read of a tagged line as an acquire at scope `sc`: a pair that does not synchronise is a mismatch (R292). -/
def State.checkRead (s : State) (sc : Nat) (c : Ctx) (x : Nat × BitVec 32 × BitVec 3) : Ctx :=
  let need := s.scopeBetween x.2.1 (s.endpoint s.cur.die s.cur.unit.val)
  if bitOf c.csr.scopechk 0 && (decide (x.2.2.toNat < need) || decide (sc < need)) then c.mismatch x.2.2 need x.1 else c

/-- An acquire fence at scope `sc`: everything read since the last one is checked. -/
def State.acquire (s : State) (sc : Nat) : State := s.upd (fun c => { c.seen.foldl (s.checkRead sc) c with seen := [] })

/-- A read that is itself an acquire (R289): it is checked alone, and a later acquire fence covers it as well. -/
def State.acquireLine (s : State) (sc : Nat) (va : Word) (pa : Nat) : State :=
  (match Table.find s.lines (pa / 128) with
   | none => s
   | some t => s.upd (fun c => s.checkRead sc c (lineOfVa va, t.1, t.2))).noteLoad va pa

/-- Oldest-chunk work that an irrevocable instruction needs first (R188): a basted chunk waits; the oldest chunk is sewn
through. `f` then acts. -/
def State.irrevocably (s : State) (f : State → State) : State :=
  if s.basted s.cur then s.hold .poll
  else if s.maySew s.cur then f (s.sewThrough s.cur) else (s.askSew s.cur).hold .poll

/-! ## Snapshots and the seal gate (R321, R322) -/

/-- The interval after `r` (R314, R321). -/
def nextRin (r : BitVec 32) : BitVec 32 := if r = 0xFFFFFFFF then 1 else r + 1

/-- `a` at or after `b` in the order of intervals, which wraps (R314). -/
def rinReached (a b : BitVec 32) : Bool := decide ((a - b).toNat < 2 ^ 31)

/-- Whether interval `r` is later than the sealed interval `s`. -/
def rinAfter (r s : BitVec 32) : Bool := !rinReached s r

/-- The flags of a thread: the context's own, and those that its fork's commit token carries (R71). -/
def Ctx.withToken (c : Ctx) (x : Option Fork) : Ctx :=
  match x with
  | none => c
  | some f => (c.orF f.flags.1).orV f.flags.2

/-- A snapshot of a context with resume point `pc` (R322); of a forked thread's oldest chunk it holds the fork record's
scalar part, and the flags of the chunks sewn before. -/
def State.snapshot (s : State) (u : CtxId) (pc : Word) (rin : BitVec 32) (sealing : Bool) : Snapshot :=
  let c := s.ctx u
  { rin := rin
    sealing := sealing
    regs := c.regs
    pc := pc
    sup := c.sup
    csr := (c.withToken (if c.chunk.isSome || c.joinPhase then s.fork (s.forkIdOf u) else none)).csr
    tln := c.tile.tln
    issue := c.tile.issue
    fork := match c.chunk with
      | none => if c.joinPhase then (s.fork (s.forkIdOf u)).map (fun f => (f.info, f.info.count, [])) else none
      | some ch => (s.fork (s.forkIdOf u)).map (fun f => (f.info, ch.number, ch.incoming))
    inner := c.inner
    joinFirst := c.joinFirst && decide (pc = c.pc)
    home := u }

def setSnap (v : Vector (Option Snapshot) 2) (rin : BitVec 32) (x : Snapshot) : Vector (Option Snapshot) 2 :=
  v.set (rin.toNat % 2) (some x) (Nat.mod_lt _ (by decide))

/-- The effect of SEALW once the interval is sealed, at resume point `pc` (R321). -/
def State.sealAdvance (s : State) (u : CtxId) (pc : Word) : State :=
  let c := s.ctx u
  let n := nextRin c.rin
  s.setCtx u { c with snaps := setSnap c.snaps c.rin (s.snapshot u pc n false), rin := n, sealing := false }

/-- An instruction that R321 holds while SEALING = 1: it waits for the seal, performs SEALW's effect at its own address,
and then issues. A basted chunk writes no memory, and what it may not do waits otherwise. -/
def State.sealGate (s : State) (f : State → State) : State :=
  let c := s.me
  if !c.sealing || s.basted s.cur then f s
  else if rinReached (s.die s.cur.die).sealed c.rin then f (s.sealAdvance s.cur c.pc)
  else s.hold .sealing

end Sys2Proof.Machine
end

