-- ==== Sys2Proof/Machine/Operands.lean ====
section
/-! DEFINITION. Operand forms: immediates and targets (R39), the unit an instruction may run on (R27, R41), vector elements
under tags, marks and the restart pattern (R130-R148), address forms of vector memory instructions (R112). -/

namespace Sys2Proof.Machine

/-! ## Words, units and levels -/

/-- The word of an instruction as a 64-bit TVAL. -/
def wordOf (i : Instr) : Word := ((encode i).getD 0).setWidth 64

/-- ILLEGAL-INSTRUCTION with TVAL the instruction word (R40). -/
def State.illegal (s : State) (i : Instr) : State := s.raise causeIllegalInstruction (wordOf i)

/-- PRIVILEGE with TVAL the instruction word (R352, R355). -/
def State.privileged (s : State) (i : Instr) : State := s.raise causePrivilege (wordOf i)

/-- An instruction that a QCC does not have (R27). -/
def State.onCore (s : State) (i : Instr) (f : State → State) : State := if s.cur.isQcc then s.illegal i else f s

/-- An instruction that only a QCC has (R27). -/
def State.onQcc (s : State) (i : Instr) (f : State → State) : State := if s.cur.isQcc then f s else s.illegal i

/-- An S-level instruction (R352). -/
def State.atS (s : State) (i : Instr) (f : State → State) : State := if s.me.sup then f s else s.privileged i

/-- The word at an ISTORE offset. -/
def State.iword (s : State) (u : CtxId) (t : Nat) : Nat := ofBytes (memRead (s.core u.die u.unit.val).istore t 4)

/-! ## Immediates, offsets, targets -/

def sext {n : Nat} (v : BitVec n) : Word := v.signExtend 64

/-- A PC-relative target: the address of the instruction plus the scaled offset (R39). -/
def target {n : Nat} (pc : Word) (off : BitVec n) : Word := pc + sext off * 4

/-- A taken transfer to `t`, checked against the ISTORE size (R98, R99); `f` is what else happens. -/
def State.transfer (s : State) (t : Word) (f : State → State) : State :=
  if t.toNat ≥ istoreSize s.cur.unit.val then s.raise causeRange t else (f s).jump t

/-! ## Vector elements -/

/-- The bytes of a register below a granule count. -/
def lowGranules (d : BitVec 8192) (g : Nat) : BitVec 8192 := if g ≥ 16 then d else d &&& BitVec.ofNat 8192 (2 ^ (512 * g) - 1)

/-- Element `e` at width `W` bytes; a byte at or beyond the mark reads as zero (R130). -/
def VReg.elem (v : VReg) (W e : Nat) : Nat := if W * e < 64 * v.hwm then field v.data (8 * (W * e)) (8 * W) else 0

/-- Raising the mark zero-fills the granules it takes in; it is never lowered (R138). -/
def VReg.grow (v : VReg) (g : Nat) : VReg :=
  if g ≤ v.hwm then v else { v with data := lowGranules v.data v.hwm, hwm := g }

def VReg.setElem (v : VReg) (W e x : Nat) : VReg := { v with data := setField v.data (8 * (W * e)) (8 * W) x }

/-- Granules that `vl` elements of width `W` take (R138). -/
def granules (vl W : Nat) : Nat := (vl * W + 63) / 64

/-- Tag and mark as an element instruction sets them at issue (R138). -/
def VReg.dest (v : VReg) (t : Tag) (vl : Nat) : VReg := { (v.grow (granules vl t.width)) with tag := t }

/-! ### The restart pattern (R147, R148) -/

def rstIdx (r : Word) (c : Nat) : Nat := field r (16 * c) 11
def rstAhead (r : Word) (c : Nat) : Bool := bitOf r (16 * c + 15)
def rstAnyAhead (r : Word) : Bool := rstAhead r 0 || rstAhead r 1 || rstAhead r 2 || rstAhead r 3

/-- The cluster that owns element `e` at group width `W` (R139). -/
def clusterOf (W e : Nat) : Nat := W * e / 64 % 4

/-- Whether an element is still to be performed under a restart pattern. -/
def toPerform (r : Word) (W e : Nat) : Bool :=
  !rstAhead r (clusterOf W e) && decide (rstIdx r (clusterOf W e) ≤ e)

/-- Whether an element lies below the point at which its cluster is to stop (R146, R147). -/
def belowStop (u : Option (Word × Option Nat)) (W e : Nat) : Bool :=
  match u with
  | none => true
  | some p => rstAhead p.1 (clusterOf W e) || decide (e < rstIdx p.1 (clusterOf W e))

/-- Whether an element is performed in this run of its instruction. -/
def Ctx.runs (c : Ctx) (W e : Nat) : Bool := toPerform c.rst W e && belowStop c.upto W e

/-- The pattern under which the next instruction runs once this one is complete. -/
def nextRst (r : Word) : Word :=
  if rstAnyAhead r then
    (List.range 4).foldl (fun acc c => acc ||| place (16 * c) 11 (if rstAhead r c then rstIdx r c else 0)) 0
  else 0

/-- A pattern whose AHD bits are all treated as 0 (R148). -/
def clearAhead (r : Word) : Word := r &&& 0x7FFF7FFF7FFF7FFF

/-- EPX after a stop at failing elements: per cluster the first failing element it owns, or 1,024 (R145, R147). -/
def epxOf (W : Nat) (failing : List Nat) : Word :=
  (List.range 4).foldl (fun acc c =>
    acc ||| place (16 * c) 11 ((failing.find? (fun e => clusterOf W e = c)).getD 1024)) 0

/-! ### Types of operands (R135-R137) -/

/-- The result type of R135 from the source tags; `none` raises ILLEGAL-OPERAND. -/
def resultType (tags : List Tag) : Option Tag :=
  match tags.filter (fun t => decide (t ≠ .untagged)) with
  | [] => none
  | t :: ts =>
    if ts.any (fun u => decide (u.family ≠ t.family)) then none
    else if ts.all (fun u => decide (u = t)) then some t
    else if (t :: ts).any (fun u => decide (u = .fp16)) && (t :: ts).any (fun u => decide (u = .bf16)) then some .fp32
    else some (ts.foldl (fun a b => if b.width > a.width then b else a) t)

/-- A source of an element instruction: a vector register, or a scalar with the type of va (R136). -/
inductive VSrc where
  | vec (v : VReg)
  | scalar (t : Tag) (x : Word)

def VSrc.tag : VSrc → Tag
  | .vec v => v.tag
  | .scalar t _ => t

/-- The raw element of a source at the source's own width; an untagged source reads as zero (R135). -/
def VSrc.raw (x : VSrc) (e : Nat) : Nat :=
  match x with
  | .vec v => if v.tag = .untagged then 0 else v.elem v.tag.width e
  | .scalar t w => w.toNat % 2 ^ (8 * t.width)

/-- An integer element read by its tag's family. -/
def intElem (t : Tag) (raw : Nat) : Int :=
  match t.family with
  | some .signed => signedOf (8 * t.width) raw
  | some .unsigned => raw
  | some .float => raw
  | some .lns => raw
  | none => 0

/-- A float element; an untagged one is +0. -/
def floatElem (t : Tag) (raw : Nat) : FVal :=
  match t.fmt with
  | some f => f.read raw
  | none => .fin false 0 0

/-- Widths checked by R137: the group width fits VL, and a destination that is also a source has the result's width. -/
def widthsOk (vl W : Nat) (t : Tag) (asSource : Option Tag) : Bool :=
  decide (vl * W ≤ 1024) &&
  (match asSource with
   | none => true
   | some u => decide (u ≠ .untagged) && decide (u.width = t.width))

/-- The widest of the widths of some tags. -/
def widest (ts : List Tag) : Nat := ts.foldl (fun a t => max a t.width) 0

/-- The destination as a source: its tag when it is one of the source registers. -/
def asSource (vd : BitVec 5) (vdTag : Tag) (srcs : List (BitVec 5)) : Option Tag :=
  if srcs.contains vd then some vdTag else none

/-- Performing `f` on every active element that runs: new register contents and flags. -/
def elemLoop (W vl : Nat) (runs : Nat → Bool) (km : BitVec 1024) (f : Nat → Nat × Flags) (v : VReg) : VReg × Flags :=
  (List.range vl).foldl (fun acc e =>
    if bitOf km e && runs e then
      let r := f e
      (acc.1.setElem W e r.1, acc.2 ||| r.2)
    else acc) (v, 0)

/-! ### Trace entries and pipe events of vector instructions (R377, R379) -/

def log2Width (W : Nat) : Nat := if W = 8 then 3 else if W = 4 then 2 else if W = 2 then 1 else 0

/-- The pipe of an instruction within a cluster, or the cross-cluster network (R140, R141, R379). -/
inductive Pipe where
  | arith | sfu | lsu | cross
deriving DecidableEq, Repr

/-- The groups of a vector instruction (R139, R141, R159, R160): those of its elements below VL, one in the cluster that owns
an element, one for each quarter of a mask, or none on the cross-cluster network. -/
inductive Groups where
  | elems
  | one (e : Nat)
  | quarters
deriving DecidableEq, Repr

/-- What a performed vector instruction leaves for its completion: its class, pipe, group width and groups, the VL and mask
of its trace entry, and the addresses of its first and last active element. -/
structure VNote where
  isLoad  : Bool
  isStore : Bool
  atomic  : Bool
  pipe    : Pipe
  W       : Nat
  vl      : Nat
  km      : BitVec 1024
  first   : Word
  last    : Word
  groups  : Groups
deriving DecidableEq, Repr

def activeCount (km : BitVec 1024) (vl : Nat) : Nat := ((List.range vl).filter (fun e => bitOf km e)).length

/-- First and last element of every group, as far as they lie below VL; of a mask operation a quarter's first bit stands for
the quarter. -/
def VNote.bounds (n : VNote) : List (Nat × Nat) :=
  match n.groups with
  | .elems => (List.range (granules n.vl n.W)).map (fun g => (64 * g / n.W, min (n.vl - 1) (64 * (g + 1) / n.W - 1)))
  | .one e => [(e * n.W / 64 * 64 / n.W, e)]
  | .quarters => (List.range 4).map (fun c => (256 * c, 256 * c))

/-- The cluster of a group, by its first element. -/
def VNote.cluster (n : VNote) (e : Nat) : Nat :=
  match n.groups with
  | .elems => clusterOf n.W e
  | .one _ => clusterOf n.W e
  | .quarters => e / 256 % 4

/-- Whether an element, or the quarter that a bit stands for, is performed in this run. -/
def VNote.runs (n : VNote) (rst : Word) (upto : Option (Word × Option Nat)) (lo hi : Nat) : Bool :=
  let c := n.cluster lo
  !rstAhead rst c && decide (rstIdx rst c ≤ hi) &&
  (match upto with
   | none => true
   | some p => rstAhead p.1 c || decide (lo < rstIdx p.1 c))

/-- The clusters of the groups that enter in this run, in element order (R142, R148). -/
def VNote.entered (n : VNote) (rst : Word) (upto : Option (Word × Option Nat)) : List Nat :=
  if n.pipe = .cross then [] else (n.bounds.filter (fun b => n.runs rst upto b.1 b.2)).map (fun b => n.cluster b.1)

/-- A trace entry of TYPE 0 (R377). -/
def traceEntry (n : VNote) (slot : Nat) (rst : Word) (spec : Bool) (pc : Word) (seq : BitVec 32) : BitVec 256 :=
  let w0 := place 0 11 n.vl ||| place 11 2 (log2Width n.W) ||| place 13 11 (activeCount n.km n.vl) ||| place 24 2 slot |||
    boolBit 28 (decide (rst ≠ 0)) ||| boolBit 29 spec ||| place 32 17 pc.toNat ||| place 49 15 seq.toNat
  rst ++ n.last ++ n.first ++ w0

/-- A pipe event (R379); its DELTA is filled in when it is emitted. -/
def pipeEvent (n : VNote) (slot : Nat) (seq : BitVec 32) (c : Nat) (fin : Bool) : BitVec 64 :=
  let p := match n.pipe with
    | .arith => 4 * c
    | .sfu => 4 * c + 1
    | .lsu => 4 * c + 2
    | .cross => 15
  place 0 4 p ||| boolBit 4 fin ||| place 6 2 slot ||| place 8 8 seq.toNat

/-- The begin events, or the end events, of an instruction: one for each cluster that enters a group of it, in ascending PIPE
order, or one on the cross-cluster network (R379). -/
def pipeEvents (n : VNote) (slot : Nat) (seq : BitVec 32) (clusters : List Nat) (fin : Bool) : List (BitVec 64) :=
  if n.pipe = .cross then [pipeEvent n slot seq 0 fin]
  else ((List.range 4).filter (fun c => clusters.contains c)).map (fun c => pipeEvent n slot seq c fin)

/-- The order of the events of one cycle: ascending PIPE, of one pipe the end first (R379). -/
def eventRank (e : BitVec 64) : Nat := 2 * field e 0 4 + if bitOf e 4 then 0 else 1

def insertEvent (e : BitVec 64) : List (BitVec 64) → List (BitVec 64)
  | [] => [e]
  | x :: xs => if eventRank e < eventRank x then e :: x :: xs else x :: insertEvent e xs

/-- The first event of a list with a DELTA, the others with DELTA 0. -/
def withDelta (delta : Nat) : List (BitVec 64) → List (BitVec 64)
  | [] => []
  | x :: xs => setField x 16 16 delta :: xs.map (fun y => setField y 16 16 0)

/-- The last `n` of a core's events, those of one cycle, in their order; the first keeps the DELTA of the cycle. -/
def Core.orderLast (k : Core) (n : Nat) : Core :=
  let old := k.events.take (k.events.length - n)
  let new := k.events.drop (k.events.length - n)
  let delta := (new.head?.map (fun x => field x 16 16)).getD 0
  { k with events := old ++ withDelta delta (new.foldl (fun l e => insertEvent e l) []) }

/-- Emitting a pipe event: the first of a cycle carries the cycles since the core's previous event, after a time record if they
are many. -/
def State.emitEvents (d : Fin 8) (unit : Nat) (s : State) (e : BitVec 64) : State :=
  let k := s.core d unit
  let delta := s.time - k.lastEv
  let s1 := if 65535 < delta then s.pushEvent d unit (boolBit 5 true ||| Machine.place 8 56 s.time) else s
  let s2 := s1.pushEvent d unit (setField e 16 16 (if 65535 < delta then 0 else delta))
  let n := if delta = 0 then k.batch + 1 else 1
  s2.setCore d unit ((fun k : Core => { k with lastEv := s.time, batch := n }) ((s2.core d unit).orderLast n))

/-- The units that a vector instruction debits for the groups that enter (R349). -/
def VNote.cost (n : VNote) (groups : Nat) : Nat := if n.pipe = .cross then 16 else 4 * groups

/-- The clusters in which a run enters the last groups of an instruction. -/
def VNote.ended (n : VNote) (rst : Word) (upto : Option (Word × Option Nat)) : List Nat :=
  (List.range 4).filter (fun c => (n.entered rst upto).contains c && decide ((n.entered rst upto).count c = (n.entered rst none).count c))

/-- The groups of the issuing context's vector instruction, as far as `upto` says, enter their pipes: they are debited, counted,
and their begin events emitted (R349, R379, R381). -/
def State.venter (s : State) (n : VNote) (cost : Nat → Nat) (upto : Option (Word × Option Nat)) : State :=
  let c := s.me
  let u := s.cur
  let entered := n.entered c.rst upto
  let begins := if bitOf c.csr.trcctl 1 then pipeEvents n u.slot.val (s.core u.die u.unit.val).seq entered false else []
  begins.foldl (State.emitEvents u.die u.unit.val) ((s.debit u (cost entered.length)).upd (fun c => c.count 5 entered.length))

/-- The vector instruction has taken its trace number when it issued (R377). -/
def State.takeNumber (s : State) : State :=
  let u := s.cur
  let core := s.core u.die u.unit.val
  if bitOf s.me.csr.trcctl 0 then s.setCore u.die u.unit.val { core with seq := core.seq + 1 } else s

/-- A vector instruction that stops at the points of a pattern: its groups before them have entered, and those clusters that
nothing of it is left to have ended it. -/
def State.vstopped (s : State) (n : VNote) (p : Word) : State :=
  let c := s.me
  let u := s.cur
  let ends := if bitOf c.csr.trcctl 1 && decide (n.pipe ≠ .cross) then
    pipeEvents n u.slot.val (s.core u.die u.unit.val).seq (n.ended c.rst (some (p, none))) true else []
  (ends.foldl (State.emitEvents u.die u.unit.val) (s.venter n n.cost (some (p, none)))).takeNumber

/-- The restart pattern that the trace entry of the instruction being performed shows (R377): of the second instruction of a
restart with a cluster ahead, the one from which both restarted. -/
def Ctx.tracePattern (c : Ctx) : Word := if c.prior = 0 then c.rst else c.prior

/-- A vector instruction of the issuing context has been performed, at a cost. It stays pending until it is complete in every
cluster, taking its trace number when the context traces; its groups enter their pipes (R142, R377, R379); PC advances, the
restart pattern moves on. One that is performed only up to a stop stands where it is, the pattern saying what is left. -/
def State.vdoneWith (s : State) (n : VNote) (cost : Nat → Nat) : State :=
  let c := s.me
  let u := s.cur
  let seq := (s.core u.die u.unit.val).seq
  match c.upto with
  | some p => if n.pipe = .cross then s else (s.vstopped n p.1).upd (fun c => { c with upto := some (p.1, some n.W), rst := p.1, wait := none })
  | none =>
    let pend : VecPend := {
      isLoad := n.isLoad
      isStore := n.isStore
      atomic := n.atomic
      entry := if bitOf c.csr.trcctl 0 then some (traceEntry n u.slot.val c.tracePattern (s.basted u) c.pc seq) else none
      ends := if bitOf c.csr.trcctl 1 then pipeEvents n u.slot.val seq (n.entered c.rst none) true else []
      rest := none }
    (s.venter n cost none).takeNumber.upd (fun c => { c with
      pc := c.pc + 4
      wait := none
      vecs := c.vecs ++ [pend]
      prior := if c.prior = 0 && rstAnyAhead c.rst then c.rst else 0
      rst := nextRst c.rst })

def State.vdone (s : State) (n : VNote) : State := s.vdoneWith n n.cost

/-- ILLEGAL-OPERAND of a vector instruction, at issue: EPX is 0, or stays as recorded at a restart (R145, R148). -/
def State.vIllegal (s : State) : State := s.raiseEpx causeIllegalOperand 0 s.me.rst

/-! ## Addresses of vector memory instructions (R112) -/

/-- Index(v, e): the element read by its tag, as a byte offset. -/
def indexElem (v : VReg) (e : Nat) : Word := BitVec.ofInt 64 (intElem v.tag (v.elem v.tag.width e))

/-- A register usable as an index: integer tags, and VL within it (R112, R236). -/
def indexOk (v : VReg) (vl : Nat) : Bool :=
  (match v.tag.family with
   | some .signed => true
   | some .unsigned => true
   | some .float => false
   | some .lns => false
   | none => false) && decide (vl * v.tag.width ≤ 1024)

end Sys2Proof.Machine
end

