-- ==== Sys2Proof/Machine/Forks.lean ====
section
/-! DEFINITION. Forked loops of major 0x24 and the events of their chunks (07_speculative_loops.md R163-R203). -/

namespace Sys2Proof.Machine

/-! ## Fork image and chunk starts (R169-R173) -/

/-- The registers that a FKLIV value names, in ascending order (R165). -/
def livRegs (fkliv : Word) : List (BitVec 5) :=
  ((List.range 32).filter (fun r => decide (r ≠ 0) && bitOf fkliv r)).map (BitVec.ofNat 5)

/-- Whether FKVEC names vector register `r` (R166). -/
def fkvecNames (fkvec : Word) (r : Nat) : Bool :=
  (List.range 4).any (fun i => bitOf fkvec (8 * i + 5) && decide (field fkvec (8 * i) 5 = r))

/-- The vector registers and masks with which a chunk starts (R169). -/
def imageVregs (fkvec : Word) (v : Vector VReg 32) : Vector VReg 32 :=
  v.mapIdx (fun r x => if fkvecNames fkvec r then x else VReg.zero)

def imageMasks (fkvec : Word) (k : Vector (BitVec 1024) 8) : Vector (BitVec 1024) 8 :=
  k.mapIdx (fun n x => if decide (n ≠ 0) && bitOf fkvec (32 + n) then x else 0)

/-- The count of iterations of a chunk: what its destination register starts with. -/
def chunkCount (trip n k : Nat) : Word := BitVec.ofNat 64 (min n (trip - k * n))

/-- The value that a chunk reads from a carried register it has not written (R173). -/
def Incoming.value (i : Incoming) (old : Word) : Word :=
  match i with
  | .pred v => v
  | .await => old
  | .early v => v
  | .final v => v

/-- The predicted deltas of a fork (R172, R193). -/
def ForkScalar.deltas (x : ForkScalar) : List (BitVec 5 × BitVec 32) := (x.preds.filter (·.2.1)).map (fun p => (p.1, p.2.2))

/-- The incoming state of a carried register before any value has arrived. -/
def Fork.freshIncoming (x : Fork) (k : Nat) (r : BitVec 5) : Incoming :=
  let v := x.info.regs[r.toNat]'r.isLt
  if k = 0 then .final v
  else if bitOf x.info.awaited r.toNat then .await
  else match x.info.deltas.find? (fun p => p.1 = r) with
    | some p => .pred (v + BitVec.ofNat 64 k * p.2.signExtend 64)
    | none => .await

/-- R174's transition when a value arrives: the new state, and whether the value differs from one that was used. -/
def Incoming.arrive (i : Incoming) (v : Word) (fin : Bool) : Incoming × Bool :=
  let new := if fin then Incoming.final v else Incoming.early v
  let known (w : Word) : Incoming × Bool :=
    if w = v then (if fin then .final w else i, false) else (new, true)
  match i with
  | .await => (new, false)
  | .pred w => known w
  | .early w => known w
  | .final w => known w

def Incoming.isPred (i : Incoming) : Bool :=
  match i with
  | .pred _ => true
  | .await => false
  | .early _ => false
  | .final _ => false

/-- Marking a register as awaited in every later start of the fork. -/
def ForkScalar.await (i : ForkScalar) (r : BitVec 5) : ForkScalar := { i with awaited := i.awaited ||| (1#32 <<< r.toNat) }

/-- The incoming state of a register in a list of them. -/
def incomingOf (inc : List (BitVec 5 × Incoming)) (r : BitVec 5) : Incoming := ((inc.find? (fun p => p.1 = r)).map (·.2)).getD .await

/-- Giving a starting chunk the values that arrived before it started, up to one that differs from a value it would use: that
one and the values after it reach the chunk as it runs, so that the mismatch unpicks it (R174). -/
def applyGiven : List (Nat × BitVec 5 × Word × Bool) → List (BitVec 5 × Incoming) → List (BitVec 5 × Incoming) × List Forward
  | [], inc => (inc, [])
  | (t, r, v, fin) :: gs, inc =>
    let new := (incomingOf inc r).arrive v fin
    if new.2 then (inc, ((t, r, v, fin) :: gs).map (fun g => ⟨g.1, g.2.1, g.2.2.1, g.2.2.2⟩))
    else applyGiven gs (inc.map (fun p => if p.1 = r then (r, new.1) else p))

/-- The incoming states with which chunk `k` starts or restarts, and the values that are to reach it yet (R173-R175). -/
def Fork.startIncoming (x : Fork) (k : Nat) : List (BitVec 5 × Incoming) × List Forward :=
  let regs := livRegs x.info.fkliv
  let inc0 := match x.kept.find? (fun p => p.1 = k) with
    | some p => p.2.map (fun q => if q.2.isPred && bitOf x.info.awaited q.1.toNat then (q.1, Incoming.await) else q)
    | none => regs.map (fun r => (r, x.freshIncoming k r))
  applyGiven (x.given.filter (fun g => decide (g.1 = k))) inc0

/-- The context of a chunk as it starts (R169). -/
def Fork.startCtx (x : Fork) (k : Nat) (inc : List (BitVec 5 × Incoming)) (time : Nat) : Ctx :=
  let c := x.image
  let regs1 := inc.foldl (fun (rs : Vector Word 32) p => rs.set p.1.toNat (p.2.value (rs[p.1.toNat]'p.1.isLt)) p.1.isLt) c.regs
  let regs2 := if x.info.d = 0 then regs1 else regs1.set x.info.d.toNat (chunkCount x.info.trip x.info.n k) x.info.d.isLt
  { c with
    status := .live
    regs := regs2
    pc := x.info.addr + 4
    vregs := imageVregs x.info.fkvec c.vregs
    masks := imageMasks x.info.fkvec c.masks
    epx := 0
    rst := 0
    prior := 0
    trb := if k = 0 then c.trb else 0
    copyFault := if k = 0 then c.copyFault else none
    msgFault := if k = 0 then c.msgFault else none
    chunk := some {
      number := k
      incoming := inc
      written := 0
      versions := []
      through := false
      sent := false
      trap := none
      request := none }
    joinPhase := false
    joinFirst := false
    inner := none
    wait := none
    passed := 0
    last := time }

/-- The effective limit of a fork (R167). -/
def State.effLimit (s : State) (f : ForkId) (x : Fork) : Nat :=
  min x.info.lim (min (s.ring f.die f.quad.val).elim (s.ringLen f.die f.quad.val))

/-! ## The induction prediction table (R172, R176) -/

def predIndex (pc : Word) : Nat := field pc 2 6
def predTag (pc : Word) : BitVec 9 := BitVec.ofNat 9 (field pc 8 9)

/-- A predictor as a FORK finds it: its register, whether it predicts, its delta. -/
def Predictor.found (fkliv : Word) (p : Predictor) : BitVec 5 × Bool × BitVec 32 :=
  (p.reg, decide (p.conf = 3) && bitOf fkliv p.reg.toNat, p.delta)

/-- Looking a FORK up: the predictors of its entry, in their places, and the table afterwards. -/
def predLookup (t : Table PredEntry) (pc : Word) (fkliv : Word) : List (BitVec 5 × Bool × BitVec 32) × Table PredEntry :=
  let fresh : PredEntry := ⟨predTag pc, ((livRegs fkliv).take 4).map (fun r => ⟨r, 0, 0⟩)⟩
  match Table.find t (predIndex pc) with
  | none => (fresh.preds.map (Predictor.found fkliv), Table.put t (predIndex pc) fresh)
  | some e =>
    if e.tag ≠ predTag pc then (fresh.preds.map (Predictor.found fkliv), Table.put t (predIndex pc) fresh)
    else (e.preds.map (Predictor.found fkliv), t)

/-- One predictor after a full chunk was sewn with change `d` of its register. -/
def Predictor.train (p : Predictor) (d : Word) : Predictor :=
  if -(2 ^ 31) ≤ d.toInt ∧ d.toInt < 2 ^ 31 then
    (if d.setWidth 32 = p.delta then { p with conf := min 3 (p.conf + 1) } else { p with delta := d.setWidth 32, conf := 0 })
  else { p with delta := 0, conf := 0 }

/-- A chunk's start value of a carried register: the fork value for chunk 0, the FINAL value otherwise. -/
def Fork.startValue (x : Fork) (ch : Chunk) (r : BitVec 5) : Word :=
  let v := x.info.regs[r.toNat]'r.isLt
  if ch.number = 0 then v else ((ch.incoming.find? (fun p => p.1 = r)).map (fun p => p.2.value v)).getD v

/-- PREDICTOR_UPDATE, at the sew of a full chunk (R176). A predictor whose register this fork does not carry is not trained
(log 87). -/
def State.trainTable (s : State) (f : ForkId) (x : Fork) (c : Ctx) (ch : Chunk) : State :=
  let r := s.ring f.die f.quad.val
  if x.info.nopred || decide (min x.info.n (x.info.trip - ch.number * x.info.n) ≠ x.info.n) then s
  else match Table.find r.table (predIndex x.info.addr) with
    | none => s
    | some e =>
      if e.tag ≠ predTag x.info.addr then s
      else
        let preds := e.preds.map (fun p => if bitOf x.info.fkliv p.reg.toNat then p.train (c.x p.reg - x.startValue ch p.reg) else p)
        s.setRing f.die f.quad.val { r with table := Table.put r.table (predIndex x.info.addr) { e with preds := preds } }

/-! ## FORK (R195, R198) -/

/-- R195: a local fork begins in a chunk; with no iteration it goes to its join phase (log 122). -/
def Ctx.startLocal (c : Ctx) (d : BitVec 5) (trip n : Nat) (join : Word) : Ctx :=
  let count := (trip + n - 1) / n
  if count = 0 then { c with inner := some ⟨d, trip, n, 0, 0, c.pc + 4, join, true⟩, joinFirst := true, pc := join, wait := none }
  else ({ c with inner := some ⟨d, trip, n, count, 0, c.pc + 4, join, false⟩ }.setX d (chunkCount trip n 0)).advance

/-- A ring-level FORK that issues: the fork image is captured and chunk 0 starts here; with no chunk the join phase is
entered (R169, R172, R198). -/
def State.startFork (s : State) (d : BitVec 5) (trip n : Nat) (join : Word) : State :=
  let c := s.me
  let f := s.forkIdOf s.cur
  let r := s.ring f.die f.quad.val
  let look := if c.csr.nopred then ([], r.table) else predLookup r.table c.pc c.csr.fkliv
  let info : ForkScalar := {
    addr := c.pc
    join := join
    d := d
    trip := trip
    n := n
    count := (trip + n - 1) / n
    oldest := 0
    base := s.cur.unit.val - 4 * f.quad.val
    lim := c.csr.fklim
    nopred := c.csr.nopred
    fkliv := c.csr.fkliv
    fkvec := c.csr.fkvec
    awaited := 0
    preds := look.1
    regs := c.regs
    vl := c.csr.vl
    masks := imageMasks c.csr.fkvec c.masks }
  let x : Fork := {
    info := info
    image := { c with wait := none }
    started := if info.count = 0 then 0 else 1
    kept := []
    given := []
    notices := []
    forwards := []
    flags := (0, 0)
    token := none
    handover := none
    due := none
    conflict := [] }
  let s1 := (s.setRing f.die f.quad.val { r with table := look.2 }).setFork f x
  if info.count = 0 then s1.upd (fun c => { c with joinPhase := true, joinFirst := true, pc := join, wait := none })
  else s1.setCtx s.cur (x.startCtx 0 (x.startIncoming 0).1 s.time)

def execFork (d a b : BitVec 5) (off : BitVec 8) (s : State) : Host.Outcome State Fault Refusal :=
  .next (s.onCore (.fork d a b off) fun s =>
    let c := s.me
    let t := c.pc + 4 * off.setWidth 64
    let n := (s.x b).toNat
    if t.toNat ≥ istoreSize s.cur.unit.val then s.raise causeRange t
    else if s.iword s.cur t.toNat ≠ 0x90000300 then s.illegalOperand
    else if n = 0 || c.inner.isSome || c.joinPhase then s.illegalOperand
    else if c.chunk.isSome then s.upd (fun c => c.startLocal d (s.x a).toNat n t)
    else if decide (d ≠ 0) && bitOf c.csr.fkliv d.toNat then s.illegalOperand
    else if !(c.vecs.isEmpty && c.accs.isEmpty && c.copies.isEmpty) then s.hold .poll
    else s.startFork d (s.x a).toNat n t)

/-! ## FWD, CHIDX, NSPEC, JOIN (R199, R201-R203) -/

/-- A value leaves on the forwarding ring for the next chunk (R174). -/
def State.forward (s : State) (f : ForkId) (w : Forward) : State :=
  match s.fork f with
  | none => s
  | some x => s.setFork f { x with forwards := x.forwards ++ [w] }

def execFwd (a : BitVec 5) (s : State) : Host.Outcome State Fault Refusal :=
  .next (s.onCore (.fwd a) fun s =>
    match s.me.chunk, s.fork (s.forkIdOf s.cur) with
    | some ch, some x =>
      if !bitOf x.info.fkliv a.toNat then s.illegalOperand
      else if ch.number + 1 ≥ x.info.count then s.advance
      else (s.forward (s.forkIdOf s.cur) ⟨ch.number + 1, a, s.x a, false⟩).advance
    | _, _ => s.advance)

def execChidx (d : BitVec 5) (s : State) : Host.Outcome State Fault Refusal :=
  .next (s.onCore (.chidx d) fun s =>
    match s.me.inner, s.me.chunk with
    | some i, _ => s.retire d (if i.joining then 0 else BitVec.ofNat 64 i.number)
    | none, some ch => s.retire d (BitVec.ofNat 64 ch.number)
    | none, none => s.retire d 0)

/-- NSPEC: a chunk that had to wait is sewn through once it is the oldest; elsewhere no effect. -/
def execNspec (s : State) : Host.Outcome State Fault Refusal :=
  .next (s.onCore .nspec fun s =>
    if s.basted s.cur then s.hold .poll
    else if s.me.chunk.isSome && s.me.wait.isSome then (if s.maySew s.cur then (s.sewThrough s.cur).advance else (s.askSew s.cur).hold .poll)
    else s.advance)

def execJoin (s : State) : Host.Outcome State Fault Refusal :=
  .next (s.onCore .join fun s =>
    let c := s.me
    match c.inner with
    | some i =>
      if i.joining && c.joinFirst && decide (c.pc = i.join) then (s.upd (fun c => { c with inner := none, joinFirst := false })).advance else s.illegalOperand
    | none =>
      match s.fork (s.forkIdOf s.cur) with
      | some x =>
        if c.joinPhase && c.joinFirst && decide (c.pc = x.info.join) then
          ((s.dropFork (s.forkIdOf s.cur)).upd (fun c => ((c.orF x.flags.1).orV x.flags.2).advance)).upd
            (fun c => { c with joinPhase := false, joinFirst := false })
        else s.illegalOperand
      | none => s.illegalOperand)

/-! ## CHEND and sewing (R184-R187, R200) -/

/-- An inner CHEND: the next local chunk, or the local join phase. -/
def Ctx.localChend (c : Ctx) (i : InnerFork) : Ctx :=
  if i.number + 1 < i.count then
    { ({ c with inner := some { i with number := i.number + 1 } }.setX i.d (chunkCount i.trip i.n (i.number + 1))) with pc := i.body, wait := none }
  else { c with inner := some { i with joining := true }, joinFirst := true, pc := i.join, wait := none }

/-- Sending every carried register as it stands, once. -/
def State.sendFinals (s : State) (f : ForkId) (x : Fork) (ch : Chunk) : State :=
  if ch.sent || decide (ch.number + 1 ≥ x.info.count) then s
  else ((livRegs x.info.fkliv).foldl (fun t r => t.forward f ⟨ch.number + 1, r, s.x r, true⟩) s).upd
    (fun c => { c with chunk := c.chunk.map (fun ch => { ch with sent := true }) })

/-- The register that a RAMO would write belongs to the chunk that issued it, whose registers end with it. -/
def Req.forget (r : Req) : Req :=
  match r.kind with
  | .ramo op off x cmp rm _ => { r with kind := .ramo op off x cmp rm 0 }
  | .put _ _ => r
  | .send _ => r
  | .get _ _ _ => r
  | .pairs _ => r
  | .flush => r
  | .start _ _ => r

/-- The sew of the issuing context's chunk, the oldest, and what follows it: the join phase for the last chunk, else the
token goes to the next chunk and this context is free. -/
def State.sew (s : State) (f : ForkId) (ch : Chunk) : State :=
  let s1 := s.sewThrough s.cur
  match s1.fork f with
  | none => s1
  | some x =>
    let c := s1.me
    let s2 := s1.trainTable f x c ch
    let flags := (x.flags.1 ||| c.csr.fflg, x.flags.2 ||| c.csr.vflg)
    if ch.number + 1 ≥ x.info.count then
      (s2.setFork f { x with info := { x.info with oldest := x.info.count }, flags := flags }).upd
        (fun c => { c with chunk := none, joinPhase := true, joinFirst := true, pc := x.info.join, wait := none })
    else
      let next := s2.chunkCtx f x (ch.number + 1)
      let s3 := (s2.setFork f { x with token := some (ch.number + 1), handover := some c, flags := flags }).setCtx s.cur
        { Ctx.idle with last := c.last }
      let forgotten (r : Req) : Req := if r.src = some (.here s.cur) then r.forget else r
      State.moveThread { s3 with net := s3.net.map forgotten } (.here s.cur) (.here next)

def execChend (s : State) : Host.Outcome State Fault Refusal :=
  .next (s.onCore .chend fun s =>
    let c := s.me
    match c.inner with
    | some i => if i.joining then s.illegalOperand else s.upd (fun c => c.localChend i)
    | none =>
      match c.chunk, s.fork (s.forkIdOf s.cur) with
      | some ch, some x =>
        if !(c.vecs.isEmpty && c.accs.isEmpty && c.copies.isEmpty) then s.hold .poll
        else
          let s1 := s.sendFinals (s.forkIdOf s.cur) x ch
          if s1.basted s.cur then s1.hold .poll
          else s1.sealGate fun s => if s.maySew s.cur then s.sew (s.forkIdOf s.cur) ch else (s.askSew s.cur).hold .poll
      | _, _ => s.illegalOperand)

/-! ## Events of chunks -/

/-- Whether chunk `k` may start (R170). -/
def State.mayStart (s : State) (f : ForkId) (x : Fork) (k : Nat) : Bool :=
  decide (k = x.started) && decide (k < x.info.count) && decide (k < x.sewn + s.effLimit f x) &&
  decide (k < x.sewn + s.ringLen f.die f.quad.val) && x.due.isNone &&
  decide ((s.ctx (s.chunkCtx f x k)).status = .free) &&
  (x.token.isSome || decide ((s.ctx (s.oldestCtx f x)).status = .live))

/-- CHUNK_START (R169, R170). -/
def execChunkStart (f : ForkId) (k : Nat) (s : State) : Host.Outcome State Fault Refusal :=
  .next (match s.fork f with
    | none => s
    | some x =>
      if s.mayStart f x k then
        let inc := x.startIncoming k
        (s.setFork f { x with
          forwards := inc.2 ++ x.forwards
          started := k + 1
          kept := x.kept.filter (fun p => decide (p.1 ≠ k))
          given := x.given.filter (fun p => decide (p.1 ≠ k)) }).setCtx (s.chunkCtx f x k) (x.startCtx k inc.1 s.time)
      else s)

/-- The nearest older live chunk that holds a version of a sector, and that version (R178). -/
def State.supplier (s : State) (f : ForkId) (x : Fork) (sector k : Nat) : Option (Nat × Version) :=
  ((List.range (k - x.sewn)).map (fun i => k - 1 - i)).findSome? (fun j =>
    match (s.ctx (s.chunkCtx f x j)).chunk with
    | none => none
    | some ch => (ch.version sector).map (fun v => (j, v)))

/-- The L1 set of a sector and its line: 128 sets of 16 ways of two sectors (R11, R177). -/
def lineOf (sector : Nat) : Nat := sector / 2
def setOf (sector : Nat) : Nat := sector / 2 % 128

/-- The lines of a set that a chunk holds as version lines. -/
def Chunk.waysIn (ch : Chunk) (set : Nat) : List Nat :=
  ((ch.versions.filter (fun v => setOf v.sector = set)).map (fun v => lineOf v.sector)).eraseDups

def State.waysOf (s : State) (u : CtxId) (set : Nat) : Nat := (((s.ctx u).chunk.map (fun ch => (ch.waysIn set).length))).getD 0

def slotMates (u : CtxId) : List CtxId := (List.range 4).map (fun i => { u with slot := mkFin4 i })

def State.waysUsed (s : State) (u : CtxId) (set : Nat) : Nat := ((slotMates u).map (fun m => s.waysOf m set)).sum

/-- Whether a chunk finds a way for a sector: its own line, or a way that no version line holds (R182). -/
def State.wayFor (s : State) (u : CtxId) (ch : Chunk) (sector : Nat) : Bool :=
  (ch.waysIn (setOf sector)).contains (lineOf sector) || decide (s.waysUsed u (setOf sector) < 16)

/-- A chunk at or beyond an unpick that is due is stopped already (R181). -/
def Fork.stopped (x : Fork) (k : Nat) : Bool :=
  match x.due with
  | none => false
  | some d => decide (d.1 ≤ k)

/-- A store notice of a sector is still on its way to chunk `k`: it left before the version that `k` asks for is supplied, and
comes to `k` before it (log 119). -/
def Fork.noticeFor (x : Fork) (sector k : Nat) : Bool := x.notices.any (fun m => decide (m.sector = sector) && decide (m.target ≤ k))

/-- VERSION_REQUEST (R178, R179): the version is filled from the nearest older one, or from the committed value. -/
def execVersionRequest (u : CtxId) (pa : BitVec 48) (s : State) : Host.Outcome State Fault Refusal :=
  .next (match (s.ctx u).chunk, s.fork (s.forkIdOf u) with
    | some ch, some x =>
      match ch.request with
      | none => s
      | some (sector, rd) =>
        if sector ≠ pa.toNat / 64 || !s.wayFor u ch sector || x.stopped ch.number || x.noticeFor sector ch.number then s
        else
          let src := s.supplier (s.forkIdOf u) x sector ch.number
          if src.isNone && s.isPoisoned (64 * sector) 64 then s.haltPoisoned u
          else
            let v : Version := {
              sector := sector
              w := false
              bm := 0
              rd := rd
              sc := 0
              sup := src.map (fun p => (p.1, p.2.sc))
              data := match src with
                | some p => p.2.data
                | none => sectorData s.mem sector }
            (s.updCtx u (fun c => { c with chunk := some { (ch.putVersion v) with request := none } })).touchRegion u.die.val (64 * sector) false
    | _, _ => s)

/-- A chunk is found to have used a wrong value: an unpick is due from it, unless one is due from an older chunk. -/
def Fork.noteDue (x : Fork) (j : Nat) (cause : SquashCause) (r : Option (BitVec 5 × Incoming)) : Fork :=
  if x.stopped j then x else { x with due := some (j, cause, r) }

/-- Whether a version was filled from the store that a stamp names (R179). -/
def suppliedBy (v : Version) (stamp : Option (Nat × Nat)) : Bool :=
  match stamp, v.sup with
  | some a, some b => decide (a.1 = b.1) && decide (a.2 ≤ b.2)
  | _, _ => false

/-- STORE_NOTICE: the oldest notice on its way is handled at the chunk it has reached (R179). -/
def execStoreNotice (f : ForkId) (s : State) : Host.Outcome State Fault Refusal :=
  .next (match s.fork f with
    | none => s
    | some x =>
      match x.notices with
      | [] => s
      | m :: rest =>
        let gone := s.setFork f { x with notices := rest }
        if m.target ≥ x.started then gone
        else match (s.ctx (s.chunkCtx f x m.target)).chunk with
          | none => gone
          | some ch =>
            match ch.version m.sector with
            | none => s.setFork f { x with notices := { m with target := m.target + 1 } :: rest }
            | some v =>
              let mask := m.mask &&& ~~~v.bm
              if mask = 0 then gone
              else if v.rd && !suppliedBy v m.stamp then s.setFork f ({ x with notices := rest }.noteDue m.target .mem none)
              else
                let v' := { v with data := mergeBytes mask v.data m.data, sc := v.sc + 1 }
                (s.setFork f { x with notices :=
                    { m with target := m.target + 1, mask := mask, stamp := some (m.target, v.sc + 1) } :: rest }).updCtx
                  (s.chunkCtx f x m.target) (fun c => { c with chunk := some (ch.putVersion v') }))

/-- A chunk's register takes an arriving value unless the chunk has written it (R173). -/
def Ctx.placeIncoming (c : Ctx) (ch : Chunk) (w : Forward) (i : Incoming) : Ctx :=
  { c with
    regs := if bitOf ch.written w.reg.toNat then c.regs else c.regs.set w.reg.toNat w.value w.reg.isLt
    chunk := some { ch with incoming := ch.incoming.map (fun p => if p.1 = w.reg then (w.reg, i) else p) } }

/-- FORWARD_ARRIVAL: the oldest forwarded value reaches its chunk (R174). -/
def execForwardArrival (f : ForkId) (s : State) : Host.Outcome State Fault Refusal :=
  .next (match s.fork f with
    | none => s
    | some x =>
      match x.forwards with
      | [] => s
      | w :: rest =>
        let x1 := { x with forwards := rest }
        if x.stopped w.target then s
        else if w.target ≥ x.started then s.setFork f { x1 with given := x1.given ++ [(w.target, w.reg, w.value, w.fin)] }
        else match (s.ctx (s.chunkCtx f x w.target)).chunk with
          | none => s.setFork f x1
          | some ch =>
            let old := incomingOf ch.incoming w.reg
            let new := old.arrive w.value w.fin
            if new.2 then
              s.setFork f ({ x1 with info := if old.isPred then x1.info.await w.reg else x1.info }.noteDue w.target .liv (some (w.reg, new.1)))
            else
              (s.setFork f x1).updCtx (s.chunkCtx f x w.target) (fun c =>
                match old with
                | .await => c.placeIncoming ch w new.1
                | .pred _ => { c with chunk := some { ch with incoming := replaceIncoming ch.incoming (some (w.reg, new.1)) } }
                | .early _ => { c with chunk := some { ch with incoming := replaceIncoming ch.incoming (some (w.reg, new.1)) } }
                | .final _ => c))

/-- Whether a chunk holds a sector it has read from elsewhere. -/
def Chunk.hasRead (ch : Chunk) (sector : Nat) : Bool :=
  match ch.version sector with
  | none => false
  | some v => v.rd

/-- CONFLICTING_WRITE: a write from outside the thread is compared with the sectors that basted chunks have read (R180). -/
def execConflictingWrite (f : ForkId) (pa : BitVec 48) (s : State) : Host.Outcome State Fault Refusal :=
  .next (match s.fork f with
    | none => s
    | some x =>
      let sector := pa.toNat / 64
      if !x.conflict.contains sector then s
      else
        let x1 := { x with conflict := x.conflict.filter (fun a => decide (a ≠ sector)) }
        let first := x.info.oldest + 1
        match ((List.range (x.started - first)).map (· + first)).find? (fun k =>
            ((s.ctx (s.chunkCtx f x k)).chunk.map (fun ch => ch.hasRead sector)).getD false) with
        | none => s.setFork f x1
        | some j => s.setFork f (x1.noteDue j .mem none))

/-- UNPICK: the unpick that is due is performed (R175, R181). -/
def execUnpick (f : ForkId) (k : Nat) (cause : SquashCause) (s : State) : Host.Outcome State Fault Refusal :=
  .next (match s.fork f with
    | none => s
    | some x =>
      match x.due with
      | none => s
      | some (j, c, r) =>
        if j = k && c = cause then (s.setFork f { x with due := none }).unpickFrom f j c r else s)

/-- The basted chunk to unpick for a way: the farthest from its thread's oldest chunk, on a tie the lower slot (R182). -/
def State.wayVictim (s : State) (set : Nat) : List CtxId → Option (CtxId × Nat × Nat) → Option (CtxId × Nat × Nat)
  | [], best => best
  | m :: ms, best =>
    let here : Option (Nat × Nat) :=
      match (s.ctx m).chunk, s.fork (s.forkIdOf m) with
      | some ch, some x =>
        if decide (ch.number ≠ x.info.oldest) && decide (0 < s.waysOf m set) then some (ch.number, ch.number - x.info.oldest) else none
      | _, _ => none
    match here with
    | none => State.wayVictim s set ms best
    | some (k, far) =>
      match best with
      | none => State.wayVictim s set ms (some (m, k, far))
      | some b => State.wayVictim s set ms (if b.2.2 < far then some (m, k, far) else best)

/-- The oldest chunk of a core that holds the most ways of a set, on a tie the lower slot. -/
def State.mostWays (s : State) (set : Nat) : List CtxId → Option CtxId → Option CtxId
  | [], best => best
  | m :: ms, best =>
    match best with
    | none => State.mostWays s set ms (if 0 < s.waysOf m set then some m else none)
    | some b => State.mostWays s set ms (if s.waysOf b set < s.waysOf m set then some m else best)

/-- L1_WAY_RECLAIM: an oldest chunk that finds every way of a set held by version lines (R31, R182). -/
def execL1WayReclaim (u : CtxId) (set : Nat) (s : State) : Host.Outcome State Fault Refusal :=
  .next (match (s.ctx u).chunk with
    | none => s
    | some ch =>
      match ch.request with
      | none => s
      | some (sector, _) =>
        if setOf sector ≠ set || s.basted u || s.wayFor u ch sector then s
        else match s.wayVictim set (slotMates u) none with
          | some (m, k, _) =>
            match s.fork (s.forkIdOf m) with
            | none => s
            | some x => s.setFork (s.forkIdOf m) (x.noteDue k .cap none)
          | none =>
            if !s.maySew u then s.askSew u
            else
              let s1 := s.sewThrough u
              if s1.waysUsed u set < 16 then s1
              else match s1.mostWays set (slotMates u) none with
                | none => s1
                | some m => if s1.maySew m then s1.sewThrough m else s1.askSew m)

/-- Nothing is under way between the chunks of a fork. -/
def Fork.quiet (x : Fork) : Bool := x.due.isNone && x.notices.isEmpty && x.forwards.isEmpty && x.conflict.isEmpty

/-- CHUNK_OLDEST: the commit token arrives; a recorded trap is now taken (R185, R191). -/
def execChunkOldest (f : ForkId) (s : State) : Host.Outcome State Fault Refusal :=
  .next (match s.fork f with
    | none => s
    | some x =>
      match x.token, x.handover with
      | some k, some _ =>
        if !x.quiet || decide (x.started ≤ k) then s
        else
          let u := s.chunkCtx f x k
          let s1 := s.landToken f
          match ((s.ctx u).chunk.map (·.trap)).getD none with
          | none => s1
          | some t =>
            (s1.updCtx u (fun c => { c with chunk := c.chunk.map (fun ch => { ch with trap := none }) })).enter u false true
              t.cause t.tval t.xpc t.epx
      | _, _ => s)

end Sys2Proof.Machine
end

