-- ==== Sys2Proof/Machine/Fabric.lean ====
section
/-! DEFINITION. The fabric: where a thread is found, windows and their checks, destination slots, allowance and credit
(10_messages.md R256-R265, R421). -/

namespace Sys2Proof.Machine

/-! ## Threads wherever they are (R265, R343) -/

def Die.swap (d : Die) (e : Nat) : Option Swapped := d.swaps.find? (fun w => w.entry = e)

/-- Whether the partition of a context is in a switch: from its stop to its resume no packet reaches it (R367). -/
def State.away (s : State) (u : CtxId) : Bool := decide ((s.part (s.partOfCtx u)).pstate = .switching)

/-- The registers of a thread that packets may reach now. A thread whose partition is in a switch, or saved, is out of reach
until it resumes (R367), and so is one whose commit token is on its way. -/
def State.thread (s : State) (h : Holder) : Option Ctx :=
  match h with
  | .here u =>
    let c := s.ctx u
    if c.status = .free || s.basted u || s.away u then none else some c
  | .parked d e => ((s.die d).swap e).map (·.ctx)
  | .saved _ _ => none
  | .outside _ => none

def State.updThread (s : State) (h : Holder) (f : Ctx → Ctx) : State :=
  match h with
  | .here u => s.updCtx u f
  | .parked d e =>
    s.setDie d { s.die d with swaps := (s.die d).swaps.map (fun w => if w.entry = e then { w with ctx := f w.ctx } else w) }
  | .saved _ _ => s
  | .outside _ => s

/-- A thread saved with its partition. -/
def State.savedThread (s : State) (p : Fin 16) (u : CtxId) : Option Ctx := ((s.part p.val).saves.find? (fun uc => uc.1 = u)).map (·.2)

/-- A thread as its demands stand at their targets, where they are answered while it is out of reach (R264, R367). -/
def State.sender (s : State) (h : Holder) : Option Ctx :=
  match h with
  | .here u => if (s.ctx u).status = .free || s.basted u then none else some (s.ctx u)
  | .parked d e => ((s.die d).swap e).map (·.ctx)
  | .saved p u => s.savedThread p u
  | .outside _ => none

def State.updSender (s : State) (h : Holder) (f : Ctx → Ctx) : State :=
  match h with
  | .here u => s.updCtx u f
  | .parked _ _ => s.updThread h f
  | .saved p u =>
    s.setPart p.val { s.part p.val with saves := (s.part p.val).saves.map (fun uc => if uc.1 = u then (uc.1, f uc.2) else uc) }
  | .outside _ => s

def State.holderUnit (s : State) (h : Holder) : CtxId :=
  match h with
  | .here u => u
  | .parked d e => (((s.die d).swap e).map (·.home)).getD ⟨d, 0, 0⟩
  | .saved _ u => u
  | .outside _ => ⟨0, 0, 0⟩

def Ctx.slot (c : Ctx) (ds : BitVec 4) : DSlot := c.slots[ds.toNat]'ds.isLt
def Ctx.setSlot (c : Ctx) (ds : BitVec 4) (x : DSlot) : Ctx := { c with slots := c.slots.set ds.toNat x ds.isLt }
def Ctx.updSlot (c : Ctx) (ds : BitVec 4) (f : DSlot → DSlot) : Ctx := c.setSlot ds (f (c.slot ds))

/-! ## Domain membership (R307, R421) -/

/-- Whether a partition belongs to the module's rollback domain. -/
def State.inDomain (s : State) (p : Nat) : Bool :=
  match s.domain with
  | none => false
  | some d => decide (p ≠ 0) && bitOf d.parts p

/-- Whether a window, named by its unit, belongs to the module's domain. -/
def State.windowInDomain (s : State) (d : Fin 8) (unit : Nat) : Bool :=
  decide (unit < 160) && s.inDomain (s.partOf d (quadOfUnit unit))

/-- OUT of a slot of a domain context whose target lies in the module, after a change of partitions (R421). -/
def State.renewedOut (s : State) (c : Ctx) : Ctx :=
  if !c.dom then c
  else { c with slots := c.slots.map (fun x => match s.unitOf x.ep with
    | some (d, unit) => { x with out := x.bnd && !s.windowInDomain d unit }
    | none => x) }

/-- The partitions of quads have changed: OUT of every thread's slots follows (R421). -/
def State.renewOut (s : State) : State :=
  if s.domain.isNone then s
  else { s with
    ctxs := s.ctxs.map (fun kc => (kc.1, s.renewedOut kc.2))
    forks := s.forks.map (fun kf => (kf.1, { kf.2 with handover := kf.2.handover.map s.renewedOut }))
    dies := s.dies.map (fun d => { d with swaps := d.swaps.map (fun w => { w with ctx := s.renewedOut w.ctx }) })
    parts := s.parts.map (fun p => { p with saves := p.saves.map (fun uc => (uc.1, s.renewedOut uc.2)) }) }

/-! ## Gates: the windows of a quad or of a die agent -/

def gateKey (d : Fin 8) (unit : Nat) : Nat := if unit = 1023 then 256 + d.val else quadKey d.val (quadOfUnit unit)

def State.gate (s : State) (d : Fin 8) (unit : Nat) : Quad := Table.getD s.quads (gateKey d unit) Quad.reset
def State.setGate (s : State) (d : Fin 8) (unit : Nat) (q : Quad) : State := { s with quads := Table.put s.quads (gateKey d unit) q }

def Quad.win (q : Quad) (w : BitVec 2) : Word := q.rwin[w.toNat]'w.isLt
def Quad.engine (q : Quad) (w : BitVec 2) : RingEngine := q.engines[w.toNat]'w.isLt
def Quad.setEngine (q : Quad) (w : BitVec 2) (e : RingEngine) : Quad := { q with engines := q.engines.set w.toNat e w.isLt }

def winSsc (w : Word) : Nat := field w 8 3
def winTgt (w : Word) : Nat := field w 11 3

/-- Incarnation of an endpoint (R256). -/
def State.incOf (s : State) (d : Fin 8) (unit : Nat) : BitVec 8 := if unit = 1023 then (s.die d).agentInc else (s.core d unit).inc

/-- Whether a window takes an operation, by function number (R257, R258 check 5). -/
def winTakes (w : Word) (fn : Nat) : Bool :=
  if fn = 1 || fn = 2 then bitOf w 2 && winRing w
  else if fn = 3 then bitOf w 2 && !winRing w
  else if fn = 4 then bitOf w 1 && !winRing w && !winIst w
  else bitOf w 3 && !winRing w && !winIst w

/-- Whether a window takes any operation at all. -/
def winTakesAny (w : Word) : Bool := winTakes w 1 || winTakes w 3 || winTakes w 4 || winTakes w 5

/-- Checks 2 to 4 of R258, and check 5 for an operation: the reason of the first that fails. Before step 10 of bring-up
every request is refused (R395). -/
def State.windowRefuses (s : State) (d : Fin 8) (unit : Nat) (win : BitVec 2) (src : BitVec 32) (dom : Bool) (fn : Option Nat) : Option (BitVec 4) :=
  let w := (s.gate d unit).win win
  if decide (s.hub.step < 10) || !winEn w || (decide (unit < 160) && decide (field (s.gate d unit).bist 0 2 = 1)) then some 1
  else if s.scopeBetween src (s.endpoint d unit) > winSsc w then some 4
  else if s.windowInDomain d unit && !winExt w && !winIst w && !dom then some 5
  else match fn with
    | none => none
    | some f => if winTakes w f then none else some 3

/-! ## Credit at a target of the module (R260, R264) -/

/-- The TAIL that counts: the last read, or for an external window the sealed one (R326). -/
def RingEngine.counted (e : RingEngine) (w : Word) : Word := if winExt w then e.sealed else e.tail

def Quad.ringSpace (q : Quad) (win : BitVec 2) : Nat :=
  let w := q.win win
  let e := q.engine win
  let t := e.counted w
  if badTail w e.head t then 0 else (ringArea w - (e.head.toNat - t.toNat)) / 64 - e.granted

/-- Beats a window could grant now. -/
def Quad.credit (q : Quad) (win : BitVec 2) : Nat := if winRing (q.win win) then q.ringSpace win else q.pool

def Quad.takeCredit (q : Quad) (win : BitVec 2) (n : Nat) : Quad :=
  if winRing (q.win win) then q.setEngine win { q.engine win with granted := (q.engine win).granted + n }
  else { q with pool := q.pool - n }

def Quad.returnCredit (q : Quad) (win : BitVec 2) (n : Nat) : Quad :=
  if winRing (q.win win) then q.setEngine win { q.engine win with granted := (q.engine win).granted - n }
  else { q with pool := min 512 (q.pool + n) }

/-- Taking the gate of the request's answer: the sectors of a record's beats and of the header that HEAD is in. -/
def appendSectors (w : Word) (head n : Nat) : List Nat :=
  (List.range (n / 64)).map (fun i => (winBase w + 64 + (head + 64 * i) % ringArea w) / 64) ++ [winBase w / 64]

/-- Credit comes back to the target of a slot; a target outside the module is not part of the state. -/
def State.returnTo (s : State) (ep : BitVec 32) (win : BitVec 2) (n : Nat) : State :=
  match s.unitOf ep with
  | none => s
  | some (d, unit) => if n = 0 then s else s.setGate d unit ((s.gate d unit).returnCredit win n)

/-- The initial grant of a binding: up to 16 beats, none where requests would be refused. -/
def State.initialGrant (s : State) (ep : BitVec 32) (win : BitVec 2) (src : BitVec 32) (dom : Bool) : Nat × State :=
  match s.unitOf ep with
  | none => (0, s)
  | some (d, unit) =>
    if (s.windowRefuses d unit win src dom none).isSome || !winTakesAny ((s.gate d unit).win win) then (0, s)
    else
      let g := s.gate d unit
      let n := min 16 (g.credit win)
      (n, s.setGate d unit (g.takeCredit win n))

/-! ## Allowance (R262, R263) -/

/-- Beats in the egress hold of a die: held requests and held device stores (R312, R325). -/
def Req.heldBeats (r : Req) : Nat :=
  match r.stage with
  | .held _ => r.beats
  | .timed _ => 0
  | .flying => 0
  | .performed => 0
  | .answered _ _ _ => 0
  | .refused _ => 0
  | .stale => 0


def holderDie (h : Holder) : Fin 8 :=
  match h with
  | .here u => u.die
  | .parked d _ => d
  | .saved _ u => u.die
  | .outside _ => 0

def Req.fromDie (r : Req) (d : Fin 8) : Bool :=
  match r.src with
  | none => false
  | some h => decide (holderDie h = d)

def State.holdUsed (s : State) (d : Fin 8) : Nat :=
  (((s.net.filter (fun r => r.fromDie d)).map Req.heldBeats).sum) + (s.die d).holds.length

def State.holdFree (s : State) (d : Fin 8) : Nat := 65536 - s.holdUsed d

/-- The target port of a slot signals XOFF. -/
def State.isXoff (s : State) (ep : BitVec 32) : Bool := s.xoff.contains (BitVec.ofNat 18 (field ep 14 18))

def State.pathAllow (s : State) (x : DSlot) : Nat :=
  if s.isXoff x.ep then 0 else if x.infl = 0 then 256 else x.pmax - x.infl

/-- ALW of a slot: 0 when unbound; `imm` ignores HOLD (R262, R280). -/
def State.allowance (s : State) (d : Fin 8) (x : DSlot) (imm : Bool) : Nat :=
  if !x.bnd then 0
  else
    let a := min x.wc (s.pathAllow x)
    if x.out && !imm then min a (s.holdFree d) else a

/-- ALWn as a CSR (R262). -/
def State.alwCsr (s : State) (d : Fin 8) (x : DSlot) : Word :=
  let h := min (s.holdFree d) 0xFFFF
  Machine.place 0 16 (s.allowance d x false) ||| Machine.place 16 16 x.wc ||| Machine.place 32 16 (if x.bnd then s.pathAllow x else 0) ||| Machine.place 48 16 h

/-- DSLOTn as a CSR (R261). -/
def slotCsr (x : DSlot) (outst : Nat) : Word :=
  place 0 32 x.ep.toNat ||| place 32 2 x.win.toNat ||| boolBit 34 x.bnd ||| boolBit 35 x.out ||| boolBit 36 x.rst ||| boolBit 37 x.pfl |||
    place 40 8 x.inc.toNat ||| place 48 6 outst

/-- Credit that a demand of a slot has been granted and that has not arrived yet. -/
def DSlot.granted (x : DSlot) : Nat :=
  match x.demand with
  | none => 0
  | some d => match d.answer with
    | some (.credit n) => n
    | some (.refusal _) => 0
    | none => 0

/-- A slot's unused credit goes back (R264, R271). -/
def State.returnSlot (s : State) (x : DSlot) : State := if x.bnd then s.returnTo x.ep x.win (x.wc + x.granted) else s

/-! ## Completing requests (R255, R263, R278) -/

def Req.sameFlow (r : Req) (h : Holder) (ds : BitVec 4) : Bool :=
  decide (r.src = some h) && decide (r.ds = ds) && r.issued && (match r.kind with
    | .start _ _ => false
    | .put _ _ => true
    | .send _ => true
    | .get _ _ _ => true
    | .ramo _ _ _ _ _ _ => true
    | .pairs _ => true
    | .flush => true)

def Req.isStart (r : Req) : Bool :=
  match r.kind with
  | .start _ _ => true
  | .put _ _ => false
  | .send _ => false
  | .get _ _ _ => false
  | .ramo _ _ _ _ _ _ => false
  | .pairs _ => false
  | .flush => false

/-- The remote offset that a fault reports (R278); for a request with none, or with several, log 126. -/
def Req.offset (r : Req) : Nat :=
  match r.kind with
  | .put off _ => off
  | .send _ => 0
  | .get off _ _ => off
  | .ramo _ off _ _ _ _ => off
  | .pairs ps => ((ps.head?).map (·.1)).getD 0
  | .flush => 0
  | .start _ _ => 0

/-- TVAL of a message fault (R278). -/
def msgTval (ds : BitVec 4) (fn : Nat) (isStart : Bool) (reason : BitVec 4) (off : Nat) : Word :=
  if isStart then place 4 3 1 ||| boolBit 7 true ||| place 8 4 reason.toNat
  else place 0 4 ds.toNat ||| place 4 3 fn ||| place 8 4 reason.toNat ||| place 12 52 off

/-- A pending message fault; only the first is kept. -/
def Ctx.addMsgFault (c : Ctx) (cause : BitVec 8) (tval : Word) : Ctx :=
  match c.msgFault with
  | some _ => c
  | none => { c with msgFault := some ⟨cause, tval, 0⟩ }

/-- What an issuing thread sees of a request that is refused or ended: its beats are no longer in flight. PMAX stands: it
moves only with acknowledgements (R263; log 85). -/
def Req.settle (r : Req) (c : Ctx) : Ctx :=
  if r.isStart then c else c.updSlot r.ds (fun x => { x with infl := x.infl - r.beats })

def removeAt {α : Type} : List α → Nat → List α
  | [], _ => []
  | _ :: xs, 0 => xs
  | x :: xs, n + 1 => x :: removeAt xs n

def replaceAt {α : Type} : List α → Nat → α → List α
  | [], _, _ => []
  | _ :: xs, 0, y => y :: xs
  | x :: xs, n + 1, y => x :: replaceAt xs n y

/-- Requests of a thread saved with its partition, or whose partition is in a switch, wait in spill buffers (R367). -/
def State.spilled (s : State) (r : Req) : Bool :=
  match r.src with
  | some (.saved _ _) => true
  | some (.here u) => s.away u
  | some (.parked _ _) => false
  | some (.outside _) => false
  | none => false

/-- The packets of a request: 4,096 payload bytes each (R255). -/
def Req.packets (r : Req) : Nat := max 1 ((r.beats + 63) / 64)

/-- Packets to a unit that the module does not have are dropped and counted: those of the module's own units and of the control
node by the hub, each from outside by the gateway of the optical die at which it enters (R18; log 89). -/
def State.countDrop (src : BitVec 32) (s : State) : State :=
  let bump (s : State) (i : Fin 5) : State := { s with hub := { s.hub with drops := s.hub.drops.set i.val (s.hub.drops[i] + 1) i.isLt } }
  if field src 14 18 = s.pkg.toNat || src = controlNode then bump s 0
  else
    let f := s.fresh
    bump f.2 ⟨f.1.toNat % 4 + 1, by omega⟩

def State.countDrops (src : BitVec 32) : Nat → State → State
  | 0, s => s
  | n + 1, s => State.countDrops src n (s.countDrop src)

def State.dropAbsent (s : State) (r : Req) : State := if s.absent r.target then s.countDrops r.srcEp r.packets else s

/-- The target answers; towards a source outside the module the answer leaves. -/
def State.answerReq (s : State) (n : Nat) (r : Req) (st : ReqStage) : State :=
  { s with net := if r.src.isNone then removeAt s.net n else replaceAt s.net n { r with stage := st } }

/-- A flow ends with PEER-RESET (R255, R256): every outstanding request of the slot completes with it, the slot is
unbound with RST. The credit that the slot held, and that of its beats on the way, is not returned (log 86). -/
def State.endFlow (s : State) (h : Holder) (ds : BitVec 4) (reason : BitVec 4) : State :=
  let rs := s.net.filter (fun r => r.sameFlow h ds)
  let s1 := { s with net := s.net.filter (fun r => !r.sameFlow h ds) }
  s1.updThread h (fun c =>
    let c1 := rs.foldl (fun c r => (r.settle c).addMsgFault causePeerReset (msgTval ds r.fn.toNat false reason r.offset)) c
    c1.updSlot ds (fun x => { x with bnd := false, rst := true, wc := 0, demand := none, refusal := none }))

/-! ## Freeing a thread's holdings (R243, R340, R361) -/

/-- A mutex among the module's. -/
def mutexKey (d : Fin 8) (q : Nat) (m : Nat) : Nat := 8 * quadKey d.val q + m

/-- Freeing the mutexes that `p` names by their key and the thread that took them: a thread keeps a mutex wherever it moves (R243,
R340; log 31). -/
def State.freeMutexes (s : State) (p : Nat → Holder → Bool) : State :=
  let taken (k m : Nat) : Bool := ((Table.find s.owners (8 * k + m)).map (p (8 * k + m))).getD false
  { s with
    quads := s.quads.map (fun kq => (kq.1, { kq.2 with evu := { kq.2.evu with
      mutexes := kq.2.evu.mutexes.mapIdx (fun m x => if taken kq.1 m then none else x) } }))
    owners := s.owners.filter (fun kh => !p kh.1 kh.2) }

/-- The mutexes that a thread holds become free (R243). -/
def State.releaseMutexes (s : State) (h : Holder) : State := s.freeMutexes (fun _ x => decide (x = h))

/-- A slot whose credit has been returned. -/
def DSlot.drop (x : DSlot) : DSlot := { x with wc := 0, demand := none, refusal := none }

/-- What END releases beside the slot: the context's mutexes and the unused credit of every bound slot. -/
def State.releaseHoldings (s : State) (u : CtxId) : State :=
  ((s.ctx u).slots.toList.foldl (fun t x => t.returnSlot x) (s.releaseMutexes (.here u))).updCtx u (fun c => { c with slots := c.slots.map DSlot.drop })

/-- A request that is debited and has not reached its target. -/
def Req.onTheWay (r : Req) : Bool :=
  match r.stage with
  | .held _ => true
  | .flying => true
  | .timed _ => false
  | .performed => false
  | .answered _ _ _ => false
  | .refused _ => false
  | .stale => false

/-- Requests dropped: the credit of those on their way goes back. -/
def State.dropNet (s : State) (p : Req → Bool) : State :=
  let s1 := (s.net.filter p).foldl (fun t r => if r.credited && r.onTheWay then t.returnTo r.target r.win r.beats else t) s
  { s1 with net := s1.net.filter (fun r => !p r) }

/-- Requests of a thread dropped without completing (R282). -/
def State.dropReqs (s : State) (h : Holder) : State := s.dropNet (fun r => decide (r.src = some h))

/-- An EVLD of a context that its EVU has not served is withdrawn (R244). -/
def State.withdrawEvld (s : State) (u : CtxId) : State :=
  let q := s.quad u.die u.quad
  (s.setQuad u.die u.quad { q with evu := { q.evu with queue := q.evu.queue.filter (fun m => decide (m ≠ u)) } }).updCtx u
    (fun c => { c with evld := none })

/-- A waiting instruction that has not issued leaves no trace (R103): its watch, bind, EVLD and SENDT are withdrawn; its
demand stands (R281). -/
def State.withdraw (s : State) (u : CtxId) : State :=
  ({ s.withdrawEvld u with net := s.net.filter (fun r => !(decide (r.src = some (Holder.here u)) && !r.issued)) }).updCtx u
    (fun c => { c with wait := none, watch := [], woken := false, binding := none })

end Sys2Proof.Machine
end

