-- ==== Sys2Proof/Machine/Csrs.lean ====
section
/-! DEFINITION. The CSRs: the index of R375, access codes (R4), the value each reads as, its writable fields and its own
rule. The CSR instructions themselves stand in System.lean. -/

namespace Sys2Proof.Machine

inductive CsrId where
  | fflg | frm | vflg | vl | vtagl | vtagh | epx
  | vhwm (n : Fin 32)
  | pol (n : Fin 4)
  | cpydim | trb | fkliv | fkvec | fkcfg | sqcnt | tfmt | scla | sclb | apitch | tln
  | alw (n : Fin 16)
  | dslot (n : Fin 16)
  | slotcfg | owntbl | rin | sealrin | uloglvl | ulogth | holdlvl | rollcnt | ealw | ecls | thpri | desched
  | trapv | tcause | tval | xpc | xstat | gswt | ptroot | self | xscr | time
  | rwin (n : Fin 4)
  | rngb (n : Fin 16)
  | rngl (n : Fin 16)
  | scopechk | trcctl
  | pmc (n : Fin 15)
deriving DecidableEq, Repr

/-- The CSRs that every unit has (R375). -/
def csrCommon (a : Nat) : Option CsrId :=
  if a = 0x001 then some .fflg else if a = 0x002 then some .frm
  else if 0x060 ≤ a ∧ a ≤ 0x063 then some (.pol (mkFin4 (a - 0x060)))
  else if a = 0x070 then some .cpydim else if a = 0x080 then some .trb
  else if 0x0B0 ≤ a ∧ a ≤ 0x0BF then some (.alw (mkFin16 (a - 0x0B0)))
  else if 0x0C0 ≤ a ∧ a ≤ 0x0CF then some (.dslot (mkFin16 (a - 0x0C0)))
  else if a = 0x0D0 then some .slotcfg
  else if a = 0x0E0 then some .rin else if a = 0x0E1 then some .sealrin else if a = 0x0E2 then some .uloglvl
  else if a = 0x0E3 then some .ulogth else if a = 0x0E4 then some .holdlvl else if a = 0x0E5 then some .rollcnt
  else if a = 0x0F0 then some .ealw else if a = 0x0F1 then some .ecls else if a = 0x0F2 then some .thpri
  else if a = 0x0F3 then some .desched
  else if a = 0x100 then some .trapv else if a = 0x101 then some .tcause else if a = 0x102 then some .tval
  else if a = 0x103 then some .xpc else if a = 0x104 then some .xstat else if a = 0x105 then some .gswt
  else if a = 0x106 then some .ptroot else if a = 0x107 then some .self else if a = 0x108 then some .xscr
  else if a = 0x110 then some .time
  else if 0x120 ≤ a ∧ a ≤ 0x123 then some (.rwin (mkFin4 (a - 0x120)))
  else if 0x130 ≤ a ∧ a ≤ 0x13F then some (.rngb (mkFin16 (a - 0x130)))
  else if 0x140 ≤ a ∧ a ≤ 0x14F then some (.rngl (mkFin16 (a - 0x140)))
  else if a = 0x150 then some .scopechk else if a = 0x160 then some .trcctl
  else if 0x161 ≤ a ∧ a ≤ 0x16F then some (.pmc ⟨(a - 0x161) % 15, Nat.mod_lt _ (by decide)⟩)
  else none

/-- The CSRs of a vector core alone, and of a QCC alone. -/
def csrOfCore (a : Nat) : Option CsrId :=
  if a = 0x003 then some .vflg
  else if a = 0x010 then some .vl else if a = 0x011 then some .vtagl else if a = 0x012 then some .vtagh
  else if a = 0x013 then some .epx
  else if 0x040 ≤ a ∧ a ≤ 0x05F then some (.vhwm (mkFin32 (a - 0x040)))
  else if a = 0x090 then some .fkliv else if a = 0x091 then some .fkvec else if a = 0x092 then some .fkcfg
  else if a = 0x093 then some .sqcnt else if a = 0x0D1 then some .owntbl
  else none

def csrOfQcc (a : Nat) : Option CsrId :=
  if a = 0x0A0 then some .tfmt else if a = 0x0A1 then some .scla else if a = 0x0A2 then some .sclb
  else if a = 0x0A3 then some .apitch else if a = 0x0A4 then some .tln
  else none

/-- The CSR at an address on a kind of unit; none where the index lists none (R5, R364). -/
def csrAt (qcc : Bool) (a : Nat) : Option CsrId :=
  match csrCommon a with
  | some i => some i
  | none => if qcc then csrOfQcc a else csrOfCore a

/-! ## Access codes (R4) -/

inductive Access where
  | rw | ro | w1c | srw | so
deriving DecidableEq, Repr

def CsrId.access (i : CsrId) : Access :=
  match i with
  | .fflg => .rw | .frm => .rw | .vflg => .rw | .vl => .rw | .vtagl => .rw | .vtagh => .rw
  | .epx => .srw
  | .vhwm _ => .rw | .pol _ => .rw | .cpydim => .rw
  | .trb => .w1c
  | .fkliv => .rw | .fkvec => .rw | .fkcfg => .rw | .sqcnt => .rw | .tfmt => .rw | .scla => .rw | .sclb => .rw | .apitch => .rw
  | .tln => .ro | .alw _ => .ro
  | .dslot _ => .w1c
  | .slotcfg => .srw
  | .owntbl => .rw
  | .rin => .ro | .sealrin => .ro | .uloglvl => .ro
  | .ulogth => .srw
  | .holdlvl => .ro | .rollcnt => .ro | .ealw => .ro
  | .ecls => .rw
  | .thpri => .srw | .desched => .srw
  | .trapv => .so | .tcause => .so | .tval => .so | .xpc => .so | .xstat => .so | .gswt => .so | .ptroot => .so
  | .self => .ro
  | .xscr => .so
  | .time => .ro
  | .rwin _ => .so | .rngb _ => .so | .rngl _ => .so
  | .scopechk => .rw | .trcctl => .rw | .pmc _ => .rw

/-- Whether the access code lets a level access the CSR; `writes` when the instruction writes. -/
def Access.allows (a : Access) (sup writes : Bool) : Bool :=
  match a with
  | .rw => true
  | .ro => true
  | .w1c => true
  | .srw => sup || !writes
  | .so => sup

/-- Writes to these change a chunk's own state only and are not irrevocable (R161, R188). -/
def CsrId.chunkOwn (i : CsrId) : Bool :=
  match i with
  | .vl => true | .vtagl => true | .vtagh => true | .epx => true
  | .vhwm _ => true
  | .fflg => false | .frm => false | .vflg => false | .pol _ => false | .cpydim => false | .trb => false
  | .fkliv => false | .fkvec => false | .fkcfg => false | .sqcnt => false | .tfmt => false | .scla => false | .sclb => false
  | .apitch => false | .tln => false | .alw _ => false | .dslot _ => false | .slotcfg => false | .owntbl => false
  | .rin => false | .sealrin => false | .uloglvl => false | .ulogth => false | .holdlvl => false | .rollcnt => false
  | .ealw => false | .ecls => false | .thpri => false | .desched => false | .trapv => false | .tcause => false
  | .tval => false | .xpc => false | .xstat => false | .gswt => false | .ptroot => false | .self => false | .xscr => false
  | .time => false | .rwin _ => false | .rngb _ => false | .rngl _ => false | .scopechk => false | .trcctl => false
  | .pmc _ => false

/-- The bits of the fields that a write can change; of W1C fields, the bits that writing 1 clears. -/
def CsrId.mask (i : CsrId) : Word :=
  match i with
  | .fflg => 0x3F | .frm => 0x7 | .vflg => 0x3F
  | .vl => 0x7FF | .vtagl => 0xFFFFFFFFFFFFFFFF | .vtagh => 0xFFFFFFFFFFFFFFFF
  | .epx => 0x87FF87FF87FF87FF
  | .vhwm _ => 0x1F
  | .pol _ => 0xFFFFFFFFFFFFFFFF
  | .cpydim => 0xFFFFFFFFFFFFFFFF
  | .trb => 0xFFFFFFFFFFFFFFFF
  | .fkliv => 0xFFFFFFFE
  | .fkvec => 0xFE3F3F3F3F
  | .fkcfg => 0x1001F
  | .sqcnt => 0xFFFFFFFFFFFFFFFF
  | .tfmt => 0xFFF
  | .scla => 0x80000000003FFFFF | .sclb => 0x80000000003FFFFF
  | .apitch => 0xFFFF01FFFFFF
  | .tln => 0 | .alw _ => 0
  | .dslot _ => 0x2000000000
  | .slotcfg => 0xFFFFFFFFFFFFFFFF
  | .owntbl => 0x3FFF
  | .rin => 0 | .sealrin => 0 | .uloglvl => 0
  | .ulogth => 0x3FFFFFFFF
  | .holdlvl => 0 | .rollcnt => 0 | .ealw => 0
  | .ecls => 0x3
  | .thpri => 0xFF07
  | .desched => 0xFFFFFFFF
  | .trapv => 0x1FF00
  | .tcause => 0x3FF
  | .tval => 0xFFFFFFFFFFFFFFFF | .xpc => 0xFFFFFFFFFFFFFFFF
  | .xstat => 0x3E
  | .gswt => 0x80FFFFFFFFFFFFFF ||| 0x0100000000000000
  | .ptroot => 0xFFFFFFFFFFFFF001
  | .self => 0
  | .xscr => 0xFFFFFFFFFFFFFFFF
  | .time => 0
  | .rwin _ => 0xFFFFFFFFFFFF3F7F
  | .rngb _ => 0x01FFFFFFFFFF000F
  | .rngl _ => 0xFFFFFFFFFFFFFFFF
  | .scopechk => 0x03FFFFFFFFFFFFFF
  | .trcctl => 0x2F
  | .pmc _ => 0xFFFFFFFFFFFFFFFF

/-! ## Values -/

/-- The tags of sixteen registers from `base` on, as VTAGL and VTAGH show them (R133). -/
def packTags (v : Vector VReg 32) (base : Nat) : Word :=
  (List.range 16).foldl (fun acc i => acc ||| place (4 * i) 4 ((v[(base + i) % 32]'(Nat.mod_lt _ (by decide))).tag.code)) 0

def tagsOk (w : Word) : Bool := (List.range 16).all (fun i => (Tag.ofCode (field w (4 * i) 4)).isSome)

def setTags (v : Vector VReg 32) (base : Nat) (w : Word) : Vector VReg 32 :=
  v.mapIdx (fun r x => if base ≤ r ∧ r < base + 16 then { x with tag := (Tag.ofCode (field w (4 * (r - base)) 4)).getD x.tag } else x)

/-- Writing a high-water mark: bytes above a lower mark are discarded, granules under a higher one are zero (R133). -/
def VReg.setMark (v : VReg) (g : Nat) : VReg :=
  if v.hwm ≤ g then v.grow g else { v with data := lowGranules v.data g, hwm := g }

def Ctx.forked (c : Ctx) : Bool := c.chunk.isSome || c.joinPhase || c.inner.isSome

def xstatOf (c : Ctx) : Word :=
  boolBit 0 c.sup ||| boolBit 1 c.csr.ie ||| boolBit 2 c.csr.exl ||| boolBit 3 c.csr.plvl ||| boolBit 4 c.csr.pie |||
    boolBit 5 c.csr.gsi ||| boolBit 6 c.csr.ipend ||| boolBit 7 c.forked

def rinCsr (c : Ctx) : Word := c.rin.setWidth 64 ||| boolBit 32 c.dom ||| boolBit 33 c.sealing

def thpriOf (c : Ctx) : Word := c.csr.pri.setWidth 64 ||| place 8 8 c.csr.age ||| boolBit 16 c.boost

/-- The CSRs that a context holds, as a save area stores them (R370, R375). -/
def Ctx.csrValue (c : Ctx) (i : CsrId) : Word :=
  match i with
  | .fflg => c.csr.fflg.setWidth 64
  | .frm => c.csr.frm.setWidth 64
  | .vflg => c.csr.vflg.setWidth 64
  | .vl => BitVec.ofNat 64 c.csr.vl
  | .vtagl => packTags c.vregs 0
  | .vtagh => packTags c.vregs 16
  | .epx => c.epx
  | .vhwm n => BitVec.ofNat 64 c.vregs[n].hwm
  | .pol n => c.csr.pol[n]
  | .cpydim => c.csr.cpydim
  | .trb => c.trb
  | .fkliv => c.csr.fkliv
  | .fkvec => c.csr.fkvec
  | .fkcfg => place 0 5 c.csr.fklim ||| boolBit 16 c.csr.nopred
  | .sqcnt => packSq c.sqcnt
  | .tfmt => c.csr.tfmt.setWidth 64
  | .scla => c.csr.scla
  | .sclb => c.csr.sclb
  | .apitch => c.csr.apitch
  | .tln => c.tile.tln
  | .slotcfg => c.csr.slotcfg
  | .owntbl => c.csr.owntbl.setWidth 64
  | .rin => rinCsr c
  | .rollcnt => c.rollcnt
  | .ecls => BitVec.ofNat 64 c.csr.ecls
  | .thpri => thpriOf c
  | .desched => c.csr.desched.setWidth 64
  | .trapv => c.csr.trapv.setWidth 64 <<< 8
  | .tcause => c.csr.tcause.setWidth 64
  | .tval => c.csr.tval
  | .xpc => c.csr.xpc
  | .xstat => xstatOf c
  | .ptroot => c.csr.ptroot
  | .xscr => c.csr.xscr
  | .scopechk => c.csr.scopechk.setWidth 64
  | .trcctl => c.csr.trcctl.setWidth 64
  | .pmc n => c.csr.pmc[n]
  | .alw _ => 0 | .dslot _ => 0 | .sealrin => 0 | .uloglvl => 0 | .ulogth => 0 | .holdlvl => 0 | .ealw => 0 | .gswt => 0
  | .self => 0 | .time => 0 | .rwin _ => 0 | .rngb _ => 0 | .rngl _ => 0

/-- Saved levels of the SQCNT fields. -/
def unpackSq (w : Word) : Vector Nat 4 := #v[field w 0 16, field w 16 16, field w 32 16, field w 48 16]

/-- Tile formats that TFMT takes (R207). -/
def opFmtOk (n : Nat) : Bool := decide (n = 0) || decide (n = 1) || decide (n = 9) || decide (n = 10) || decide (n = 11) || decide (n = 12)
def accFmtOk (n : Nat) : Bool := decide (n = 0) || decide (n = 3) || decide (n = 11)

/-- Writing a context CSR, `v` being its whole new value; `none` where the CSR's own rule refuses it. -/
def Ctx.csrPut (c : Ctx) (qcc : Bool) (i : CsrId) (v : Word) : Option Ctx :=
  let k := c.csr
  match i with
  | .fflg => some { c with csr := { k with fflg := v.setWidth 6 } }
  | .frm => if field v 0 3 > 4 then none else some { c with csr := { k with frm := v.setWidth 3 } }
  | .vflg => some { c with csr := { k with vflg := v.setWidth 6 } }
  | .vl => if field v 0 11 > 1024 then none else some { c with csr := { k with vl := field v 0 11 } }
  | .vtagl => if tagsOk v then some { c with vregs := setTags c.vregs 0 v } else none
  | .vtagh => if tagsOk v then some { c with vregs := setTags c.vregs 16 v } else none
  | .epx =>
    if (List.range 4).any (fun j => decide (field v (16 * j) 11 > 1024)) then none else some { c with epx := v }
  | .vhwm n => if field v 0 5 > 16 then none else some { c with vregs := c.vregs.set n.val (c.vregs[n].setMark (field v 0 5)) n.isLt }
  | .pol n => some { c with csr := { k with pol := k.pol.set n.val v n.isLt } }
  | .cpydim => some { c with csr := { k with cpydim := v } }
  | .trb => some { c with trb := v }
  | .fkliv => some { c with csr := { k with fkliv := v } }
  | .fkvec => some { c with csr := { k with fkvec := v } }
  | .fkcfg =>
    if field v 0 5 < 2 ∨ field v 0 5 > 16 then none else some { c with csr := { k with fklim := field v 0 5, nopred := bitOf v 16 } }
  | .sqcnt => some { c with sqcnt := unpackSq v }
  | .tfmt =>
    if opFmtOk (field v 0 4) && opFmtOk (field v 4 4) && accFmtOk (field v 8 4) then
      some { c with csr := { k with tfmt := v.setWidth 12 } } else none
  | .scla => some { c with csr := { k with scla := v } }
  | .sclb => some { c with csr := { k with sclb := v } }
  | .apitch =>
    if field v 0 16 % 8 = 0 ∧ field v 16 9 % 8 = 0 ∧ 8 ≤ field v 16 9 ∧ field v 16 9 ≤ 256 then
      some { c with csr := { k with apitch := v } } else none
  | .dslot n => some { c with slots := c.slots.set n.val { c.slots[n] with pfl := bitOf v 37 } n.isLt }
  | .slotcfg => some { c with csr := { k with slotcfg := v } }
  | .owntbl => if field v 5 4 + field v 9 5 > 16 then none else some { c with csr := { k with owntbl := v.setWidth 14 } }
  | .ecls => if field v 0 2 = 3 then none else some { c with csr := { k with ecls := field v 0 2 } }
  | .thpri => if field v 8 8 < 8 then none else some { c with csr := { k with pri := v.setWidth 3, age := field v 8 8 } }
  | .desched => some { c with csr := { k with desched := v.setWidth 32 } }
  | .trapv =>
    if qcc && decide (field v 8 9 * 256 + 0x100 ≥ 0x10000) then none else some { c with csr := { k with trapv := BitVec.ofNat 9 (field v 8 9) } }
  | .tcause => some { c with csr := { k with tcause := v.setWidth 10 } }
  | .tval => some { c with csr := { k with tval := v } }
  | .xpc => some { c with csr := { k with xpc := v } }
  | .xstat => some { c with csr := { k with ie := bitOf v 1, exl := bitOf v 2, plvl := bitOf v 3, pie := bitOf v 4, gsi := bitOf v 5 } }
  | .ptroot => some { c with csr := { k with ptroot := v } }
  | .xscr => some { c with csr := { k with xscr := v } }
  | .scopechk => some { c with csr := { k with scopechk := v.setWidth 58 } }
  | .trcctl =>
    if bitOf v 1 && !bitOf v 0 then none else some { c with csr := { k with trcctl := v.setWidth 6 } }
  | .pmc n => some { c with csr := { k with pmc := k.pmc.set n.val v n.isLt } }
  | .tln => some c | .alw _ => some c | .rin => some c | .sealrin => some c | .uloglvl => some c | .ulogth => some c
  | .holdlvl => some c | .rollcnt => some c | .ealw => some c | .gswt => some c | .self => some c | .time => some c
  | .rwin _ => some c | .rngb _ => some c | .rngl _ => some c

/-! ## Computed CSRs -/

/-- Bytes of live undo records in the fullest stack, and that stack: the lowest on a tie (R311). -/
def State.fullest (s : State) : Nat × Nat :=
  (List.range 8).foldl (fun best k => if s.undoUsed k > best.1 then (s.undoUsed k, k) else best) (s.undoUsed 0, 0)

def ulogPack (used stack : Nat) : Word := place 0 34 used ||| place 34 3 stack

def State.ulogLevel (s : State) : Word := ulogPack s.fullest.1 s.fullest.2

/-- The hottest quad of a configured ring: 0 normal, 1 warm, 2 hot (R350). -/
def State.ringTherm (s : State) (d : Fin 8) (first : Nat) : Nat :=
  (List.range (s.ringLen d first / 4)).foldl (fun m i => max m (s.quad d (first + i)).therm.toNat) 0

/-- EALW saturates at the most negative 32-bit value (R348). -/
def ealwPack (e : Int) (q : Nat) : Word := ((BitVec.ofInt 32 e).setWidth 64) ||| place 32 32 q

def selfPack (ep : BitVec 32) (slot part : Nat) : Word := ep.setWidth 64 ||| place 32 2 slot ||| place 34 4 part

def sealPack (n : BitVec 32) (dom : BitVec 16) : Word := n.setWidth 64 ||| place 32 16 dom.toNat

/-- The context whose values a read of a live CSR sees: the oldest chunk's (R169). -/
def State.liveCtx (s : State) (u : CtxId) : Ctx := s.ctx (s.threadCtx u)

def State.liveSqOf (s : State) (u : CtxId) : Vector Nat 4 :=
  match (s.ctx u).chunk, s.fork (s.forkIdOf u) with
  | some _, some x => s.liveSq (s.forkIdOf u) x
  | _, _ => (s.ctx u).sqcnt

/-- The thread part of a forked thread: the token's while it is on its way, else the oldest chunk's. -/
def State.liveThread (s : State) (u : CtxId) : Ctx :=
  match (s.ctx u).chunk, s.fork (s.forkIdOf u) with
  | some _, some x => x.handover.getD (s.liveCtx u)
  | _, _ => s.ctx u

def gswtMine (p : Part) : Word := p.armed.getD 0

/-- The value of a CSR as a read returns it (R365, R375); every unit reads the same TIME (R19, log 99). -/
def State.csrRead (s : State) (u : CtxId) (i : CsrId) : Word :=
  let c := s.ctx u
  match i with
  | .fkcfg => c.csrValue .fkcfg ||| Machine.place 8 5 (s.ringOf u).elim
  | .sqcnt => packSq (s.liveSqOf u)
  | .alw n => s.alwCsr u.die (s.liveThread u).slots[n]
  | .dslot n => slotCsr c.slots[n] (s.outst (s.threadCtx u) (BitVec.ofNat 4 n.val))
  | .rin => if c.dom then rinCsr c else 0
  | .sealrin => if c.dom then sealPack (s.die u.die).sealed s.domId else 0
  | .uloglvl => if c.dom then s.ulogLevel else 0
  | .ulogth => if c.dom then s.hub.ulogth.setWidth 64 else 0
  | .holdlvl => if c.dom then Machine.place 0 17 (s.holdUsed u.die) else 0
  | .rollcnt => if c.dom then (s.liveThread u).rollcnt else 0
  | .ealw => ealwPack (s.ringOf u).ealw (s.ringOf u).quant
  | .ecls => c.csrValue .ecls ||| Machine.place 8 2 (s.ringTherm u.die (s.ringFirst u.die u.quad))
  | .gswt => gswtMine (s.part (s.partOfCtx u))
  | .self => selfPack (s.endpoint u.die u.unit.val) u.slot.val (s.partOfCtx u)
  | .time => BitVec.ofNat 64 s.time
  | .rwin n => (s.quad u.die u.quad).rwin[n]
  | .rngb n => s.rngb[n]
  | .rngl n => s.rngl[n]
  | .fflg => c.csrValue .fflg | .frm => c.csrValue .frm | .vflg => c.csrValue .vflg | .vl => c.csrValue .vl
  | .vtagl => c.csrValue .vtagl | .vtagh => c.csrValue .vtagh | .epx => c.csrValue .epx | .vhwm n => c.csrValue (.vhwm n)
  | .pol n => c.csrValue (.pol n) | .cpydim => c.csrValue .cpydim | .trb => c.csrValue .trb | .fkliv => c.csrValue .fkliv
  | .fkvec => c.csrValue .fkvec | .tfmt => c.csrValue .tfmt | .scla => c.csrValue .scla | .sclb => c.csrValue .sclb
  | .apitch => c.csrValue .apitch | .tln => c.csrValue .tln | .slotcfg => c.csrValue .slotcfg | .owntbl => c.csrValue .owntbl
  | .thpri => c.csrValue .thpri | .desched => c.csrValue .desched | .trapv => c.csrValue .trapv | .tcause => c.csrValue .tcause
  | .tval => c.csrValue .tval | .xpc => c.csrValue .xpc | .xstat => c.csrValue .xstat | .ptroot => c.csrValue .ptroot
  | .xscr => c.csrValue .xscr | .scopechk => c.csrValue .scopechk | .trcctl => c.csrValue .trcctl | .pmc n => c.csrValue (.pmc n)

end Sys2Proof.Machine
end

