-- ==== Sys2Proof/Machine/Places.lean ====
section
/-! DEFINITION. Thread records, eligibility, placement and freeing of threads (13_threads_energy.md R334, R335, R338,
12_recovery.md R324). -/

namespace Sys2Proof.Machine

/-! ## Records (R334) -/

/-- The fields of a 64-byte record, given as a number. -/
def recordOf (n : Nat) : Record :=
  let w (i : Nat) : Word := BitVec.ofNat 64 (n / 2 ^ (64 * i))
  { pc := field (w 0) 0 17
    rlen := field (w 0) 17 2
    qcc := bitOf (w 0) 19
    pri := BitVec.ofNat 3 (field (w 0) 20 3)
    cls := field (w 0) 23 2
    sup := bitOf (w 0) 25
    slot := field (w 0) 26 2
    codeid := BitVec.ofNat 32 (field (w 0) 32 32)
    aff := BitVec.ofNat 32 (field (w 1) 0 32)
    cwa := w 2
    sp := w 3
    args := #v[w 4, w 5, w 6, w 7] }

/-- The checks of R337 other than eligibility and level: what a record must not hold. -/
def recordBad (n : Nat) : Bool :=
  let r := recordOf n
  decide (n / 2 ^ 28 % 16 ≠ 0) || decide (n / 2 ^ 96 % 2 ^ 32 ≠ 0) || decide (r.cls = 3) || decide (r.codeid = 0) ||
  decide (r.pc % 4 ≠ 0) || decide (r.pc ≥ (if r.qcc then 0x10000 else 0x20000)) || decide (r.cwa.toNat % 8 ≠ 0) ||
  (r.qcc && decide (r.rlen ≠ 0))

/-! ## Eligibility (R334) -/

def State.isRunning (s : State) (p : Nat) : Bool := decide (p ≠ 0) && decide ((s.part p).pstate = .running)

/-- The partition condition: the issuer's own partition, or for the control node any running one. -/
def State.partFits (s : State) (issuer : Option Nat) (p : Nat) : Bool :=
  match issuer with
  | some q => decide (p = q) && decide (p ≠ 0)
  | none => s.isRunning p

/-- A quad whose self-test found an unrepaired failure (R386), and a quad or ring with a quad under test (R385). -/
def State.quadOut (s : State) (d : Fin 8) (q : Nat) : Bool := bitOf (s.quad d q).bist 2
def State.testing (s : State) (d : Fin 8) (q : Nat) : Bool := decide (field (s.quad d q).bist 0 2 = 1)
def State.ringQuads (s : State) (d : Fin 8) (first : Nat) : List Nat := (List.range (modeQuads (s.ringMode d first))).map (first + ·)

/-- Whether the ring, or the QCC, at quad `q` is free of a test. -/
def State.placeTesting (s : State) (d : Fin 8) (q : Nat) (qcc : Bool) : Bool :=
  if qcc then s.testing d q else (s.ringQuads d q).any (fun i => s.testing d i)

def rlenFits (rlen len : Nat) : Bool :=
  decide (rlen = 0) || (decide (rlen = 1) && decide (len = 4)) || (decide (rlen = 2) && decide (len = 8)) || (decide (rlen = 3) && decide (len = 16))

/-- The configured ring that begins at quad `q` is eligible for a vector thread. -/
def State.ringEligible (s : State) (issuer : Option Nat) (d : Fin 8) (q : Nat) (aff codeid : BitVec 32) (rlen : Nat) : Bool :=
  decide (s.ringFirst d q = q) && s.partFits issuer (s.partOf d q) && bitOf aff q && rlenFits rlen (s.ringLen d q) &&
  decide ((s.ring d q).codeid = codeid) && (s.ringQuads d q).all (fun i => !s.quadOut d i)

/-- The QCC of quad `q` is eligible for a tile thread. -/
def State.qccEligible (s : State) (issuer : Option Nat) (d : Fin 8) (q : Nat) (aff codeid : BitVec 32) : Bool :=
  s.partFits issuer (s.partOf d q) && bitOf aff q && decide ((s.quad d q).codeid = codeid) && !s.quadOut d q

def State.eligible (s : State) (issuer : Option Nat) (d : Fin 8) (q : Nat) (r : Record) : Bool :=
  if r.qcc then s.qccEligible issuer d q r.aff r.codeid else s.ringEligible issuer d q r.aff r.codeid r.rlen

/-- Whether some ring or QCC of a die is eligible. -/
def State.anyEligible (s : State) (issuer : Option Nat) (d : Fin 8) (r : Record) : Bool :=
  (List.range 32).any (fun q => s.eligible issuer d q r)

/-! ## Free places (R24, R338) -/

/-- Whether a slot of a ring holds no thread on any of its cores. -/
def State.ringSlotFree (s : State) (d : Fin 8) (first slot : Nat) : Bool :=
  (s.fork ⟨d, mkFin32 first, mkFin4 slot⟩).isNone &&
  (List.range (s.ringLen d first)).all (fun i => decide ((s.ctx (mkCtxId d.val (4 * first + i) slot)).status = .free))

/-- A free slot for a record on the ring, or the QCC, at quad `q`. -/
def State.freeSlot (s : State) (d : Fin 8) (q : Nat) (qcc : Bool) : Option Nat :=
  if qcc then (List.range 2).find? (fun k => (s.ctx (mkCtxId d.val (128 + q) k)).status = .free)
  else (List.range 4).find? (fun k => s.ringSlotFree d q k)

/-- The context that the dispatcher chooses for a new record of a partition (R338). -/
def State.placeFor (s : State) (part : Nat) (d : Fin 8) (r : Record) : Option CtxId :=
  (List.range 32).findSome? (fun q =>
    if s.eligible (some part) d q r && !s.placeTesting d q r.qcc then (s.freeSlot d q r.qcc).map (fun k => mkCtxId d.val (if r.qcc then 128 + q else 4 * q) k) else none)

/-! ## Placing (R335, R324) -/

def ofRecordRegs (r : Record) : Vector Word 32 :=
  ((((Vector.replicate 32 (0 : Word)).set 2 r.sp).set 3 r.args[0]).set 4 r.args[1]).set 5 r.args[2] |>.set 6 r.args[3]

/-- The initial state of a thread (R335); its last issue counts from now (log 130). -/
def Ctx.ofRecord (old : Ctx) (r : Record) (issuer : BitVec 32) (ptroot : Word) (time : Nat) : Ctx :=
  { Ctx.idle with
    status := .live
    regs := ofRecordRegs r
    pc := BitVec.ofNat 64 r.pc
    sup := r.sup
    csr := { Csrs.reset with pri := r.pri, ecls := r.cls, ptroot := ptroot, plvl := r.sup }
    tile := Tile.start old.tile.tln old.tile.issue
    cwa := r.cwa
    issuer := issuer
    aff := r.aff
    codeid := r.codeid
    last := time }

/-- A thread of a partition of the domain joins it at its first instruction: RIN one above the seal, with a full
snapshot of its initial state (R324). -/
def State.joinDomain (s : State) (u : CtxId) : State :=
  match s.domain with
  | none => s
  | some d =>
    if s.inDomain (s.partOfCtx u) then
      let n := nextRin d.declared
      let c := s.ctx u
      s.setCtx u { c with
        dom := true
        rin := n
        born := n
        arrived := d.declared
        snaps := setSnap c.snaps d.declared (s.snapshot u c.pc n false) }
    else s

/-- A record placed on a context. -/
def State.placeRecord (s : State) (u : CtxId) (r : Record) (issuer : BitVec 32) (ptroot : Word) : State :=
  (s.setCtx u ((s.ctx u).ofRecord r issuer ptroot s.time)).joinDomain u

/-! ## Freeing -/

/-- A context without its thread. Freeing it changes no register (R340): scalar, vector, mask and tile registers and CSRs
keep their values until a thread is placed (R335). -/
def Ctx.emptied (c : Ctx) : Ctx :=
  { Ctx.idle with
    regs := c.regs
    vregs := c.vregs
    masks := c.masks
    csr := c.csr
    epx := c.epx
    trb := c.trb
    sqcnt := c.sqcnt
    rollcnt := c.rollcnt
    tile := { c.tile with queue := [], fault := none }
    last := c.last }

/-- The slot of an ended thread: free, or in a domain reserved until its interval is sealed (R324, R340, R361). -/
def State.vacate (s : State) (u : CtxId) : State :=
  let c := s.ctx u
  if c.dom then s.setCtx u { c with status := .reserved, wait := none, sealing := false } else s.setCtx u c.emptied

end Sys2Proof.Machine
end

