-- ==== Sys2Proof/Machine/Switch.lean ====
section
/-! DEFINITION. Save areas and what is written to and read from them (14_system_traps.md R369-R372), swapping a thread out
and in (R343), and the steps of a gang switch (R366-R368). -/

namespace Sys2Proof.Machine

/-! ## Restart patterns (R148) -/

/-- The element instructions: they perform elements by index in each cluster, so that EPX can say how far (R147). -/
def isElement (i : Instr) : Bool :=
  match encode i with
  | none => false
  | some w =>
    let m := field w 26 6
    decide (m = 0x19) || decide (m = 0x1A) || decide (m = 0x20) || decide (m = 0x21) ||
    (match i with
     | .vsel _ _ _ _ => true
     | .vcvt _ _ _ _ => true
     | .vsplat _ _ _ _ => true
     | .vmv _ _ _ => true
     | .vins _ _ _ => true
     | .kand _ _ _ => true
     | .kor _ _ _ => true
     | .kxor _ _ _ => true
     | .knot _ _ => true
     | .kmv _ _ => true
     | _ => false)

/-- Whether the word at an ISTORE offset is an element instruction. -/
def State.elementAt (s : State) (u : CtxId) (pc : Word) : Bool :=
  if pc.toNat < istoreSize u.unit.val then
    (match decode (BitVec.ofNat 32 (s.iword u pc.toNat)) with
     | .ok i => isElement i
     | .error _ => false)
  else false

/-- The restart pattern with which a context goes on at `pc` after ERET or a resume (R148). -/
def State.patternAt (s : State) (u : CtxId) (pc epx : Word) : Word :=
  if !s.elementAt u pc then 0 else if s.elementAt u (pc + 4) then epx else clearAhead epx

/-! ## The layout of a save area (R370-R372) -/

/-- Offsets of the CSRs that every unit saves, that a vector core saves, and that a QCC saves (R375). -/
def commonSlots : List (Nat × CsrId) :=
  [(0x108, .fflg), (0x110, .frm), (0x160, .pol 0), (0x168, .pol 1), (0x170, .pol 2), (0x178, .pol 3), (0x180, .cpydim), (0x188, .trb),
   (0x1D8, .slotcfg), (0x1E8, .rin), (0x1F0, .rollcnt), (0x1F8, .ecls), (0x200, .thpri), (0x208, .desched), (0x210, .trapv),
   (0x218, .tcause), (0x220, .tval), (0x228, .xpc), (0x230, .xstat), (0x240, .ptroot), (0x248, .xscr), (0x2F8, .scopechk),
   (0x270, .trcctl)] ++ (List.range 15).map (fun i => (0x278 + 8 * i, .pmc ⟨i % 15, Nat.mod_lt _ (by decide)⟩))

def coreSlots : List (Nat × CsrId) :=
  [(0x118, .vflg), (0x120, .vl), (0x128, .vtagl), (0x130, .vtagh), (0x138, .epx), (0x190, .fkliv), (0x198, .fkvec),
   (0x1A0, .fkcfg), (0x1A8, .sqcnt), (0x1E0, .owntbl)]

def qccSlots : List (Nat × CsrId) := [(0x1B0, .tfmt), (0x1B8, .scla), (0x1C0, .sclb), (0x1C8, .apitch), (0x1D0, .tln)]

def csrSlots (qcc : Bool) : List (Nat × CsrId) := commonSlots ++ (if qcc then qccSlots else coreSlots)

/-- HDR (R372). -/
def hdrWord (qcc forked dom halted : Bool) (reason slot : Nat) (ep : BitVec 32) : Word :=
  boolBit 0 true ||| boolBit 1 qcc ||| boolBit 2 forked ||| boolBit 3 dom ||| boolBit 4 halted ||| place 5 2 reason |||
    place 16 2 slot ||| place 32 32 ep.toNat

def faultWord (f : Option PendFault) : Word :=
  match f with
  | none => 0
  | some f => f.cause.setWidth 64 ||| place 8 6 f.tag.toNat ||| boolBit 63 true

def faultVal (f : Option PendFault) : Word := (f.map (·.tval)).getD 0

def demandWord (x : DSlot) : Word :=
  place 0 16 x.wc ||| place 16 16 x.infl ||| place 32 9 x.pmax |||
    (match x.demand with
     | none => 0
     | some d => place 48 9 d.beats ||| boolBit 57 true)

/-- The words of the fixed part of a context's area. -/
def areaWords (c : Ctx) (qcc : Bool) (hdr : Word) (time : Nat) (outst : Nat → Nat) : List (Nat × Word) :=
  [(0, hdr), (0x100, c.pc), (0x250, faultWord c.copyFault), (0x258, faultVal c.copyFault), (0x260, faultWord c.msgFault),
   (0x268, faultVal c.msgFault), (0x300, BitVec.ofNat 64 time)] ++
  (List.range 31).map (fun i => (8 * (i + 1), c.regs[(i + 1) % 32]'(Nat.mod_lt _ (by decide)))) ++
  (csrSlots qcc).map (fun p => (p.1, c.csrValue p.2)) ++
  (List.range 16).flatMap (fun n =>
    let x := c.slots[n % 16]'(Nat.mod_lt _ (by decide))
    [(0x400 + 16 * n, slotCsr x (outst n)), (0x408 + 16 * n, demandWord x)])

/-- The CSR block of an area, to be overwritten where it holds something: all its other offsets are 0 (R375). -/
def blankBlock : List (Nat × List Byte) := [(0x100, List.replicate 768 0)]

/-- The byte runs of a core context's area: marks, masks, granules below the marks. -/
def coreRuns (c : Ctx) : List (Nat × List Byte) :=
  (List.range 32).map (fun n => (0x140 + n, [BitVec.ofNat 8 ((c.vregs[n % 32]'(Nat.mod_lt _ (by decide))).hwm)])) ++
  (List.range 7).map (fun i => (0x500 + 128 * i, bytesOf 128 (c.masks[(i + 1) % 8]'(Nat.mod_lt _ (by decide))).toNat)) ++
  (List.range 32).map (fun n =>
    let v := c.vregs[n % 32]'(Nat.mod_lt _ (by decide))
    (0x2280 + 0x400 * n, bytesOf (64 * v.hwm) v.data.toNat))

/-- The byte runs of a QCC context's area: tile header, masks, latch, live accumulators. -/
def qccRuns (t : Tile) : List (Nat × List Byte) :=
  let bit (n : Nat) (f : Acc → Bool) : Word := boolBit n (f (t.accs[n % 4]'(Nat.mod_lt _ (by decide))))
  let live := bit 0 (·.live) ||| bit 1 (·.live) ||| bit 2 (·.live) ||| bit 3 (·.live)
  let int := bit 0 (·.int) ||| bit 1 (·.int) ||| bit 2 (·.int) ||| bit 3 (·.int)
  let hdr := live ||| (int <<< 4) ||| boolBit 8 t.lv ||| place 16 9 t.llen
  let fault : Word := match t.fault with
    | none => 0
    | some f => f.cause.setWidth 64 ||| boolBit 63 true
  [(0xB00, bytesOf 8 hdr.toNat), (0xB08, bytesOf 8 t.tln.toNat), (0xB10, bytesOf 8 t.issue.toNat), (0xB18, bytesOf 8 fault.toNat),
   (0xB20, bytesOf 8 (faultVal t.fault).toNat)] ++
  (List.range 7).map (fun i => (0x500 + 32 * i, bytesOf 32 (t.masks[(i + 1) % 8]'(Nat.mod_lt _ (by decide))).toNat)) ++
  (if t.lv then [(0xC00, bytesOf 16384 t.latch.toNat)] else []) ++
  (List.range 4).filterMap (fun n =>
    let a := t.accs[n % 4]'(Nat.mod_lt _ (by decide))
    if a.live then some (0x4C00 + 0x4000 * n, bytesOf 16384 a.data.toNat) else none)

/-- FKVEC's four entries: register number and whether it is copied. -/
def fkvecEntry (fkvec : Word) (i : Nat) : Nat × Bool := (field fkvec (8 * i) 5, bitOf fkvec (8 * i + 5))

/-- The fork record, and the vector part of the fork image (R370, R371). -/
def forkRuns (x : Fork) : List (Nat × List Byte) :=
  let i := x.info
  let w (off : Nat) (v : Word) : Nat × List Byte := (0xD80 + off, bytesOf 8 v.toNat)
  [w 0x00 i.addr, w 0x08 i.join, w 0x10 (BitVec.ofNat 64 i.trip), w 0x18 (BitVec.ofNat 64 i.n), w 0x20 (BitVec.ofNat 64 i.count),
   w 0x28 (BitVec.ofNat 64 i.oldest), w 0x30 (place 0 4 i.base ||| place 8 5 i.lim ||| boolBit 16 i.nopred), w 0x38 i.fkliv,
   w 0x40 i.fkvec, w 0x48 (i.awaited.setWidth 64), w 0x70 (BitVec.ofNat 64 i.vl), w 0x178 0] ++
  (List.range 4).map (fun k => w (0x50 + 8 * k) (match i.preds[k]? with
    | none => 0
    | some p => p.1.setWidth 64 ||| boolBit 5 p.2.1 ||| place 32 32 p.2.2.toNat)) ++
  (List.range 31).map (fun k => w (0x80 + 8 * k) (i.regs[(k + 1) % 32]'(Nat.mod_lt _ (by decide)))) ++
  (List.range 7).filterMap (fun k =>
    if bitOf i.fkvec (33 + k) then some (0xF00 + 128 * k, bytesOf 128 (i.masks[(k + 1) % 8]'(Nat.mod_lt _ (by decide))).toNat) else none) ++
  (List.range 4).filterMap (fun k =>
    let e := fkvecEntry i.fkvec k
    let v := x.image.vregs[e.1 % 32]'(Nat.mod_lt _ (by decide))
    if e.2 then some (0x1280 + 0x400 * k, bytesOf (64 * v.hwm) v.data.toNat) else none)

/-- Writes of the save engine: physical, untagged, unlogged (R369). -/
def State.putRuns (s : State) (base : Nat) (rs : List (Nat × List Byte)) : State :=
  rs.foldl (fun t r => if r.2.isEmpty then t else t.storeRaw none 0 (base + r.1) r.2) s

/-- Words that are written with what the spec does not give: free values. -/
def State.putFree (s : State) (pa : Nat) : Nat → State
  | 0 => s
  | n + 1 =>
    let f := s.fresh
    (f.2.storeRaw none 0 pa (bytesOf 8 f.1.toNat)).putFree (pa + 8) n

/-- The fork's part of an area; the word at 0x78 and the masks that the image does not name hold nothing that R371 gives. -/
def State.putFork (s : State) (base : Nat) (f : Fork) : State :=
  (List.range 7).foldl (fun t k => if bitOf f.info.fkvec (33 + k) then t else t.putFree (base + 0xF00 + 128 * k) 16)
    ((s.putRuns base (forkRuns f)).putFree (base + 0xDF8) 1)

/-- A context stopped at TIME `stop` and saved: it is written with EPX at its stop point (R146, R370). The layout of the
snapshots of a domain context is not architectural, so what their places hold is free. -/
def State.saveArea (s : State) (base : Nat) (u : CtxId) (c : Ctx) (x : Option Fork) (reason stop : Nat) : State :=
  let qcc := u.isQcc
  let c1 := { c with epx := c.rst }
  let hdr := hdrWord qcc x.isSome c.dom (decide (c.status = .halted)) reason u.slot.val (s.endpoint u.die u.unit.val)
  let words := areaWords c1 qcc hdr stop (fun n => s.outst u (BitVec.ofNat 4 n))
  let s1 := (s.putRuns base blankBlock).putRuns base (words.map (fun p => (p.1, bytesOf 8 p.2.toNat)))
  let s2 := s1.putRuns base (if qcc then qccRuns c1.tile else coreRuns c1)
  let s3 := match x with
    | none => s2
    | some f => s2.putFork base f
  if c.dom then s3.putFree (base + if qcc then 0x600 else 0x880) 160 else s3

/-! ## Reading an area back -/

/-- The bits of a saved CSR that are fields; CAP is one that no CSR instruction writes. -/
def CsrId.savedMask (i : CsrId) : Word := if i = .trcctl then 0x3F else i.mask

/-- Restoring one CSR of the block: fields that no CSR instruction writes come back too, reserved bits do not (R5). -/
def Ctx.csrRestore (c : Ctx) (qcc : Bool) (i : CsrId) (v : Word) : Ctx :=
  if i = .rin then { c with rin := v.setWidth 32, dom := bitOf v 32, sealing := bitOf v 33 }
  else if i = .rollcnt then { c with rollcnt := v }
  else if i = .tln then { c with tile := { c.tile with tln := v } }
  else if i = .xstat then
    (fun c : Ctx => { c with sup := bitOf v 0, csr := { c.csr with ipend := bitOf v 6 } }) ((c.csrPut qcc .xstat v).getD c)
  else if i = .thpri then (fun c : Ctx => { c with boost := bitOf v 16 }) ((c.csrPut qcc .thpri v).getD c)
  else (c.csrPut qcc i (v &&& i.savedMask)).getD c

def readFault (w val : Word) : Option PendFault := if bitOf w 63 then some ⟨w.setWidth 8, val, BitVec.ofNat 6 (field w 8 6)⟩ else none

/-- A slot's state from an area; what the layout does not hold stays with the thread. -/
def readSlot (old : DSlot) (a b : Word) : DSlot :=
  { old with
    ep := a.setWidth 32
    win := BitVec.ofNat 2 (field a 32 2)
    bnd := bitOf a 34
    out := bitOf a 35
    rst := bitOf a 36
    pfl := bitOf a 37
    inc := BitVec.ofNat 8 (field a 40 8)
    wc := field b 0 16
    infl := field b 16 16
    pmax := field b 32 9
    demand := if bitOf b 57 then some { old.demand.getD ⟨0, 0, none, none, false⟩ with beats := field b 48 9 } else none }

def readVregs (m : List Host.Cell) (base : Nat) (tagl tagh : Word) : Vector VReg 32 :=
  Vector.ofFn (fun n : Fin 32 =>
    let g := min 16 ((memGet m (base + 0x140 + n.val)).toNat % 32)
    let code := if n.val < 16 then field tagl (4 * n.val) 4 else field tagh (4 * (n.val - 16)) 4
    ⟨BitVec.ofNat 8192 (ofBytes (memRead m (base + 0x2280 + 0x400 * n.val) (64 * g))), (Tag.ofCode code).getD .untagged, g⟩)

def readMasks (m : List Host.Cell) (base : Nat) : Vector (BitVec 1024) 8 :=
  Vector.ofFn (fun n : Fin 8 => if n.val = 0 then 0 else BitVec.ofNat 1024 (ofBytes (memRead m (base + 0x500 + 128 * (n.val - 1)) 128)))

def readTile (m : List Host.Cell) (base : Nat) (old : Tile) : Tile :=
  let hdr := mem64 m (base + 0xB00)
  let lv := bitOf hdr 8
  { old with
    accs := Vector.ofFn (fun n : Fin 4 =>
      if bitOf hdr n.val then ⟨true, bitOf hdr (4 + n.val), BitVec.ofNat 131072 (ofBytes (memRead m (base + 0x4C00 + 0x4000 * n.val) 16384))⟩
      else Acc.zero)
    lv := lv
    llen := field hdr 16 9
    latch := if lv then BitVec.ofNat 131072 (ofBytes (memRead m (base + 0xC00) 16384)) else 0
    masks := Vector.ofFn (fun n : Fin 8 => if n.val = 0 then 0 else BitVec.ofNat 256 (ofBytes (memRead m (base + 0x500 + 32 * (n.val - 1)) 32)))
    tln := mem64 m (base + 0xB08)
    issue := mem64 m (base + 0xB10)
    fault := readFault (mem64 m (base + 0xB18)) (mem64 m (base + 0xB20)) }

/-- What is kept of a thread beside its save area: flags of its RAMOs (R278) and INTERVAL-PRESSURE (R318) may still reach it,
and add to what the area holds. -/
def Ctx.aside (c : Ctx) : Ctx := { c with csr := { c.csr with fflg := 0, ipend := false } }

/-- A context as its area gives it; the rest, and a parked thread's slots and message fault, from `side` (R265). -/
def readCtx (m : List Host.Cell) (base : Nat) (side : Ctx) (qcc parked : Bool) : Ctx :=
  let c0 := { side with
    regs := Vector.ofFn (fun n : Fin 32 => if n.val = 0 then 0 else mem64 m (base + 8 * n.val))
    pc := mem64 m (base + 0x100)
    copyFault := readFault (mem64 m (base + 0x250)) (mem64 m (base + 0x258))
    msgFault := if parked then side.msgFault else readFault (mem64 m (base + 0x260)) (mem64 m (base + 0x268))
    slots := if parked then side.slots else
      Vector.ofFn (fun n : Fin 16 => readSlot side.slots[n] (mem64 m (base + 0x400 + 16 * n.val)) (mem64 m (base + 0x408 + 16 * n.val))) }
  let c1 := if qcc then { c0 with tile := readTile m base side.tile }
    else { c0 with vregs := readVregs m base (mem64 m (base + 0x128)) (mem64 m (base + 0x130)), masks := readMasks m base }
  let c2 := (csrSlots qcc).foldl (fun c p => c.csrRestore qcc p.2 (mem64 m (base + p.1))) c1
  { c2 with csr := { c2.csr with
    fflg := c2.csr.fflg ||| side.csr.fflg
    ipend := c2.csr.ipend || side.csr.ipend } }

/-- A fork as its record gives it; what the record does not hold stays with the thread (R371). Younger chunks start with FFLG and VFLG
of the resumed one (log 120). -/
def readFork (m : List Host.Cell) (base : Nat) (side : Fork) (c : Ctx) : Fork :=
  let w (off : Nat) : Word := mem64 m (base + 0xD80 + off)
  let preds := (List.range 4).map (fun k =>
    let p := w (0x50 + 8 * k)
    (BitVec.ofNat 5 (field p 0 5), bitOf p 5, BitVec.ofNat 32 (field p 32 32)))
  let regs := Vector.ofFn (fun n : Fin 32 => if n.val = 0 then (0 : Word) else w (0x80 + 8 * (n.val - 1)))
  let masks := Vector.ofFn (fun n : Fin 8 =>
    if bitOf (w 0x40) (32 + n.val) && decide (n.val ≠ 0) then BitVec.ofNat 1024 (ofBytes (memRead m (base + 0xF00 + 128 * (n.val - 1)) 128)) else 0)
  let info : ForkScalar := {
    addr := w 0x00
    join := w 0x08
    d := side.info.d
    trip := (w 0x10).toNat
    n := (w 0x18).toNat
    count := (w 0x20).toNat
    oldest := (w 0x28).toNat
    base := field (w 0x30) 0 4
    lim := field (w 0x30) 8 5
    nopred := bitOf (w 0x30) 16
    fkliv := w 0x38
    fkvec := w 0x40
    awaited := (w 0x48).setWidth 32
    preds := preds
    regs := regs
    vl := (w 0x70).toNat
    masks := masks }
  let vregs := (List.range 4).foldl (fun (v : Vector VReg 32) k =>
    let e := fkvecEntry info.fkvec k
    if e.2 then v.set (e.1 % 32) { (v[e.1 % 32]'(Nat.mod_lt _ (by decide))) with
      data := BitVec.ofNat 8192 (ofBytes (memRead m (base + 0x1280 + 0x400 * k) (64 * (v[e.1 % 32]'(Nat.mod_lt _ (by decide))).hwm))) }
      (Nat.mod_lt _ (by decide)) else v) side.image.vregs
  { side with
    info := info
    image := { c with
      status := .live
      regs := regs
      csr := { c.csr with vl := info.vl }
      masks := masks
      vregs := vregs
      chunk := none
      joinPhase := false
      inner := none }
    started := min info.count (info.oldest + 1) }

/-! ## Stopping a thread (R146, R193) -/

/-- Whether nothing is under way between a thread's chunks, and its oldest chunk may be sewn through. -/
def State.stoppable (s : State) (u : CtxId) : Bool :=
  if (s.ctx u).chunk.isSome || (s.ctx u).joinPhase then
    match s.fork (s.forkIdOf u) with
    | none => true
    | some x => x.quiet && x.token.isNone && s.maySew u
  else true

/-- A context's issued work is done: copies, tile operations, vector instructions, stores, GETs and RAMOs (R343, R367). -/
def State.drained (s : State) (u : CtxId) (gets : Bool) : Bool :=
  let c := s.ctx u
  c.copies.isEmpty && c.tile.queue.isEmpty && c.vecs.isEmpty && c.accs.isEmpty && (!gets || decide (((s.mine u).filter Req.isLoad).length = 0))

/-- The stop of a forked thread, at its oldest chunk: younger chunks unpicked, the oldest sewn through, the token's flags with it. -/
def State.stopFork (s : State) (u : CtxId) : State :=
  if (s.ctx u).chunk.isSome || (s.ctx u).joinPhase then
    let s1 := (s.unpickYounger u .oth).sewThrough u
    match s1.fork (s1.forkIdOf u) with
    | none => s1
    | some x =>
      (s1.setFork (s1.forkIdOf u) { x with flags := (0, 0), kept := [], given := [] }).updCtx u (fun c =>
        (fun c : Ctx => { c with chunk := c.chunk.map (fun ch => { ch with sent := false }) }) ((c.orF x.flags.1).orV x.flags.2))
  else s

/-! ## Swapping one thread (R342, R343, R265) -/

def swapArea (base e : Nat) : Nat := base + e * 0x14C00

def State.freeEntry (s : State) (d : Fin 8) : Option Nat := (List.range 64).find? (fun e => ((s.die d).swap e).isNone)

/-- Swapping out the thread of a context into reserved entry `e`; `reason` 1 for a deschedule, 2 for YIELD. -/
def State.swapOut (s : State) (u : CtxId) (e reason : Nat) (ready : Bool) : State :=
  let s1 := (s.withdraw u).stopFork u
  let c := s1.ctx u
  let isForked := c.chunk.isSome || c.joinPhase
  let x := if isForked then s1.fork (s1.forkIdOf u) else none
  let s2 := s1.saveArea (swapArea (s1.die u.die).swbase.toNat e) u c x reason s1.time
  let w : Swapped := {
    entry := e
    ctx := c.aside
    home := u
    fork := x
    ringLen := s1.ringLen u.die u.quad }
  let d := s2.die u.die
  let s3 := (s2.setDie u.die { d with
    swaps := d.swaps ++ [w]
    queue := d.queue ++ [⟨s1.partOfCtx u, .swapped e ready⟩] }).moveThread (.here u) (.parked u.die e)
  let s4 := if isForked then s3.dropFork (s1.forkIdOf u) else s3
  s4.setCtx u c.emptied

/-- The gap that is due is written at the resume, before the next entry of a context with tracing on (R377, R378). -/
def State.gapEntry (s : State) (u : CtxId) : State :=
  let c := s.ctx u
  match c.gap with
  | none => s
  | some g =>
    let s1 := s.setCtx u { c with gap := none }
    if u.isQcc || decide (field c.csr.trcctl 0 3 = 0) then s1
    else s1.pushOther u 1 0 0 (BitVec.ofNat 64 g.2.1) (BitVec.ofNat 64 s.time)
      (Machine.place 0 2 g.1 ||| Machine.place 32 32 g.2.2.toNat) 0xFFFFFFFF00000003

/-- The gap that an area makes due. -/
def readGap (m : List Host.Cell) (base : Nat) : Nat × Nat × BitVec 32 :=
  (field (mem64 m base) 5 2, (mem64 m (base + 0x300)).toNat, BitVec.ofNat 32 (field (mem64 m base) 32 32))

/-- Slots restart as though just bound (R282); a target outside the module grants again what it granted at the bind. -/
def State.regrant (s : State) (u : CtxId) : State :=
  (List.range 16).foldl (fun t i =>
    let ds := BitVec.ofNat 4 i
    let x := (t.ctx u).slot ds
    if !x.bnd then t
    else
      let g := t.initialGrant x.ep x.win (t.endpoint u.die u.unit.val) true
      let n := if (t.unitOf x.ep).isNone then x.init else g.1
      g.2.updCtx u (fun c => c.updSlot ds (fun x => { x with wc := n, infl := 0, pmax := 256, since := t.time, init := n }))) s

/-- COUNT + 1 and LAST (R313). -/
def bumpRoll (r : Word) (n : BitVec 32) : Word := place 0 32 (field r 0 32 + 1) ||| place 32 32 n.toNat

/-- ROLLCNT and the slots of a thread that a rollback restored while it was out of the machine (R330). -/
def State.afterRollback (s : State) (u : CtxId) : State :=
  match (s.ctx u).rolled with
  | none => s
  | some n => (s.updCtx u (fun c => { c with
      rollcnt := bumpRoll c.rollcnt n
      rolled := none })).regrant u

/-- What a restore reads of an area: offsets and lengths (R370). -/
def areaReads (m : List Host.Cell) (base : Nat) (qcc : Bool) : List (Nat × Nat) :=
  let hdr := mem64 m base
  let mark (n : Nat) : Nat := min 16 ((memGet m (base + 0x140 + n)).toNat % 32)
  if qcc then
    [(0, 0x600), (0xB00, 0x28)] ++ (if bitOf hdr 3 then [(0x600, 0x500)] else []) ++
    (if bitOf (mem64 m (base + 0xB00)) 8 then [(0xC00, 0x4000)] else []) ++
    (List.range 4).filterMap (fun n => if bitOf (mem64 m (base + 0xB00)) n then some (0x4C00 + 0x4000 * n, 0x4000) else none)
  else
    [(0, 0x880)] ++ (if bitOf hdr 3 then [(0x880, 0x500)] else []) ++ (if bitOf hdr 2 then [(0xD80, 0x500)] else []) ++
    (List.range 4).filterMap (fun k =>
      let e := fkvecEntry (mem64 m (base + 0xDC0)) k
      if bitOf hdr 2 && e.2 && decide (mark e.1 ≠ 0) then some (0x1280 + 0x400 * k, 64 * mark e.1) else none) ++
    (List.range 32).filterMap (fun n => if mark n = 0 then none else some (0x2280 + 0x400 * n, 64 * mark n))

/-- A fork of which nothing is known beside its record. -/
def Fork.blank (info : ForkScalar) : Fork where
  info := info
  image := Ctx.idle
  started := 0
  kept := []
  given := []
  notices := []
  forwards := []
  flags := (0, 0)
  token := none
  handover := none
  due := none
  conflict := []

/-- A thread of which its fork record says where it stands: at its oldest chunk, sewn through, or in the join phase. -/
def Ctx.standAt (c : Ctx) (i : ForkScalar) : Ctx :=
  if i.oldest < i.count then
    { c with
      joinPhase := false
      chunk := some (match c.chunk with
        | some ch => { ch with number := i.oldest }
        | none => {
          number := i.oldest
          incoming := []
          written := 0
          versions := []
          through := true
          sent := false
          trap := none
          request := none }) }
  else { c with joinPhase := true, chunk := none }

def ForkScalar.blank : ForkScalar where
  addr := 0
  join := 0
  d := 0
  trip := 0
  n := 0
  count := 0
  oldest := 0
  base := 0
  lim := 0
  nopred := false
  fkliv := 0
  fkvec := 0
  awaited := 0
  preds := []
  regs := Vector.replicate 32 0
  vl := 0
  masks := Vector.replicate 8 0

/-- A context from its area, at its resume point, with status `st` unless it was saved halted or had been stopped for good.
The header says whether the area holds a thread and whether that is forked (R372); what the layout does not hold comes from
`side` (log 22). An error in the area is an error in the context's state (R369). -/
def State.loadCtx (s : State) (u : CtxId) (base : Nat) (side : Ctx) (x : Option Fork) (newBase : Nat → Nat → Nat) (parked : Bool)
    (st : CtxStatus) : State :=
  let hdr := mem64 s.mem base
  if !bitOf hdr 0 then s
  else
    let c0 := readCtx s.mem base side u.isQcc parked
    let c1 := { c0 with
      status := if bitOf hdr 4 || decide (side.status = .halted) then .halted else if side.status = .fatal then .fatal else st
      rst := s.patternAt u c0.pc c0.epx
      epx := 0
      wait := none
      last := s.time
      gap := some (readGap s.mem base)
      prior := 0 }
    let s1 := if !bitOf hdr 2 then s.setCtx u { c1 with chunk := none, joinPhase := false }
      else
        let f1 := readFork s.mem base (x.getD (Fork.blank ForkScalar.blank)) c1
        let f2 := { f1 with info := { f1.info with base := newBase f1.info.oldest f1.info.base } }
        (s.setCtx u (c1.standAt f2.info)).setFork (s.forkIdOf u) f2
    let s2 := s1.afterRollback u
    if (areaReads s.mem base u.isQcc).any (fun r => s.isPoisoned (base + r.1) r.2) then
      (if c1.dom then { s2 with domain := s2.domain.map (fun d => { d with wanted := true }) }
       else s2.haltUncorrectable u (fun pc => ⟨s2.pathOf u, c1.rin, 3, 6, causeUncorrectable.setWidth 64, 0, pc⟩))
    else s2

/-- Swapping in the thread of entry `e` of a die on context `u` (R342): its fork base follows the resuming core. -/
def State.swapIn (s : State) (d : Fin 8) (e : Nat) (u : CtxId) : State :=
  match (s.die d).swap e with
  | none => s
  | some w =>
    let len := s.ringLen u.die u.quad
    let index := u.unit.val % len
    let s1 := s.loadCtx u (swapArea (s.die d).swbase.toNat e) w.ctx w.fork (fun oldest _ => (index + len * (oldest + 1) - oldest) % len) true .live
    ((s1.gapEntry u).setDie d { s1.die d with swaps := (s1.die d).swaps.filter (fun w => decide (w.entry ≠ e)) }).moveThread (.parked d e) (.here u)

/-- Whether a swapped-out thread may resume on the ring, or the QCC, at quad `q` (R342). -/
def State.swapFits (s : State) (part : Nat) (d : Fin 8) (q : Nat) (w : Swapped) : Bool :=
  if w.home.isQcc then s.qccEligible (some part) d q w.ctx.aff w.ctx.codeid
  else s.ringEligible (some part) d q w.ctx.aff w.ctx.codeid 0 && decide (s.ringLen d q = w.ringLen)

/-- The context at which it resumes, in slot `k` of the ring or QCC at `q`: its home ring index is kept. -/
def Swapped.target (w : Swapped) (d : Fin 8) (q k : Nat) : CtxId :=
  mkCtxId d.val (if w.home.isQcc then 128 + q else 4 * q + w.home.unit.val % w.ringLen) k

/-! ## Gang switches (R366, R367) -/

def gswWhen (v : BitVec 64) : Nat := field v 0 48
def gswOld (v : BitVec 64) : Nat := field v 48 4
def gswNew (v : BitVec 64) : Nat := field v 52 4

/-- TIME has reached a 48-bit WHEN. -/
def State.reached (s : State) (when48 : Nat) : Bool := decide ((s.time % 2 ^ 48 + 2 ^ 48 - when48) % 2 ^ 48 < 2 ^ 47)

/-- Every context of the module that a partition holds. -/
def State.ctxsOf (s : State) (p : Nat) : List CtxId :=
  (s.ctxs.filterMap (fun kc => if kc.2.status = .free then none else some (mkCtxId (kc.1 / 640) (kc.1 / 4 % 160) (kc.1 % 4)))).filter
    (fun u => decide (s.partOfCtx u = p))

/-- The save area of a context in a partition's region (R369). -/
def gangArea (psave : Nat) (u : CtxId) : Nat :=
  if u.isQcc then psave + 0xA500000 + ((u.die.val * 32 + u.quad) * 2 + u.slot.val) * 0x14C00
  else psave + 0x100000 + ((u.die.val * 128 + u.unit.val) * 4 + u.slot.val) * 0xA400

/-- The configured rings that a partition holds: die, physical ring, index (R366). -/
def State.ringsOf (s : State) (p : Nat) : List (Nat × Nat × Nat) :=
  (List.range 8).flatMap (fun d => (List.range 8).flatMap (fun n => (List.range 4).filterMap (fun j =>
    if decide (field ((s.die (mkFin8 d)).rcfg[n % 8]'(Nat.mod_lt _ (by decide))) (8 * j + 8) 8 = p) then some (d, n, j) else none)))

/-- Whether a unit's armed switch is due, and so its contexts issue nothing more (R367); a unit that GSWT has not reached yet
runs on (R368). -/
def State.switchDue (s : State) (u : CtxId) : Bool :=
  match (s.part (s.partOfCtx u)).armed with
  | none => false
  | some g => s.reached (gswWhen g) && decide ((s.part (s.partOfCtx u)).pstate = .running) &&
      !(s.part (s.partOfCtx u)).lates.contains (u.die, u.unit)

/-- An asynchronous stop of one context for a switch (R193): a basted chunk is left for its thread's stop to unpick. -/
def State.stopForSwitch (s : State) (u : CtxId) : State :=
  let s1 := if s.basted u then s.withdraw u else (s.withdraw u).stopFork u
  if (s1.ctx u).status = .live then s1.updCtx u (fun c => { c with status := .switching }) else s1

/-- A commit token of the context's fork is on its way. -/
def State.tokenOut (s : State) (u : CtxId) : Bool :=
  (s.ctx u).chunk.isSome && ((s.fork (s.forkIdOf u)).map (fun x => x.token.isSome)).getD false

/-- Whether nothing hinders the stop of some contexts: no commit token is on its way, and each thread may stop at its oldest chunk. -/
def State.allStoppable (s : State) (us : List CtxId) : Bool := us.all (fun u => !s.tokenOut u && (s.basted u || s.stoppable u))

/-- The contexts of a partition whose units GSWT has reached, `lates` being the units that it has not. -/
def State.reachedCtxs (s : State) (p : Nat) (lates : List (Fin 8 × Fin 160)) : List CtxId :=
  (s.ctxsOf p).filter (fun u => !lates.contains (u.die, u.unit))

/-- A unit that receives GSWT after WHEN begins at once: LATE is set, with an error record of class 6 (R368). A forked thread
whose oldest chunk has meanwhile moved to a unit that has begun stops with it. -/
def State.beginLate (s : State) (p : Nat) (x : Fin 8 × Fin 160) (rest : List (Fin 8 × Fin 160)) : State :=
  let s1 := (s.reachedCtxs p rest).foldl State.stopForSwitch s
  (s1.setPart p { s1.part p with lates := rest, late := true }).writeError ⟨s1.pathOf ⟨x.1, x.2, 0⟩, 0, 6, 3, 0, 0, 0⟩

/-- GANG_SWITCH_BEGIN: at WHEN every context of OLDP stops (R367 step 1), those of a late unit when GSWT reaches it. A domain's
rollback in progress comes first (R368). -/
def execGangSwitchBegin (p : Fin 16) (s : State) : Host.Outcome State Fault Refusal :=
  .next (
    let x := s.part p.val
    match x.armed with
    | none => s
    | some g =>
      let us := s.reachedCtxs p.val x.lates
      if x.pstate = .switching then
        (match x.lates with
         | [] => s
         | l :: rest => if s.allStoppable (s.reachedCtxs p.val rest) then s.beginLate p.val l rest else s)
      else if !s.reached (gswWhen g) || decide (x.pstate ≠ .running) || !s.allStoppable us ||
        (s.inDomain p.val && decide ((s.domain.map (·.phase)) = some .rolling)) then s
      else
        let s1 := us.foldl State.stopForSwitch s
        s1.setPart p.val { s1.part p.val with
          pstate := .switching
          late := false
          stopSeq := s.seq
          stopTime := s.time })

/-- An act of the surroundings: the armed GSWT of a unit's partition has not reached the unit yet (R368). -/
def State.lateUnit (s : State) (x : Fin 8 × Fin 160) : State :=
  let p := s.partOfCtx ⟨x.1, x.2, 0⟩
  let y := s.part p
  if decide (p ≠ 0) && y.armed.isSome && decide (y.pstate = .running) && !y.lates.contains x then
    s.setPart p { y with lates := y.lates ++ [x] }
  else s

/-- The spill of `n` packets reaches the partition's spill area: what it holds, and its length in words, up to 1 MiB, is not
described (R367, R369). -/
def State.spillPackets (s : State) (psave n : Nat) : Nat × State :=
  if n = 0 then (0, s) else
    let f := s.fresh
    let words := field f.1 0 17
    (8 * words, f.2.putFree psave words)

/-- Saving every context of a partition whose issued work is done (R367 steps 4 to 6). -/
def State.savePart (s : State) (p : Fin 16) (g : BitVec 64) : State :=
  let psave := (s.part p.val).psave.toNat
  let us := s.ctxsOf p.val
  let s1 := us.foldl (fun t u =>
    let c := t.ctx u
    let x := if c.chunk.isSome || c.joinPhase then t.fork (t.forkIdOf u) else none
    let t1 := if c.status = .reserved then t else t.saveArea (gangArea psave u) u c x 0 (t.part p.val).stopTime
    let t2 := t1.setPart p.val { t1.part p.val with
      saves := (t1.part p.val).saves ++ [(u, c.aside)]
      forks := match x with
        | none => (t1.part p.val).forks
        | some f => (t1.part p.val).forks ++ [(t.forkIdOf u, f)] }
    let t3 := if x.isSome then t2.dropFork (t.forkIdOf u) else t2
    (t3.moveThread (.here u) (.saved p u)).setCtx u c.emptied) s
  let sp := s1.spillPackets psave ((s1.net.filter (fun r => match r.src with
    | some (.saved q _) => decide (q = p)
    | some (.here _) => false
    | some (.parked _ _) => false
    | some (.outside _) => false
    | none => false)).length)
  let s2 := sp.2.setPart p.val { sp.2.part p.val with
    pstate := .saved
    armed := none
    spill := sp.1
    rings := s.ringsOf p.val }
  if gswNew g = 0 then s2
  else s2.setPart (gswNew g) { s2.part (gswNew g) with entering := some g }

/-- The PART field of a partition's recorded rings set to it. -/
def State.takeRings (s : State) (p : Nat) : State :=
  (s.part p).rings.foldl (fun t r =>
    let d := mkFin8 r.1
    let x := t.die d
    t.setDie d { x with rcfg := x.rcfg.set (r.2.1 % 8) (setField (x.rcfg[r.2.1 % 8]'(Nat.mod_lt _ (by decide))) (8 * r.2.2 + 8) 8 p) (Nat.mod_lt _ (by decide)) }) s |>.renewOut

/-- Restoring every context of the partition that enters (R367 step 6). -/
def State.restorePart (s : State) (p : Fin 16) (g : BitVec 64) : State :=
  let psave := (s.part p.val).psave.toNat
  let saves := (s.part p.val).saves
  let forks := (s.part p.val).forks
  let s1 := s.takeRings p.val
  let s2 := saves.foldl (fun t uc =>
    let u := uc.1
    let c := uc.2
    if c.status = .reserved then t.setCtx u c
    else
      let fk := ((forks.find? (fun f => f.1 = t.forkIdOf u)).map (·.2))
      let t1 := t.loadCtx u (gangArea psave u) c fk (fun _ b => b) false .switching
      t1.updCtx u (fun c => { c with gswDue := if c.csr.gsi then some (BitVec.ofNat 48 (gswWhen g)) else c.gswDue })) s1
  s2.setPart p.val { s2.part p.val with
    pstate := .switching
    entering := none
    go := false
    saves := []
    forks := []
    restored := some s.time }

/-- A quad of the rings that a saved partition held is under self-test: its restore waits for the end of the test (R385). -/
def State.setTesting (s : State) (p : Nat) : Bool :=
  (s.part p).rings.any (fun r =>
    let d := mkFin8 r.1
    let n := modeQuads (s.ringMode d (4 * r.2.1))
    (List.range n).any (fun i => s.testing d (4 * r.2.1 + r.2.2 * n + i)))

/-- GANG_SWITCH_RESTORE (R367 steps 2 to 6): OLDP is saved once its contexts' issued work is done; NEWP is restored, with
HOLD = 1 once its GO register has been written. -/
def execGangSwitchRestore (p : Fin 16) (s : State) : Host.Outcome State Fault Refusal :=
  .next (
    let x := s.part p.val
    if decide ((s.domain.map (·.phase)) = some .rolling) then s
    else match x.entering with
    | some g => if (bitOf g 56 && !x.go) || s.setTesting p.val then s else s.restorePart p g
    | none =>
      match x.armed with
      | none => s
      | some g =>
        if x.pstate = .switching && x.lates.isEmpty && (s.ctxsOf p.val).all (fun u => s.drained u false) then
          let s1 := s.savePart p g
          if gswNew g = 0 || bitOf g 56 || s1.setTesting (gswNew g) then s1 else s1.restorePart (mkFin16 (gswNew g)) g
        else s)

/-- GANG_SWITCH_RESUME (R367 step 7): at a frame boundary at least 1,024 ns after the last restore. -/
def execGangSwitchResume (p : Fin 16) (s : State) : Host.Outcome State Fault Refusal :=
  .next (match (s.part p.val).restored with
    | none => s
    | some t =>
      if s.time % 1024 = 0 && decide (t + 1024 ≤ s.time) then
        let us := s.ctxsOf p.val
        let s1 := us.foldl (fun t u =>
          ((t.updCtx u (fun c => if c.status = .switching then { c with status := .live, last := s.time } else c)).gapEntry u).moveThread
            (.saved p u) (.here u)) s
        s1.setPart p.val { s1.part p.val with pstate := .running, restored := none }
      else s)

/-- GO (R366, R373): the restore that a HOLD switch waits for may go ahead. -/
def execGo (p : Fin 16) (s : State) : Host.Outcome State Fault Refusal :=
  .next (if p.val = 0 then s else s.setPart p.val { s.part p.val with go := true })

/-- What the hub refuses of a GSWT write (R366). -/
def State.gswtRefuses (s : State) (v : Word) : Bool :=
  let old := s.part (gswOld v)
  let new := gswNew v
  let newRings := (s.part new).rings
  if bitOf v 63 then
    decide (gswOld v = 0) || decide (old.pstate ≠ .running) || (decide (new ≠ 0) && decide ((s.part new).pstate ≠ .saved)) ||
    (decide (new ≠ 0) && newRings.any (fun r =>
      let q := field ((s.die (mkFin8 r.1)).rcfg[r.2.1 % 8]'(Nat.mod_lt _ (by decide))) (8 * r.2.2 + 8) 8
      decide (q ≠ gswOld v) && s.isRunning q)) ||
    s.reached ((gswWhen v + 2 ^ 48 - 4095) % 2 ^ 48) || old.armed.isSome
  else
    match old.armed with
    | none => false
    | some g => s.reached ((gswWhen g + 2 ^ 48 - 4095) % 2 ^ 48)

/-- The hub's answer to a GSWT write: the switch is armed or cancelled, or the write is refused. -/
def State.gswtWrite (s : State) (v : Word) : Option State :=
  if s.gswtRefuses v then none
  else if bitOf v 63 then some (s.setPart (gswOld v) { s.part (gswOld v) with armed := some (v &&& CsrId.gswt.mask), lates := [] })
  else some (s.setPart (gswOld v) { s.part (gswOld v) with armed := none, lates := [] })

/-- GSWT_ARM and GSWT_CANCEL: a GSWT write of context `u` reaches the hub (R366). -/
def execGswtArm (_u : CtxId) (v : BitVec 64) (s : State) : Host.Outcome State Fault Refusal :=
  .next (if bitOf v 63 then (s.gswtWrite v).getD s else s)

def execGswtCancel (_u : CtxId) (v : BitVec 64) (s : State) : Host.Outcome State Fault Refusal :=
  .next (if bitOf v 63 then s else (s.gswtWrite v).getD s)

end Sys2Proof.Machine
end

