-- ==== Sys2Proof/Machine/Threads.lean ====
section
/-! DEFINITION. END, SPAWN, START, YIELD and WFE of major 0x2D, and the events of the dispatcher (13_threads_energy.md
R334-R347, 10_messages.md R265). -/

namespace Sys2Proof.Machine

/-! ## Pending faults (R118, R213, R278) -/

/-- Raising a pending copy fault; otherwise `f`. -/
def State.raiseCopyFault (s : State) (f : State → State) : State :=
  match s.me.copyFault with
  | some p => (s.upd (fun c => { c with copyFault := none })).raise p.cause p.tval
  | none => f s

/-- Raising a pending tile fault. -/
def State.raiseTileFault (s : State) (f : State → State) : State :=
  match s.me.tile.fault with
  | some p => (s.upd (fun c => { c with tile := { c.tile with fault := none } })).raise p.cause p.tval
  | none => f s

/-- Raising a pending message fault. -/
def State.raiseMsgFault (s : State) (f : State → State) : State :=
  match s.me.msgFault with
  | some p => (s.upd (fun c => { c with msgFault := none })).raise p.cause p.tval
  | none => f s

/-! ## END (R340, R341) -/

/-- The completion word. -/
def completionWord (c : Ctx) : Word := boolBit 63 true ||| (c.csr.fflg ||| c.csr.vflg).setWidth 64

/-- What END does once its completion word is written. -/
def State.endFree (s : State) : State := (s.releaseHoldings s.cur).vacate s.cur

def execEndThread (s : State) : Host.Outcome State Fault Refusal :=
  .next (s.sealGate fun s => s.raiseCopyFault fun s => s.raiseTileFault fun s => s.raiseMsgFault fun s =>
    let c := s.me
    if c.forked then s.illegalOperand
    else if !(s.drained s.cur true && decide (s.loadCount s.cur = 0) && decide (s.storeCount s.cur = 0)) then s.hold .poll
    else if c.cwa = 0 then s.endFree
    else (s.checkMine .store false c.cwa 8).finish fun m s =>
      if s.mayLog c.rin m.pa 8 then
        ((s.store none c.rin m.pa (bytesOf 8 (completionWord c).toNat)).touchRegion s.cur.die.val m.pa true).endFree
      else (s.askLog c.rin m.pa 8).hold .poll)

/-! ## SPAWN and START (R337, R339) -/

/-- Reading a record and its checks at issue; `f` takes the record. -/
def State.takeRecord (s : State) (i : Instr) (a : BitVec 5) (f : Nat → State → State) : State :=
  let x := s.x a
  if x.toNat % 64 ≠ 0 then s.raise causeMisaligned x
  else (s.checkMine .load false x 1).finish fun m s =>
    if s.isPoisoned m.pa 64 then s.haltPoisoned s.cur
    else
      let n := ofBytes (memRead s.mem m.pa 64)
      if recordBad n then s.illegalOperand
      else if (recordOf n).sup && !s.me.sup then s.privileged i
      else f n (s.touchRegion s.cur.die.val m.pa false)

def Req.isPut (r : Req) : Bool :=
  match r.kind with
  | .put _ _ => true
  | .send _ => false
  | .get _ _ _ => false
  | .ramo _ _ _ _ _ _ => false
  | .pairs _ => false
  | .flush => false
  | .start _ _ => false

/-- A PUT of the context that is not acknowledged yet (R301); a START that the egress hold keeps stands there behind those that it
keeps already (R325). -/
def State.putsOut (s : State) (held : Bool) : Bool := (s.mine s.cur).any (fun r => r.isPut && !(held && r.inHold))

def isFresh (q : QueueEntry) : Bool :=
  match q.item with
  | .fresh _ _ _ _ _ => true
  | .swapped _ _ => false

/-- The 192 entries that are not reserved for swapped-out threads. -/
def Die.queueFull (d : Die) : Bool := decide (192 ≤ (d.queue.filter isFresh).length)

def execSpawn (a : BitVec 5) (s : State) : Host.Outcome State Fault Refusal :=
  .next (s.sealGate fun s => s.irrevocably fun s => s.takeRecord (.spawn a) a fun n s =>
    let r := recordOf n
    let part := s.partOfCtx s.cur
    if !s.anyEligible (some part) s.cur.die r then s.illegalOperand
    else if s.putsOut false || (s.die s.cur.die).queueFull || decide (s.storeCount s.cur ≥ classLimit) then s.hold .poll
    else
      let d := s.die s.cur.die
      let c := s.me
      (s.setDie s.cur.die { d with queue := d.queue ++
        [⟨part, .fresh r (s.endpoint s.cur.die s.cur.unit.val) c.csr.ptroot c.rin c.dom⟩] }).advance)

/-- Whether a package belongs to the module's rollback domain (R307). -/
def State.memberPkg (s : State) (pkg : BitVec 18) : Bool :=
  match s.domain with
  | none => false
  | some d => decide (field pkg 10 8 = field s.pkg 10 8) && bitOf d.member (field pkg 0 10)

/-- A request enters the egress hold, or leaves at once (R325). -/
def State.sendReq (s : State) (r : Req) (hold : Bool) : State :=
  if hold then { s with net := s.net ++ [{ r with stage := .held s.seq }], seq := s.seq + 1 }
  else { s with net := s.net ++ [{ r with stage := .flying }] }

def execStart (d a : BitVec 5) (s : State) : Host.Outcome State Fault Refusal :=
  .next (s.atS (.start d a) fun s => s.sealGate fun s => s.irrevocably fun s => s.takeRecord (.start d a) a fun n s =>
    let t := s.x d
    let c := s.me
    if field t 32 32 ≠ 0 then s.illegalOperand
    else
      let held := c.dom && !s.memberPkg (BitVec.ofNat 18 (field t 14 18))
      if s.putsOut held || decide (s.storeCount s.cur ≥ classLimit) then s.hold .poll
      else if held && decide (s.holdFree s.cur.die < 1) then s.hold .poll
      else
        (s.sendReq {
          src := some (.here s.cur)
          srcEp := s.endpoint s.cur.die s.cur.unit.val
          ds := 0
          fn := 1
          target := t.setWidth 32
          win := 0
          inc := 0
          rin := c.rin
          dom := c.dom
          part := some (s.partOfCtx s.cur)
          out := held
          imm := false
          rel := true
          beats := 1
          credited := false
          tries := 0
          kind := .start (BitVec.ofNat 512 n) c.csr.ptroot
          stage := .flying
          via := []
          ce := false } held).advance)

/-- The place that a START's target takes for its record, or the reason of its refusal (R339). Before step 10 of bring-up
every START is refused with reason 9 (R395). -/
def State.startPlace (s : State) (r : Req) (n : Nat) : Except (BitVec 4) CtxId :=
  let rec1 := recordOf n
  if s.hub.step < 10 then .error 9
  else match s.unitOf r.target with
  | none => if s.isAgent r.target then .error 9 else .error 6
  | some (d, unit) =>
    let q := quadOfUnit unit
    let first := s.ringFirst d q
    if recordBad n then .error 10
    else if unit ≥ 160 || decide (rec1.qcc ≠ isQccUnit unit) || decide (rec1.slot ≥ slotsOfUnit unit) then .error 9
    else if !s.eligible r.part d (if rec1.qcc then q else first) rec1 || s.placeTesting d (if rec1.qcc then q else first) rec1.qcc then .error 9
    else
      let u := mkCtxId d.val unit rec1.slot
      if (if rec1.qcc then decide ((s.ctx u).status = .free) else s.ringSlotFree d first rec1.slot) then .ok u else .error 8

/-- Whether a domain is stopped that would hold a thread placed on a unit: it is placed, or refused, once the domain runs
again or is dissolved (R329, R333; log 88). -/
def State.startWaits (s : State) (r : Req) : Bool :=
  s.hub.powerOff ||
  (match s.unitOf r.target with
   | none => false
   | some (d, unit) => decide (unit < 160) && s.inDomain (s.partOf d (quadOfUnit unit)) && decide ((s.domain.map (·.phase)) ≠ some .running))

/-- The PTROOT with which a START's thread begins: its issuer's, or the reset value where that is the control node (R335). -/
def Req.startRoot (r : Req) (ptroot : Word) : Word := if r.part.isNone then Csrs.reset.ptroot else ptroot

/-- START_ARRIVAL (R339): the target places the thread, or refuses with a reason. -/
def execStartArrival (n : Nat) (s : State) : Host.Outcome State Fault Refusal :=
  .next (match s.net[n]? with
    | none => s
    | some r =>
      match r.kind with
      | .start rec1 ptroot =>
        if r.stage ≠ .flying || s.spilled r || decide (field r.target 14 18 ≠ s.pkg.toNat) || s.startWaits r then s
        else match s.startPlace r rec1.toNat with
          | .error e => ((s.dropAbsent r).answerReq n r (.refused e))
          | .ok u => (s.answerReq n r .performed).placeRecord u (recordOf rec1.toNat) r.srcEp (r.startRoot ptroot)
      | .put _ _ => s
      | .send _ => s
      | .get _ _ _ => s
      | .ramo _ _ _ _ _ _ => s
      | .pairs _ => s
      | .flush => s)

/-! ## The dispatcher (R338, R342) -/

/-- Whether threads of a partition may be placed now: it runs, and so does its domain. -/
def State.mayPlace (s : State) (part : Nat) : Bool :=
  s.isRunning part && !s.hub.powerOff &&
  (!s.inDomain part || decide ((s.domain.map (·.phase)) = some .running))

/-- Where an entry would be placed now. -/
def State.entryPlace (s : State) (d : Fin 8) (q : QueueEntry) : Option CtxId :=
  if !s.mayPlace q.part then none
  else match q.item with
    | .fresh r _ _ _ _ => s.placeFor q.part d r
    | .swapped e ready =>
      if !ready then none
      else match (s.die d).swap e with
        | none => none
        | some w => (List.range 32).findSome? (fun i =>
            if s.swapFits q.part d i w && !s.placeTesting d i w.home.isQcc then (s.freeSlot d i w.home.isQcc).map (fun k => w.target d i k) else none)

/-- Placing an entry's thread on a context. -/
def State.placeEntry (s : State) (d : Fin 8) (q : QueueEntry) (u : CtxId) : State :=
  match q.item with
  | .fresh r issuer ptroot _ _ => s.placeRecord u r issuer ptroot
  | .swapped e _ => s.swapIn d e u

/-- The first entry of a queue with a place, its index and that place. -/
def State.firstPlace (s : State) (d : Fin 8) : List QueueEntry → Nat → Option (Nat × QueueEntry × CtxId)
  | [], _ => none
  | q :: qs, i =>
    match s.entryPlace d q with
    | some u => some (i, q, u)
    | none => State.firstPlace s d qs (i + 1)

/-- DISPATCH_PLACE: the oldest ready entry for which a free, eligible context exists. -/
def execDispatchPlace (die : Fin 8) (s : State) : Host.Outcome State Fault Refusal :=
  .next (match s.firstPlace die (s.die die).queue 0 with
    | none => s
    | some (i, q, u) => (s.setDie die { s.die die with queue := removeAt (s.die die).queue i }).placeEntry die q u)

/-- Whether an entry could take the slot of context `u` (R342, R343), and at which core. -/
def State.entryForSlot (s : State) (u : CtxId) (q : QueueEntry) : Option CtxId :=
  let quad := if u.isQcc then u.quad else s.ringFirst u.die u.quad
  if !s.mayPlace q.part || s.placeTesting u.die quad u.isQcc then none
  else match q.item with
    | .fresh r _ _ _ _ =>
      if decide (r.qcc = u.isQcc) && s.eligible (some q.part) u.die quad r then
        some (mkCtxId u.die.val (if u.isQcc then 128 + quad else 4 * quad) u.slot.val) else none
    | .swapped e ready =>
      match (s.die u.die).swap e with
      | none => none
      | some w =>
        if ready && decide (w.home.isQcc = u.isQcc) && s.swapFits q.part u.die quad w then some (w.target u.die quad u.slot.val) else none

def State.firstForSlot (s : State) (u : CtxId) : List QueueEntry → Nat → Option (Nat × QueueEntry × CtxId)
  | [], _ => none
  | q :: qs, i =>
    match s.entryForSlot u q with
    | some v => some (i, q, v)
    | none => State.firstForSlot s u qs (i + 1)

/-- Exchanging the thread of a context for queued entry `i`. -/
def State.exchange (s : State) (u : CtxId) (e reason : Nat) (ready : Bool) (i : Nat) (q : QueueEntry) (v : CtxId) : State :=
  let s1 := (s.setDie u.die { s.die u.die with queue := removeAt (s.die u.die).queue i }).updCtx u (fun c => { c with boost := false })
  (s1.swapOut u e reason ready).placeEntry u.die q v

/-! ## YIELD and WFE (R342, R344) -/

def execYield (s : State) : Host.Outcome State Fault Refusal :=
  .next (
    if s.me.forked then s.illegalOperand
    else match s.firstForSlot s.cur (s.die s.cur.die).queue 0, s.freeEntry s.cur.die with
      | some (i, q, v), some e =>
        if s.drained s.cur true then s.advance.exchange s.cur e 2 true i q v else s.hold .poll
      | _, _ => (s.upd (fun c => { c with yielded := true, boost := false })).advance)

def execWfe (a : BitVec 5) (s : State) : Host.Outcome State Fault Refusal :=
  .next (s.irrevocably fun s =>
    let r := s.ringOf s.cur
    if min (s.x a).toInt r.quant ≤ r.ealw then s.advance else s.hold .energy)

/-! ## Descheduling and re-queueing (R265, R343) -/

/-- DESCHEDULE: a context blocked on allowance for DESCHED cycles gives its slot to a ready entry. -/
def execDeschedule (u : CtxId) (s : State) : Host.Outcome State Fault Refusal :=
  .next (
    let c := s.ctx u
    if c.status ≠ .live || c.wait ≠ some .allowance || c.csr.desched = 0 || decide (s.time < c.blocked + c.csr.desched.toNat) ||
      !s.drained u true || !s.stoppable u then s
    else match s.firstForSlot u (s.die u.die).queue 0, s.freeEntry u.die with
      | some (i, q, v), some e => s.exchange u e 1 false i q v
      | _, _ => s)

/-- Whether every slot for which a blocked request waits covers it, or has refused it. -/
def State.covered (s : State) (d : Fin 8) (c : Ctx) : Bool :=
  c.needs.all (fun n => (c.slot n.1).refusal.isSome || decide (n.2.1 ≤ s.allowance d (c.slot n.1) n.2.2))

def setReady (e : Nat) (q : QueueEntry) : Bool :=
  match q.item with
  | .fresh _ _ _ _ _ => false
  | .swapped f ready => decide (f = e) && !ready

/-- PARKED_REQUEUE: a parked thread's allowance covers its request, and the thread is queued again, ready. -/
def execParkedRequeue (die : Fin 8) (e : Nat) (s : State) : Host.Outcome State Fault Refusal :=
  .next (match (s.die die).swap e with
    | none => s
    | some w =>
      let d := s.die die
      match d.queue.find? (setReady e) with
      | none => s
      | some q =>
        if s.covered die w.ctx then
          s.setDie die { d with queue := d.queue.filter (fun x => !setReady e x) ++ [⟨q.part, .swapped e true⟩] }
        else s)

/-- AGE_BOOST: a ready, fitting context passed over for AGE cycles is raised (R32). -/
def execAgeBoost (u : CtxId) (s : State) : Host.Outcome State Fault Refusal :=
  .next (
    let c := s.ctx u
    if c.status = .live && decide (c.csr.age ≤ c.passed) then s.setCtx u { c with boost := true } else s)

end Sys2Proof.Machine
end

