-- ==== Sys2Proof/Machine/Scalar.lean ====
section
/-! DEFINITION. The integer, constant-building, PC-relative, branch and jump instructions of majors 0x01-0x13
(04_scalar.md R91-R101). Each writes at most one scalar register and the PC and always goes on (R86). -/

namespace Sys2Proof.Machine

/-- 1 for true, 0 for false, as SLT and its siblings write it (R92). -/
def truth (b : Bool) : Word := if b then 1 else 0

/-- Leading zero bits of the low `n` bits of `x`. -/
def leadingZeros (x : Word) : Nat → Nat
  | 0 => 0
  | n + 1 => if x.getLsbD n then 0 else leadingZeros x n + 1

def countLeading (x : Word) : Nat := leadingZeros x 64

/-- Trailing zero bits of `x` from bit `i` on, `n` bits being left. -/
def trailingZeros (x : Word) : Nat → Nat → Nat
  | 0, _ => 0
  | n + 1, i => if x.getLsbD i then 0 else trailingZeros x n (i + 1) + 1

def countTrailing (x : Word) : Nat := trailingZeros x 64 0

/-- Set bits among the low `n` bits of a vector. -/
def onesBelow {w : Nat} (x : BitVec w) : Nat → Nat
  | 0 => 0
  | n + 1 => onesBelow x n + (if x.getLsbD n then 1 else 0)

def countOnes (x : Word) : Nat := onesBelow x 64

/-- The division rules of R93: by zero, the overflow of the most negative number, else truncation toward zero. -/
def divSigned (x y : Word) : Word :=
  if y = 0 then BitVec.allOnes 64 else if x.toInt = -(2 ^ 63) ∧ y.toInt = -1 then x else BitVec.ofInt 64 (x.toInt.tdiv y.toInt)

def remSigned (x y : Word) : Word :=
  if y = 0 then x else if x.toInt = -(2 ^ 63) ∧ y.toInt = -1 then 0 else BitVec.ofInt 64 (x.toInt.tmod y.toInt)

def divUnsigned (x y : Word) : Word := if y = 0 then BitVec.allOnes 64 else BitVec.ofNat 64 (x.toNat / y.toNat)

def remUnsigned (x y : Word) : Word := if y = 0 then x else BitVec.ofNat 64 (x.toNat % y.toNat)

/-! ## Results of the register forms (R92, R93) -/

def aluAdd (x y : Word) : Word := x + y
def aluSub (x y : Word) : Word := x - y
def aluAndR (x y : Word) : Word := x &&& y
def aluOrR (x y : Word) : Word := x ||| y
def aluXorR (x y : Word) : Word := x ^^^ y
def aluAndn (x y : Word) : Word := x &&& ~~~y
def aluSll (x y : Word) : Word := x <<< (field y 0 6)
def aluSrl (x y : Word) : Word := x >>> (field y 0 6)
def aluSra (x y : Word) : Word := x.sshiftRight (field y 0 6)
def aluSlt (x y : Word) : Word := truth (x.slt y)
def aluSltu (x y : Word) : Word := truth (x.ult y)
def aluMinS (x y : Word) : Word := if y.slt x then y else x
def aluMaxS (x y : Word) : Word := if x.slt y then y else x
def aluMinu (x y : Word) : Word := if y.ult x then y else x
def aluMaxu (x y : Word) : Word := if x.ult y then y else x
def aluMul (x y : Word) : Word := x * y
def aluMulh (x y : Word) : Word := BitVec.ofInt 64 (x.toInt * y.toInt / 2 ^ 64)
def aluMulhu (x y : Word) : Word := BitVec.ofNat 64 (x.toNat * y.toNat / 2 ^ 64)
def aluDiv (x y : Word) : Word := divSigned x y
def aluDivu (x y : Word) : Word := divUnsigned x y
def aluRem (x y : Word) : Word := remSigned x y
def aluRemu (x y : Word) : Word := remUnsigned x y

def aluClz (x : Word) : Word := BitVec.ofNat 64 (countLeading x)
def aluCtz (x : Word) : Word := BitVec.ofNat 64 (countTrailing x)
def aluPopc (x : Word) : Word := BitVec.ofNat 64 (countOnes x)
def aluSxb (x : Word) : Word := sext (x.setWidth 8)
def aluSxh (x : Word) : Word := sext (x.setWidth 16)
def aluSxw (x : Word) : Word := sext (x.setWidth 32)
def aluZxw (x : Word) : Word := (x.setWidth 32).setWidth 64

/-! ## Major 0x01 (R91-R93) -/

/-- A register-register instruction: s[d] becomes a function of s[a] and s[b]. -/
def State.rr (s : State) (d a b : BitVec 5) (f : Word → Word → Word) : State := s.retire d (f (s.x a) (s.x b))

/-- A unary instruction. -/
def State.r1 (s : State) (d a : BitVec 5) (f : Word → Word) : State := s.retire d (f (s.x a))

def execAdd (d a b : BitVec 5) (s : State) : Host.Outcome State Fault Refusal := .next (s.rr d a b aluAdd)
def execSub (d a b : BitVec 5) (s : State) : Host.Outcome State Fault Refusal := .next (s.rr d a b aluSub)
def execAndR (d a b : BitVec 5) (s : State) : Host.Outcome State Fault Refusal := .next (s.rr d a b aluAndR)
def execOrR (d a b : BitVec 5) (s : State) : Host.Outcome State Fault Refusal := .next (s.rr d a b aluOrR)
def execXorR (d a b : BitVec 5) (s : State) : Host.Outcome State Fault Refusal := .next (s.rr d a b aluXorR)
def execAndn (d a b : BitVec 5) (s : State) : Host.Outcome State Fault Refusal := .next (s.rr d a b aluAndn)
def execSll (d a b : BitVec 5) (s : State) : Host.Outcome State Fault Refusal := .next (s.rr d a b aluSll)
def execSrl (d a b : BitVec 5) (s : State) : Host.Outcome State Fault Refusal := .next (s.rr d a b aluSrl)
def execSra (d a b : BitVec 5) (s : State) : Host.Outcome State Fault Refusal := .next (s.rr d a b aluSra)
def execSlt (d a b : BitVec 5) (s : State) : Host.Outcome State Fault Refusal := .next (s.rr d a b aluSlt)
def execSltu (d a b : BitVec 5) (s : State) : Host.Outcome State Fault Refusal := .next (s.rr d a b aluSltu)
def execMinS (d a b : BitVec 5) (s : State) : Host.Outcome State Fault Refusal := .next (s.rr d a b aluMinS)
def execMaxS (d a b : BitVec 5) (s : State) : Host.Outcome State Fault Refusal := .next (s.rr d a b aluMaxS)
def execMinu (d a b : BitVec 5) (s : State) : Host.Outcome State Fault Refusal := .next (s.rr d a b aluMinu)
def execMaxu (d a b : BitVec 5) (s : State) : Host.Outcome State Fault Refusal := .next (s.rr d a b aluMaxu)
def execMul (d a b : BitVec 5) (s : State) : Host.Outcome State Fault Refusal := .next (s.rr d a b aluMul)
def execMulh (d a b : BitVec 5) (s : State) : Host.Outcome State Fault Refusal := .next (s.rr d a b aluMulh)
def execMulhu (d a b : BitVec 5) (s : State) : Host.Outcome State Fault Refusal := .next (s.rr d a b aluMulhu)
def execDiv (d a b : BitVec 5) (s : State) : Host.Outcome State Fault Refusal := .next (s.rr d a b aluDiv)
def execDivu (d a b : BitVec 5) (s : State) : Host.Outcome State Fault Refusal := .next (s.rr d a b aluDivu)
def execRem (d a b : BitVec 5) (s : State) : Host.Outcome State Fault Refusal := .next (s.rr d a b aluRem)
def execRemu (d a b : BitVec 5) (s : State) : Host.Outcome State Fault Refusal := .next (s.rr d a b aluRemu)
def execClz (d a : BitVec 5) (s : State) : Host.Outcome State Fault Refusal := .next (s.r1 d a aluClz)
def execCtz (d a : BitVec 5) (s : State) : Host.Outcome State Fault Refusal := .next (s.r1 d a aluCtz)
def execPopc (d a : BitVec 5) (s : State) : Host.Outcome State Fault Refusal := .next (s.r1 d a aluPopc)
def execSxb (d a : BitVec 5) (s : State) : Host.Outcome State Fault Refusal := .next (s.r1 d a aluSxb)
def execSxh (d a : BitVec 5) (s : State) : Host.Outcome State Fault Refusal := .next (s.r1 d a aluSxh)
def execSxw (d a : BitVec 5) (s : State) : Host.Outcome State Fault Refusal := .next (s.r1 d a aluSxw)
def execZxw (d a : BitVec 5) (s : State) : Host.Outcome State Fault Refusal := .next (s.r1 d a aluZxw)

/-- SEL: s[a] if s[c] is not 0, else s[b]. -/
def execSel (d a b c : BitVec 5) (s : State) : Host.Outcome State Fault Refusal :=
  .next (s.retire d (if s.x c ≠ 0 then s.x a else s.x b))

/-! ## Immediate forms (R94, R95) -/

def execAddi (d a : BitVec 5) (imm : BitVec 16) (s : State) : Host.Outcome State Fault Refusal :=
  .next (s.retire d (aluAdd (s.x a) (sext imm)))
def execAndi (d a : BitVec 5) (imm : BitVec 16) (s : State) : Host.Outcome State Fault Refusal :=
  .next (s.retire d (aluAndR (s.x a) (sext imm)))
def execOri (d a : BitVec 5) (imm : BitVec 16) (s : State) : Host.Outcome State Fault Refusal :=
  .next (s.retire d (aluOrR (s.x a) (sext imm)))
def execXori (d a : BitVec 5) (imm : BitVec 16) (s : State) : Host.Outcome State Fault Refusal :=
  .next (s.retire d (aluXorR (s.x a) (sext imm)))
def execSlti (d a : BitVec 5) (imm : BitVec 16) (s : State) : Host.Outcome State Fault Refusal :=
  .next (s.retire d (aluSlt (s.x a) (sext imm)))
def execSltiu (d a : BitVec 5) (imm : BitVec 16) (s : State) : Host.Outcome State Fault Refusal :=
  .next (s.retire d (aluSltu (s.x a) (sext imm)))
def execSlli (d a : BitVec 5) (n : BitVec 6) (s : State) : Host.Outcome State Fault Refusal :=
  .next (s.retire d (aluSll (s.x a) (n.setWidth 64)))
def execSrli (d a : BitVec 5) (n : BitVec 6) (s : State) : Host.Outcome State Fault Refusal :=
  .next (s.retire d (aluSrl (s.x a) (n.setWidth 64)))
def execSrai (d a : BitVec 5) (n : BitVec 6) (s : State) : Host.Outcome State Fault Refusal :=
  .next (s.retire d (aluSra (s.x a) (n.setWidth 64)))

/-! ## Constants and PC-relative addresses (R96, R97) -/

/-- A 16-bit quarter placed at quarter `q`. -/
def quarter (imm : BitVec 16) (q : BitVec 2) : Word := imm.setWidth 64 <<< (16 * q.toNat)

/-- LIZ: the quarter alone; with `.sx` the bits above it copy its top bit. -/
def lizValue (hw : BitVec 2) (sx : BitVec 1) (imm : BitVec 16) : Word :=
  if sx = 1 then quarter imm hw ||| (sext imm <<< (16 * hw.toNat)) else quarter imm hw

/-- LIK: only that quarter is replaced. -/
def likValue (old : Word) (hw : BitVec 2) (imm : BitVec 16) : Word := (old &&& ~~~(quarter 0xFFFF hw)) ||| quarter imm hw

def execLiz (d : BitVec 5) (hw : BitVec 2) (sx : BitVec 1) (imm : BitVec 16) (s : State) : Host.Outcome State Fault Refusal :=
  .next (s.retire d (lizValue hw sx imm))
def execLik (d : BitVec 5) (hw : BitVec 2) (imm : BitVec 16) (s : State) : Host.Outcome State Fault Refusal :=
  .next (s.retire d (likValue (s.x d) hw imm))
def execAddpc (d : BitVec 5) (off : BitVec 21) (s : State) : Host.Outcome State Fault Refusal :=
  .next (s.retire d (target s.me.pc off))

/-! ## Branches and jumps (R98-R100) -/

/-- A conditional branch: only a taken one checks its target. -/
def State.branch (s : State) (taken : Bool) (off : BitVec 16) : State :=
  if taken then s.transfer (target s.me.pc off) id else s.advance

def execBeq (a b : BitVec 5) (off : BitVec 16) (s : State) : Host.Outcome State Fault Refusal :=
  .next (s.branch (decide (s.x a = s.x b)) off)
def execBne (a b : BitVec 5) (off : BitVec 16) (s : State) : Host.Outcome State Fault Refusal :=
  .next (s.branch (decide (s.x a ≠ s.x b)) off)
def execBlt (a b : BitVec 5) (off : BitVec 16) (s : State) : Host.Outcome State Fault Refusal :=
  .next (s.branch ((s.x a).slt (s.x b)) off)
def execBge (a b : BitVec 5) (off : BitVec 16) (s : State) : Host.Outcome State Fault Refusal :=
  .next (s.branch (!(s.x a).slt (s.x b)) off)
def execBltu (a b : BitVec 5) (off : BitVec 16) (s : State) : Host.Outcome State Fault Refusal :=
  .next (s.branch ((s.x a).ult (s.x b)) off)
def execBgeu (a b : BitVec 5) (off : BitVec 16) (s : State) : Host.Outcome State Fault Refusal :=
  .next (s.branch (!(s.x a).ult (s.x b)) off)

/-- JAL: the link register is written once the target is found legal (R99, R101). -/
def execJal (d : BitVec 5) (off : BitVec 21) (s : State) : Host.Outcome State Fault Refusal :=
  .next (s.transfer (target s.me.pc off) (fun t => t.upd (fun c => c.setX d (c.pc + 4))))

/-- JALR: s[a] is read before s[d] is written; misalignment comes before range (R100). -/
def execJalr (d a : BitVec 5) (imm : BitVec 16) (s : State) : Host.Outcome State Fault Refusal :=
  let t := s.x a + sext imm
  .next (if field t 0 2 ≠ 0 then s.raise causeMisaligned t
    else s.transfer t (fun t => t.upd (fun c => c.setX d (c.pc + 4))))

end Sys2Proof.Machine
end

