-- ==== Sys2Proof/Machine/Vector.lean ====
section
/-! DEFINITION. Vector configuration, arithmetic, permutes, reductions, conversion, moves and mask operations of majors
0x18-0x1F (06_vector.md R149-R160). An instruction makes its checks, then is performed whole (log 11). -/

namespace Sys2Proof.Machine

/-! ## Control (R149-R151) -/

/-- VSETL: VL becomes the smaller of the request and 1,024; never a trap on the value. -/
def execVsetl (d a : BitVec 5) (s : State) : Host.Outcome State Fault Refusal :=
  .next (s.onCore (.vsetl d a) fun s =>
    if s.me.vecs.isEmpty then
      let n := min (s.x a).toNat 1024
      (s.upd (fun c => { c with csr := { c.csr with vl := n } })).retire d (BitVec.ofNat 64 n)
    else s.hold .poll)

/-- VCFG: the tag alone; `.none` also discards the register. -/
def VReg.cfg (v : VReg) (t : Tag) : VReg := if t = .untagged then ⟨0, .untagged, 0⟩ else { v with tag := t }

def execVcfg (vd tag : BitVec 5) (s : State) : Host.Outcome State Fault Refusal :=
  .next (s.onCore (.vcfg vd tag) fun s =>
    match Tag.ofCode tag.toNat with
    | some t => (s.upd (fun c => c.setV vd ((c.v vd).cfg t))).advance
    | none => s.illegal (.vcfg vd tag))

/-- VSYNC: complete when every older vector instruction of the context is. -/
def execVsync (s : State) : Host.Outcome State Fault Refusal :=
  .next (s.onCore .vsync fun s =>
    if s.me.vecs.isEmpty then s.vdoneWith ⟨false, false, false, .cross, 1, s.me.csr.vl, BitVec.allOnes 1024, 0, 0, .elems⟩ (fun _ => 0)
    else s.hold .poll)

/-! ## Arithmetic (R152, R153) -/

inductive VOp where
  | add | sub | mul | fma | mulh | adds | subs | min | max | abs | neg | rcp | rsq | exp2 | log2 | and | or | xor | shl | shr
deriving DecidableEq, Repr

/-- The families an operation takes (R153). -/
def VOp.takes (op : VOp) (t : Tag) : Bool :=
  let ints := decide (t.family = some .signed) || decide (t.family = some .unsigned)
  let flt := decide (t.family = some .float)
  match op with
  | .add => ints || flt
  | .sub => ints || flt
  | .mul => ints || flt || decide (t = .lns8)
  | .fma => ints || flt
  | .mulh => ints
  | .adds => ints
  | .subs => ints
  | .min => ints || flt
  | .max => ints || flt
  | .abs => ints || flt
  | .neg => ints || flt
  | .rcp => flt
  | .rsq => flt
  | .exp2 => flt
  | .log2 => flt
  | .and => ints
  | .or => ints
  | .xor => ints
  | .shl => ints
  | .shr => ints

def VOp.pipe (op : VOp) : Pipe :=
  match op with
  | .rcp => .sfu
  | .rsq => .sfu
  | .exp2 => .sfu
  | .log2 => .sfu
  | .add => .arith
  | .sub => .arith
  | .mul => .arith
  | .fma => .arith
  | .mulh => .arith
  | .adds => .arith
  | .subs => .arith
  | .min => .arith
  | .max => .arith
  | .abs => .arith
  | .neg => .arith
  | .and => .arith
  | .or => .arith
  | .xor => .arith
  | .shl => .arith
  | .shr => .arith

def bitwise (w : Nat) (f : BitVec w → BitVec w → BitVec w) (x y : Int) : Nat :=
  (f (BitVec.ofInt w x) (BitVec.ofInt w y)).toNat

/-- An operation on integers read exactly, at result type `t` (R65, R153). -/
def VOp.onInts (op : VOp) (t : Tag) (x y z : Int) : Nat × Flags :=
  let w := 8 * t.width
  let sg := decide (t.family = some .signed)
  match op with
  | .add => (wrapInt w (x + y), 0)
  | .sub => (wrapInt w (x - y), 0)
  | .mul => (wrapInt w (x * y), 0)
  | .fma => (wrapInt w (x * y + z), 0)
  | .mulh => (wrapInt w (x * y / (2 ^ w : Nat)), 0)
  | .adds => saturate sg w (x + y) Flags.sa
  | .subs => saturate sg w (x - y) Flags.sa
  | .min => (wrapInt w (if y < x then y else x), 0)
  | .max => (wrapInt w (if x < y then y else x), 0)
  | .abs => (wrapInt w x.natAbs, 0)
  | .neg => (wrapInt w (-x), 0)
  | .and => (bitwise w (· &&& ·) x y, 0)
  | .or => (bitwise w (· ||| ·) x y, 0)
  | .xor => (bitwise w (· ^^^ ·) x y, 0)
  | .shl => (wrapInt w (x * (2 ^ (y.toNat % w) : Nat)), 0)
  | .shr => (wrapInt w (x / (2 ^ (y.toNat % w) : Nat)), 0)
  | .rcp => (0, 0)
  | .rsq => (0, 0)
  | .exp2 => (0, 0)
  | .log2 => (0, 0)

/-- An operation on floats, rounded once to the result format (R67, R72-R74). -/
def VOp.onFloats (op : VOp) (f : Fmt) (rm : Rounding) (x y z : FVal) : Nat × Flags :=
  match op with
  | .add => f.add rm x y
  | .sub => f.sub rm x y
  | .mul => f.mul rm x y
  | .fma => f.fma rm x y z
  | .min => f.minMax false x y
  | .max => f.minMax true x y
  | .rcp => f.rcp rm x
  | .rsq => f.rsq rm x
  | .exp2 => f.exp2 rm x
  | .log2 => f.log2 rm x
  | .abs => (0, 0)
  | .neg => (0, 0)
  | .mulh => (0, 0)
  | .adds => (0, 0)
  | .subs => (0, 0)
  | .and => (0, 0)
  | .or => (0, 0)
  | .xor => (0, 0)
  | .shl => (0, 0)
  | .shr => (0, 0)

/-- One element: raw operands at their own tags, the result at `t`. VABS and VNEG of a float act on the sign bit alone,
NaN included, and set no flag. A shift reads its count at vb's own width. -/
def VOp.elem (op : VOp) (rm : Rounding) (t : Tag) (tx : Tag) (x : Nat) (ty : Tag) (y : Nat) (tz : Tag) (z : Nat) : Nat × Flags :=
  match t.fmt with
  | some f =>
    match op with
    | .abs => (x % 2 ^ (f.exp + f.frac), 0)
    | .neg => (if x < 2 ^ (f.exp + f.frac) then x + 2 ^ (f.exp + f.frac) else x - 2 ^ (f.exp + f.frac), 0)
    | op => op.onFloats f rm (floatElem tx x) (floatElem ty y) (floatElem tz z)
  | none =>
    if t = .lns8 then lnsMul x y
    else match op with
      | .shl => VOp.shl.onInts t (intElem tx x) y 0
      | .shr => VOp.shr.onInts t (intElem tx x) y 0
      | op => op.onInts t (intElem tx x) (intElem ty y) (intElem tz z)

/-- The second operand of R136: a vector register, or a scalar register with the type of va. -/
def State.vb (s : State) (va vb : BitVec 5) (bs : BitVec 1) : VSrc :=
  if bs = 1 then .scalar (s.me.v va).tag (s.x vb) else .vec (s.me.v vb)

def vbRegs (vb : BitVec 5) (bs : BitVec 1) : List (BitVec 5) := if bs = 1 then [] else [vb]

/-- The common end of an element instruction: destination type, mark, elements, flags, then on (R138, R152). -/
def State.vwrite (s : State) (vd : BitVec 5) (t : Tag) (groupW : Nat) (km : BitVec 1024) (pipe : Pipe)
    (f : Nat → Nat × Flags) : State :=
  let vl := s.me.csr.vl
  let note : VNote := ⟨false, false, false, pipe, groupW, vl, km, 0, 0, .elems⟩
  if vl = 0 then s.vdone note
  else
    let r := elemLoop t.width vl (s.me.runs groupW) km f ((s.me.v vd).dest t vl)
    (s.upd (fun c => (c.setV vd r.1).orV r.2)).vdone note

def State.frm (s : State) : Rounding := Rounding.ofFrm s.me.csr.frm

/-- An instruction of major 0x19 (R152), `unary` when it takes va alone. -/
def State.varith (s : State) (op : VOp) (unary : Bool) (vd va : BitVec 5) (y : VSrc) (yRegs : List (BitVec 5)) (km : BitVec 3) : State :=
  let c := s.me
  let x := VSrc.vec (c.v va)
  let z := VSrc.vec (c.v vd)
  let isShift := decide (op = .shl) || decide (op = .shr)
  let isFma := decide (op = .fma)
  let scalarBad := match y with
    | .scalar t _ => decide (t = .untagged)
    | .vec _ => false
  let countBad := isShift && !(decide (y.tag.family = some .signed) || decide (y.tag.family = some .unsigned))
  let typing := if unary || isShift then [x.tag] else if isFma then [x.tag, y.tag, z.tag] else [x.tag, y.tag]
  match resultType typing with
  | none => s.vIllegal
  | some t =>
    let srcs := va :: (if unary then [] else yRegs) ++ (if isFma then [vd] else [])
    let W := widest (t :: x.tag :: (if unary then [] else [y.tag]) ++ (if isFma then [z.tag] else []))
    let lnsBad := decide (t = .lns8) && !(decide (x.tag = .lns8) && decide (y.tag = .lns8))
    if scalarBad || countBad || !op.takes t || lnsBad || !widthsOk c.csr.vl W t (asSource vd (c.v vd).tag srcs) then s.vIllegal
    else s.vwrite vd t W (c.k km) op.pipe
      (fun e => op.elem s.frm t x.tag (x.raw e) y.tag (y.raw e) z.tag (z.raw e))

def execVadd (vd va vb : BitVec 5) (km : BitVec 3) (sv : BitVec 1) (s : State) : Host.Outcome State Fault Refusal :=
  .next (s.onCore (.vadd vd va vb km sv) fun s => s.varith .add false vd va (s.vb va vb sv) (vbRegs vb sv) km)
def execVsub (vd va vb : BitVec 5) (km : BitVec 3) (sv : BitVec 1) (s : State) : Host.Outcome State Fault Refusal :=
  .next (s.onCore (.vsub vd va vb km sv) fun s => s.varith .sub false vd va (s.vb va vb sv) (vbRegs vb sv) km)
def execVmul (vd va vb : BitVec 5) (km : BitVec 3) (sv : BitVec 1) (s : State) : Host.Outcome State Fault Refusal :=
  .next (s.onCore (.vmul vd va vb km sv) fun s => s.varith .mul false vd va (s.vb va vb sv) (vbRegs vb sv) km)
def execVmulh (vd va vb : BitVec 5) (km : BitVec 3) (sv : BitVec 1) (s : State) : Host.Outcome State Fault Refusal :=
  .next (s.onCore (.vmulh vd va vb km sv) fun s => s.varith .mulh false vd va (s.vb va vb sv) (vbRegs vb sv) km)
def execVadds (vd va vb : BitVec 5) (km : BitVec 3) (sv : BitVec 1) (s : State) : Host.Outcome State Fault Refusal :=
  .next (s.onCore (.vadds vd va vb km sv) fun s => s.varith .adds false vd va (s.vb va vb sv) (vbRegs vb sv) km)
def execVsubs (vd va vb : BitVec 5) (km : BitVec 3) (sv : BitVec 1) (s : State) : Host.Outcome State Fault Refusal :=
  .next (s.onCore (.vsubs vd va vb km sv) fun s => s.varith .subs false vd va (s.vb va vb sv) (vbRegs vb sv) km)
def execVmin (vd va vb : BitVec 5) (km : BitVec 3) (sv : BitVec 1) (s : State) : Host.Outcome State Fault Refusal :=
  .next (s.onCore (.vmin vd va vb km sv) fun s => s.varith .min false vd va (s.vb va vb sv) (vbRegs vb sv) km)
def execVmax (vd va vb : BitVec 5) (km : BitVec 3) (sv : BitVec 1) (s : State) : Host.Outcome State Fault Refusal :=
  .next (s.onCore (.vmax vd va vb km sv) fun s => s.varith .max false vd va (s.vb va vb sv) (vbRegs vb sv) km)
def execVfma (vd va vb : BitVec 5) (km : BitVec 3) (sv : BitVec 1) (s : State) : Host.Outcome State Fault Refusal :=
  .next (s.onCore (.vfma vd va vb km sv) fun s => s.varith .fma false vd va (s.vb va vb sv) (vbRegs vb sv) km)
def execVand (vd va vb : BitVec 5) (km : BitVec 3) (sv : BitVec 1) (s : State) : Host.Outcome State Fault Refusal :=
  .next (s.onCore (.vand vd va vb km sv) fun s => s.varith .and false vd va (s.vb va vb sv) (vbRegs vb sv) km)
def execVor (vd va vb : BitVec 5) (km : BitVec 3) (sv : BitVec 1) (s : State) : Host.Outcome State Fault Refusal :=
  .next (s.onCore (.vor vd va vb km sv) fun s => s.varith .or false vd va (s.vb va vb sv) (vbRegs vb sv) km)
def execVxor (vd va vb : BitVec 5) (km : BitVec 3) (sv : BitVec 1) (s : State) : Host.Outcome State Fault Refusal :=
  .next (s.onCore (.vxor vd va vb km sv) fun s => s.varith .xor false vd va (s.vb va vb sv) (vbRegs vb sv) km)
def execVshl (vd va vb : BitVec 5) (km : BitVec 3) (sv : BitVec 1) (s : State) : Host.Outcome State Fault Refusal :=
  .next (s.onCore (.vshl vd va vb km sv) fun s => s.varith .shl false vd va (s.vb va vb sv) (vbRegs vb sv) km)
def execVshr (vd va vb : BitVec 5) (km : BitVec 3) (sv : BitVec 1) (s : State) : Host.Outcome State Fault Refusal :=
  .next (s.onCore (.vshr vd va vb km sv) fun s => s.varith .shr false vd va (s.vb va vb sv) (vbRegs vb sv) km)
def execVabs (vd va : BitVec 5) (km : BitVec 3) (s : State) : Host.Outcome State Fault Refusal :=
  .next (s.onCore (.vabs vd va km) fun s => s.varith .abs true vd va (.vec VReg.zero) [] km)
def execVneg (vd va : BitVec 5) (km : BitVec 3) (s : State) : Host.Outcome State Fault Refusal :=
  .next (s.onCore (.vneg vd va km) fun s => s.varith .neg true vd va (.vec VReg.zero) [] km)
def execVrcp (vd va : BitVec 5) (km : BitVec 3) (s : State) : Host.Outcome State Fault Refusal :=
  .next (s.onCore (.vrcp vd va km) fun s => s.varith .rcp true vd va (.vec VReg.zero) [] km)
def execVrsq (vd va : BitVec 5) (km : BitVec 3) (s : State) : Host.Outcome State Fault Refusal :=
  .next (s.onCore (.vrsq vd va km) fun s => s.varith .rsq true vd va (.vec VReg.zero) [] km)
def execVexp2 (vd va : BitVec 5) (km : BitVec 3) (s : State) : Host.Outcome State Fault Refusal :=
  .next (s.onCore (.vexp2 vd va km) fun s => s.varith .exp2 true vd va (.vec VReg.zero) [] km)
def execVlog2 (vd va : BitVec 5) (km : BitVec 3) (s : State) : Host.Outcome State Fault Refusal :=
  .next (s.onCore (.vlog2 vd va km) fun s => s.varith .log2 true vd va (.vec VReg.zero) [] km)

/-! ## Compares (R154) -/

def compareInts (r : Rel) (x y : Int) : Bool :=
  match r with
  | .eq => decide (x = y)
  | .ne => decide (x ≠ y)
  | .lt => decide (x < y)
  | .le => decide (x ≤ y)

def compareElem (r : Rel) (t tx : Tag) (x : Nat) (ty : Tag) (y : Nat) : Bool × Flags :=
  match t.fmt with
  | some _ => FVal.compare r (floatElem tx x) (floatElem ty y)
  | none => (compareInts r (intElem tx x) (intElem ty y), 0)

def setBit1024 (m : BitVec 1024) (e : Nat) (b : Bool) : BitVec 1024 := setField m e 1 (if b then 1 else 0)

/-- A compare sets the mask bits of the active elements below VL; the others are unchanged. -/
def State.vcompare (s : State) (r : Rel) (kd : BitVec 3) (va : BitVec 5) (y : VSrc) (km : BitVec 3) : State :=
  let c := s.me
  let x := VSrc.vec (c.v va)
  let scalarBad := match y with
    | .scalar t _ => decide (t = .untagged)
    | .vec _ => false
  match resultType [x.tag, y.tag] with
  | none => s.vIllegal
  | some t =>
    let W := widest [t, x.tag, y.tag]
    if scalarBad || decide (t = .lns8) || decide (c.csr.vl * W > 1024) then s.vIllegal
    else
      let r := (List.range c.csr.vl).foldl (fun acc e =>
        if bitOf (c.k km) e && c.runs W e then
          let q := compareElem r t x.tag (x.raw e) y.tag (y.raw e)
          (setBit1024 acc.1 e q.1, acc.2 ||| q.2)
        else acc) (c.k kd, (0 : Flags))
      (s.upd (fun c => (c.setK kd r.1).orV r.2)).vdone ⟨false, false, false, .arith, W, c.csr.vl, c.k km, 0, 0, .elems⟩

def execVceq (kd : BitVec 3) (va vb : BitVec 5) (km : BitVec 3) (sv : BitVec 1) (s : State) : Host.Outcome State Fault Refusal :=
  .next (s.onCore (.vceq kd va vb km sv) fun s => s.vcompare .eq kd va (s.vb va vb sv) km)
def execVcne (kd : BitVec 3) (va vb : BitVec 5) (km : BitVec 3) (sv : BitVec 1) (s : State) : Host.Outcome State Fault Refusal :=
  .next (s.onCore (.vcne kd va vb km sv) fun s => s.vcompare .ne kd va (s.vb va vb sv) km)
def execVclt (kd : BitVec 3) (va vb : BitVec 5) (km : BitVec 3) (sv : BitVec 1) (s : State) : Host.Outcome State Fault Refusal :=
  .next (s.onCore (.vclt kd va vb km sv) fun s => s.vcompare .lt kd va (s.vb va vb sv) km)
def execVcle (kd : BitVec 3) (va vb : BitVec 5) (km : BitVec 3) (sv : BitVec 1) (s : State) : Host.Outcome State Fault Refusal :=
  .next (s.onCore (.vcle kd va vb km sv) fun s => s.vcompare .le kd va (s.vb va vb sv) km)

/-! ## Cross-cluster results -/

/-- Older vector instructions are complete before a cross-cluster instruction starts (R141). -/
def State.afterVectors (s : State) (f : State → State) : State := if s.me.vecs.isEmpty then f s else s.hold .poll

/-- A whole new register value written at once, with tag and mark of R138 (R141). -/
def State.vwhole (s : State) (vd : BitVec 5) (v : VReg) (fl : Flags) (W : Nat) (km : BitVec 1024) : State :=
  (s.upd (fun c => (c.setV vd v).orV fl)).vdone ⟨false, false, false, .cross, W, s.me.csr.vl, km, 0, 0, .elems⟩

/-- Elements `e < vl` chosen by `sel` set to `f e`, from a starting value. -/
def fillElems (W vl : Nat) (sel : Nat → Bool) (f : Nat → Nat) (v : VReg) : VReg :=
  (List.range vl).foldl (fun v e => if sel e then v.setElem W e (f e) else v) v

/-- VSLIDE1 (R155). -/
def execVslide1 (vd b : BitVec 5) (km : BitVec 3) (s : State) : Host.Outcome State Fault Refusal :=
  .next (s.onCore (.vslide1 vd b km) fun s => s.afterVectors fun s =>
    let c := s.me
    let old := c.v vd
    let t := old.tag
    let vl := c.csr.vl
    if t = .untagged || decide (vl * t.width > 1024) then s.vIllegal
    else if vl = 0 then s.vdone ⟨false, false, false, .cross, t.width, vl, c.k km, 0, 0, .elems⟩
    else
      let v := fillElems t.width vl (fun e => bitOf (c.k km) e)
        (fun e => if e + 1 < vl then old.elem t.width (e + 1) else (s.x b).toNat) (old.grow (granules vl t.width))
      s.vwhole vd v 0 t.width (c.k km))

/-- The element count of a slide (R156): a scalar whole, or element 0 of an integer vector at its own width. -/
def State.slideCount (s : State) (vb : BitVec 5) (bs : BitVec 1) : Option (Nat × Nat) :=
  if bs = 1 then some ((s.x vb).toNat, 0)
  else
    let v := s.me.v vb
    if decide (v.tag.family = some .signed) || decide (v.tag.family = some .unsigned) then some (v.elem v.tag.width 0, v.tag.width)
    else none

/-- An instruction of major 0x1B that takes the tag of va: `sel` and `f` say which elements get which value; `W2` is the
width of a further source. -/
def State.vpermute (s : State) (vd va : BitVec 5) (srcs : List (BitVec 5)) (W2 : Nat) (sel : Nat → Bool) (f : VReg → Nat → Nat)
    (km : BitVec 1024) : State :=
  let c := s.me
  let x := c.v va
  let vl := c.csr.vl
  let W := max x.tag.width W2
  if x.tag = .untagged || !widthsOk vl W x.tag (asSource vd (c.v vd).tag srcs) then s.vIllegal
  else if vl = 0 then s.vdone ⟨false, false, false, .cross, W, vl, km, 0, 0, .elems⟩
  else s.vwhole vd (fillElems x.tag.width vl sel (f x) ((c.v vd).dest x.tag vl)) 0 W km

def execVslidedn (vd va vb : BitVec 5) (km : BitVec 3) (sv : BitVec 1) (s : State) : Host.Outcome State Fault Refusal :=
  .next (s.onCore (.vslidedn vd va vb km sv) fun s => s.afterVectors fun s =>
    match s.slideCount vb sv with
    | none => s.vIllegal
    | some (n, W2) =>
      let vl := s.me.csr.vl
      s.vpermute vd va (va :: vbRegs vb sv) W2 (fun e => bitOf (s.me.k km) e)
        (fun x e => if e + n < vl then x.elem x.tag.width (e + n) else 0) (s.me.k km))

def execVslideup (vd va vb : BitVec 5) (km : BitVec 3) (sv : BitVec 1) (s : State) : Host.Outcome State Fault Refusal :=
  .next (s.onCore (.vslideup vd va vb km sv) fun s => s.afterVectors fun s =>
    match s.slideCount vb sv with
    | none => s.vIllegal
    | some (n, W2) =>
      s.vpermute vd va (va :: vbRegs vb sv) W2 (fun e => bitOf (s.me.k km) e && decide (n ≤ e))
        (fun x e => x.elem x.tag.width (e - n)) (s.me.k km))

def execVperm (vd va vb : BitVec 5) (km : BitVec 3) (s : State) : Host.Outcome State Fault Refusal :=
  .next (s.onCore (.vperm vd va vb km) fun s => s.afterVectors fun s =>
    let ix := s.me.v vb
    let vl := s.me.csr.vl
    if !(decide (ix.tag.family = some .signed) || decide (ix.tag.family = some .unsigned)) then s.vIllegal
    else s.vpermute vd va [va, vb] ix.tag.width (fun e => bitOf (s.me.k km) e)
      (fun x e => if ix.elem ix.tag.width e < vl then x.elem x.tag.width (ix.elem ix.tag.width e) else 0) (s.me.k km))

/-- The elements below `vl` that a mask selects, ascending. -/
def activeElems (km : BitVec 1024) (vl : Nat) : List Nat := (List.range vl).filter (fun e => bitOf km e)

def execVcmpr (vd va : BitVec 5) (km : BitVec 3) (s : State) : Host.Outcome State Fault Refusal :=
  .next (s.onCore (.vcmpr vd va km) fun s => s.afterVectors fun s =>
    let act := activeElems (s.me.k km) s.me.csr.vl
    s.vpermute vd va [va] 0 (fun e => decide (e < act.length)) (fun x e => x.elem x.tag.width (act[e]?.getD 0)) (s.me.k km))

def execVexpd (vd va : BitVec 5) (km : BitVec 3) (s : State) : Host.Outcome State Fault Refusal :=
  .next (s.onCore (.vexpd vd va km) fun s => s.afterVectors fun s =>
    s.vpermute vd va [va] 0 (fun e => bitOf (s.me.k km) e) (fun x e => x.elem x.tag.width (onesBelow (s.me.k km) e)) (s.me.k km))

/-- VSEL: va where the mask is set, vb elsewhere; an untagged one reads zero (R156). -/
def execVsel (vd va vb : BitVec 5) (km : BitVec 3) (s : State) : Host.Outcome State Fault Refusal :=
  .next (s.onCore (.vsel vd va vb km) fun s =>
    let c := s.me
    let x := c.v va
    let y := c.v vb
    let t := if x.tag = .untagged then y.tag else x.tag
    if t = .untagged || (decide (x.tag ≠ .untagged) && decide (y.tag ≠ .untagged) && decide (x.tag ≠ y.tag)) ||
        !widthsOk c.csr.vl t.width t (asSource vd (c.v vd).tag [va, vb]) then s.vIllegal
    else s.vwrite vd t t.width (BitVec.allOnes 1024) .arith
      (fun e => (if bitOf (c.k km) e then (VSrc.vec x).raw e else (VSrc.vec y).raw e, 0)))

/-! ## Reductions and scans (R157) -/

/-- The sum of some elements, at the tag's rules (R157). -/
def sumElems (rm : Rounding) (v : VReg) (es : List Nat) : Nat × Flags :=
  match v.tag.fmt with
  | some f => f.sum rm (es.map (fun e => f.read (v.elem v.tag.width e)))
  | none => (wrapInt (8 * v.tag.width) (es.foldl (fun a e => a + intElem v.tag (v.elem v.tag.width e)) 0), 0)

/-- The largest or smallest of some elements (R73, R157); none for no element. -/
def extremeElem (isMax : Bool) (v : VReg) (es : List Nat) : Option (Nat × Flags) :=
  match es with
  | [] => none
  | e0 :: rest =>
    let start : Nat × Flags := match v.tag.fmt with
      | some f => if rest.isEmpty then f.minMax isMax (f.read (v.elem v.tag.width e0)) (f.read (v.elem v.tag.width e0)) else (v.elem v.tag.width e0, 0)
      | none => (v.elem v.tag.width e0, 0)
    some (rest.foldl (fun acc e =>
      let y := v.elem v.tag.width e
      match v.tag.fmt with
      | some f =>
        let r := f.minMax isMax (f.read acc.1) (f.read y)
        (r.1, acc.2 ||| r.2)
      | none =>
        let a := intElem v.tag acc.1
        let b := intElem v.tag y
        (if isMax then (if a < b then y else acc.1) else (if b < a then y else acc.1), acc.2)) start)

def reducible? (t : Tag) : Bool :=
  decide (t.family = some .signed) || decide (t.family = some .unsigned) || decide (t.family = some .float)

/-- A reduction writes element 0 only; its mark becomes at least 1. -/
def State.vreduce (s : State) (vd va : BitVec 5) (km : BitVec 3) (f : VReg → List Nat → Option (Nat × Flags)) : State :=
  let c := s.me
  let x := c.v va
  let vl := c.csr.vl
  let note : VNote := ⟨false, false, false, .cross, x.tag.width, vl, c.k km, 0, 0, .elems⟩
  if !reducible? x.tag || decide (vl * x.tag.width > 1024) then s.vIllegal
  else if vl = 0 then s.vdone note
  else match f x (activeElems (c.k km) vl) with
    | none => s.vdone note
    | some (r, fl) => s.vwhole vd ({ ((c.v vd).grow 1) with tag := x.tag }.setElem x.tag.width 0 r) fl x.tag.width (c.k km)

def execVrsum (vd va : BitVec 5) (km : BitVec 3) (s : State) : Host.Outcome State Fault Refusal :=
  .next (s.onCore (.vrsum vd va km) fun s => s.afterVectors fun s =>
    s.vreduce vd va km (fun v es => some (sumElems s.frm v es)))
def execVrmax (vd va : BitVec 5) (km : BitVec 3) (s : State) : Host.Outcome State Fault Refusal :=
  .next (s.onCore (.vrmax vd va km) fun s => s.afterVectors fun s => s.vreduce vd va km (extremeElem true))
def execVrmin (vd va : BitVec 5) (km : BitVec 3) (s : State) : Host.Outcome State Fault Refusal :=
  .next (s.onCore (.vrmin vd va km) fun s => s.afterVectors fun s => s.vreduce vd va km (extremeElem false))

/-- A scan: each active element gets the sum of the active ones up to it, or below it, rounded once from its own prefix. -/
def State.vscan (s : State) (vd va : BitVec 5) (km : BitVec 3) (inclusive : Bool) : State :=
  let c := s.me
  let x := c.v va
  let vl := c.csr.vl
  if !reducible? x.tag || decide (vl * x.tag.width > 1024) then s.vIllegal
  else if vl = 0 then s.vdone ⟨false, false, false, .cross, x.tag.width, vl, c.k km, 0, 0, .elems⟩
  else
    let act := activeElems (c.k km) vl
    let r := act.foldl (fun acc e =>
      let q := sumElems s.frm x (act.filter (fun j => if inclusive then decide (j ≤ e) else decide (j < e)))
      (acc.1.setElem x.tag.width e q.1, acc.2 ||| q.2)) ((c.v vd).dest x.tag vl, (0 : Flags))
    s.vwhole vd r.1 r.2 x.tag.width (c.k km)

def execVscan (vd va : BitVec 5) (km : BitVec 3) (s : State) : Host.Outcome State Fault Refusal :=
  .next (s.onCore (.vscan vd va km) fun s => s.afterVectors fun s => s.vscan vd va km true)
def execVscanx (vd va : BitVec 5) (km : BitVec 3) (s : State) : Host.Outcome State Fault Refusal :=
  .next (s.onCore (.vscanx vd va km) fun s => s.afterVectors fun s => s.vscan vd va km false)

/-! ## Conversion (R158) -/

def execVcvt (vd va : BitVec 5) (km : BitVec 3) (tag : BitVec 4) (s : State) : Host.Outcome State Fault Refusal :=
  .next (s.onCore (.vcvt vd va km tag) fun s =>
    let c := s.me
    let x := c.v va
    match Tag.ofCode tag.toNat with
    | none => s.illegal (.vcvt vd va km tag)
    | some t =>
      let W := max x.tag.width t.width
      if x.tag = .untagged || !widthsOk c.csr.vl W t (asSource vd (c.v vd).tag [va]) then s.vIllegal
      else s.vwrite vd t W (c.k km) .arith (fun e => convertElem s.frm x.tag t 0 0 0 (x.elem x.tag.width e)))

/-! ## Moves (R159) -/

def execVsplat (vd tag b : BitVec 5) (km : BitVec 3) (s : State) : Host.Outcome State Fault Refusal :=
  .next (s.onCore (.vsplat vd tag b km) fun s =>
    match Tag.ofCode tag.toNat with
    | none => s.illegal (.vsplat vd tag b km)
    | some t =>
      if !widthsOk s.me.csr.vl t.width t none then s.vIllegal
      else s.vwrite vd t t.width (s.me.k km) .arith (fun _ => ((s.x b).toNat % 2 ^ (8 * t.width), 0)))

/-- VINS: element i of vd alone; VL is not used. It runs in the cluster that owns the element. -/
def execVins (vd a b : BitVec 5) (s : State) : Host.Outcome State Fault Refusal :=
  .next (s.onCore (.vins vd a b) fun s =>
    let v := s.me.v vd
    let W := v.tag.width
    let i := (s.x a).toNat
    if v.tag = .untagged || decide (i * W ≥ 1024) then s.vIllegal
    else
      let v' := if s.me.runs W i then (v.grow (((i + 1) * W + 63) / 64)).setElem W i (s.x b).toNat else v
      (s.upd (fun c => c.setV vd v')).vdone ⟨false, false, false, .arith, W, s.me.csr.vl, BitVec.allOnes 1024, 0, 0, .one i⟩)

/-- VEXT: an element to a scalar register, extended by its family, zero at or above the mark. -/
def execVext (d va b : BitVec 5) (s : State) : Host.Outcome State Fault Refusal :=
  .next (s.onCore (.vext d va b) fun s => s.afterVectors fun s =>
    let v := s.me.v va
    let W := v.tag.width
    let i := (s.x b).toNat
    if v.tag = .untagged || decide (i * W ≥ 1024) then s.vIllegal
    else
      let raw := v.elem W i
      let r : Word := if v.tag.family = some .signed then signExtend64 (8 * W) raw else BitVec.ofNat 64 raw
      (s.upd (fun c => c.setX d r)).vdone ⟨false, false, false, .cross, W, s.me.csr.vl, BitVec.allOnes 1024, 0, 0, .elems⟩)

def execVmv (vd va : BitVec 5) (km : BitVec 3) (s : State) : Host.Outcome State Fault Refusal :=
  .next (s.onCore (.vmv vd va km) fun s =>
    let x := s.me.v va
    if x.tag = .untagged || !widthsOk s.me.csr.vl x.tag.width x.tag (asSource vd (s.me.v vd).tag [va]) then s.vIllegal
    else s.vwrite vd x.tag x.tag.width (s.me.k km) .arith (fun e => (x.elem x.tag.width e, 0)))

/-- VIOTA: for every e below VL, the set mask bits below it, modulo the width. -/
def execViota (vd : BitVec 5) (km : BitVec 3) (s : State) : Host.Outcome State Fault Refusal :=
  .next (s.onCore (.viota vd km) fun s => s.afterVectors fun s =>
    let v := s.me.v vd
    let t := if v.tag = .untagged then Tag.i32 else v.tag
    let vl := s.me.csr.vl
    if !(decide (t.family = some .signed) || decide (t.family = some .unsigned)) || decide (vl * t.width > 1024) then s.vIllegal
    else if vl = 0 then s.vdone ⟨false, false, false, .cross, t.width, vl, s.me.k km, 0, 0, .elems⟩
    else s.vwhole vd (fillElems t.width vl (fun _ => true) (fun e => onesBelow (s.me.k km) e) (v.dest t vl)) 0 t.width (s.me.k km))

/-! ## Mask operations (R160) -/

/-- What a mask operation leaves for its completion. -/
def VNote.ofMasks (vl : Nat) : VNote := ⟨false, false, false, .arith, 1, vl, BitVec.allOnes 1024, 0, 0, .quarters⟩

/-- The mask with the quarters that run taken from `new`: a quarter's index is its first bit until it has entered (R160). -/
def quarters (c : Ctx) (old new : BitVec 1024) : BitVec 1024 :=
  (List.range 4).foldl (fun m i =>
    if (VNote.ofMasks 0).runs c.rst c.upto (256 * i) (256 * i) then setField m (256 * i) 256 (field new (256 * i) 256) else m) old

/-- A mask operation on whole masks; k0 discards. -/
def State.kop (s : State) (kd : BitVec 3) (v : BitVec 1024) : State :=
  (s.upd (fun c => c.setK kd (quarters c (c.k kd) v))).vdone (VNote.ofMasks s.me.csr.vl)

def execKand (kd ka kb : BitVec 3) (s : State) : Host.Outcome State Fault Refusal :=
  .next (s.onCore (.kand kd ka kb) fun s => s.kop kd (s.me.k ka &&& s.me.k kb))
def execKor (kd ka kb : BitVec 3) (s : State) : Host.Outcome State Fault Refusal :=
  .next (s.onCore (.kor kd ka kb) fun s => s.kop kd (s.me.k ka ||| s.me.k kb))
def execKxor (kd ka kb : BitVec 3) (s : State) : Host.Outcome State Fault Refusal :=
  .next (s.onCore (.kxor kd ka kb) fun s => s.kop kd (s.me.k ka ^^^ s.me.k kb))
def execKnot (kd ka : BitVec 3) (s : State) : Host.Outcome State Fault Refusal :=
  .next (s.onCore (.knot kd ka) fun s => s.kop kd (~~~(s.me.k ka)))
def execKmv (kd ka : BitVec 3) (s : State) : Host.Outcome State Fault Refusal :=
  .next (s.onCore (.kmv kd ka) fun s => s.kop kd (s.me.k ka))

/-- The lowest set bit below `n` from bit `i` on, or the limit. -/
def lowestSet {w : Nat} (m : BitVec w) : Nat → Nat → Nat
  | 0, i => i
  | n + 1, i => if bitOf m i then i else lowestSet m n (i + 1)

def execKpop (d : BitVec 5) (ka : BitVec 3) (s : State) : Host.Outcome State Fault Refusal :=
  .next (s.onCore (.kpop d ka) fun s => s.afterVectors fun s =>
    (s.upd (fun c => c.setX d (BitVec.ofNat 64 (onesBelow (c.k ka) c.csr.vl)))).vdone
      ⟨false, false, false, .cross, 1, s.me.csr.vl, BitVec.allOnes 1024, 0, 0, .elems⟩)
def execKff (d : BitVec 5) (ka : BitVec 3) (s : State) : Host.Outcome State Fault Refusal :=
  .next (s.onCore (.kff d ka) fun s => s.afterVectors fun s =>
    (s.upd (fun c => c.setX d (BitVec.ofNat 64 (lowestSet (c.k ka) c.csr.vl 0)))).vdone
      ⟨false, false, false, .cross, 1, s.me.csr.vl, BitVec.allOnes 1024, 0, 0, .elems⟩)

end Sys2Proof.Machine
end

