-- ==== Sys2Proof/Machine/Messages.lean ====
section
/-! DEFINITION. The message instructions of majors 0x2A and 0x2B, and the events of the fabric: ingress engines, combining
stores, acknowledgements, credit, binding (10_messages.md R252-R282, R421). -/

namespace Sys2Proof.Machine

/-! ## Local bytes (R270) -/

/-- The parts of `[va, va + n)` that lie in one sector each. -/
def piecesFrom : Nat → Word → Nat → List (Word × Nat)
  | 0, _, _ => []
  | f + 1, va, n =>
    if n = 0 then [] else
      let k := min n (64 - va.toNat % 64)
      (va, k) :: piecesFrom f (va + BitVec.ofNat 64 k) (n - k)

def pieces (va : Word) (n : Nat) : List (Word × Nat) := piecesFrom (n / 64 + 2) va n

/-- Checking every local byte: the physical pieces, or the trap of the lowest byte that fails (R109, R113). -/
def State.mapPieces (s : State) (k : AccKind) : List (Word × Nat) → Got (List (Nat × Nat))
  | [] => .ok [] s
  | (va, n) :: ps => (s.checkMine k false va 1).bind fun m s1 => (State.mapPieces s1 k ps).bind fun r s2 => .ok ((m.pa, n) :: r) s2

/-- Each piece is one access (R381; log 16). -/
def State.readPieces (s : State) : List (Nat × Nat) → Got (List Byte)
  | [] => .ok [] s
  | (pa, n) :: ps => (s.readPa pa n).bind fun bs s1 => (State.readPieces (s1.countQspm pa) ps).bind fun r s2 => .ok (bs ++ r) s2

/-! ## What the instructions share -/

/-- Doing something as another context. -/
def State.actAs (s : State) (u : CtxId) (f : State → State) : State := { f { s with cur := u } with cur := s.cur }

/-- Level check of IMM, hold while SEALING, irrevocability and the pending message fault (R269, R270, R281). -/
def State.message (s : State) (i : Instr) (im : BitVec 1) (f : State → State) : State :=
  if im = 1 && !s.me.sup then s.privileged i else s.sealGate fun s => s.irrevocably fun s => s.raiseMsgFault f

/-- Checks 1 and 2 of R270. -/
def State.boundSlot (s : State) (ds : BitVec 4) (fn off : Nat) (f : DSlot → State → State) : State :=
  let x := s.me.slot ds
  if x.rst then s.raise causePeerReset (msgTval ds fn false 0 off) else if !x.bnd then s.illegalOperand else f x s

/-- Everything earlier of a context is performed, and acknowledged for targets within scope `sc`; what the egress hold keeps counts
as acknowledged with `held` (R279, R294, R325; log 135). -/
def State.releasedBut (s : State) (u : CtxId) (sc : Nat) (held : Bool) : Bool :=
  (s.ctx u).accs.isEmpty && (s.ctx u).vecs.isEmpty &&
  (s.mine u).all (fun r => (held && r.inHold) || (decide (sc < 5) && decide (sc < s.scopeBetween (s.endpoint u.die u.unit.val) r.target))) &&
  (held || (s.heldStores u).isEmpty)

def State.released (s : State) (u : CtxId) (sc : Nat) : Bool := s.releasedBut u sc true

/-- Whether a `.rel` request may go: one that the hold keeps stands there behind those that the hold keeps already. -/
def State.relReady (s : State) (rel im : BitVec 1) (x : DSlot) : Bool :=
  decide (rel = 0) || s.releasedBut s.cur (s.scopeBetween (s.endpoint s.cur.die s.cur.unit.val) x.ep) (x.out && decide (im = 0))

def State.newReq (s : State) (ds : BitVec 4) (fn : Nat) (imm rel : Bool) (beats : Nat) (kind : ReqKind) : Req :=
  let x := s.me.slot ds
  { src := some (.here s.cur)
    srcEp := s.endpoint s.cur.die s.cur.unit.val
    ds := ds
    fn := BitVec.ofNat 3 fn
    target := x.ep
    win := x.win
    inc := x.inc
    rin := s.me.rin
    dom := s.me.dom
    part := some (s.partOfCtx s.cur)
    out := x.out
    imm := imm
    rel := rel
    beats := beats
    credited := true
    tries := 0
    kind := kind
    stage := .flying
    via := []
    ce := false }

/-- The refusal that a demand for function `fn` has brought back. -/
def DSlot.refusalFor (x : DSlot) (fn : Nat) : Option (BitVec 4) :=
  match x.refusal with
  | none => none
  | some (g, r) => if g = fn then some r else none

/-- A request that its allowance does not cover sends one demand, and another only where credit is short again (R264, R265); `blocked`
says that it has been waiting (log 136). -/
def DSlot.sendDemand (x : DSlot) (blocked : Bool) (beats fn : Nat) : DSlot :=
  if x.demand.isNone && (!blocked || decide (x.wc < beats)) then { x with demand := some ⟨beats, fn, none, none, false⟩ } else x

def DSlot.debit (x : DSlot) (beats time : Nat) : DSlot :=
  { x with wc := x.wc - beats, infl := x.infl + beats, since := time, refusal := none }

/-- A slot's allowance covers `beats`. -/
def State.covers (s : State) (beats : Nat) (x : DSlot) (imm : Bool) : Bool := decide (beats ≤ s.allowance s.cur.die x imm)

/-- Debiting the allowance of every slot of a request that they all cover; else sending the demands that are short and
waiting; or, a demand having been refused, completing at once by `done` with a pending REMOTE-NACK (R264, R265). -/
def State.takeAllowance (s : State) (fn : Nat) (imm : Bool) (off : Nat) (ns : List (BitVec 4 × Nat)) (done f : State → State) : State :=
  let c := s.me
  match ns.findSome? (fun n => ((c.slot n.1).refusalFor fn).map (fun r => (n.1, r))) with
  | some (ds, r) =>
    done (s.upd (fun c => (c.updSlot ds (fun x => { x with refusal := none })).addMsgFault causeRemoteNack (msgTval ds fn false r off)))
  | none =>
    if ns.all (fun n => s.covers n.2 (c.slot n.1) imm) then
      let beats := (ns.map (·.2)).sum
      f ((s.upd (fun c => (ns.foldl (fun c n => c.updSlot n.1 (fun x => x.debit n.2 s.time)) c).count 9 beats)).debit s.cur (8 * beats))
    else
      (s.upd (fun c => { (ns.foldl (fun c n => c.updSlot n.1 (fun x => if s.covers n.2 x imm then x else x.sendDemand (decide (c.wait = some .allowance)) n.2 fn)) c) with
        needs := ns.map (fun n => (n.1, n.2, imm)) })).hold .allowance

/-- Whether a request leaves by way of the egress hold (R280). -/
def Req.held (r : Req) : Bool := r.out && !r.imm

def beatsOf (n : Nat) : Nat := (n + 63) / 64

/-! ## SEND, SENDT, PUT, GET, RAMO -/

/-- Length, alignment and local bytes of SEND and SENDT (R272). -/
def State.sendSource (s : State) (a b : BitVec 5) (f : List (Nat × Nat) → State → State) : State :=
  let n := (s.x b).toNat
  if n < 8 || decide (4088 < n) then s.illegalOperand
  else if (s.x a).toNat % 8 ≠ 0 then s.raise causeMisaligned (s.x a)
  else if n % 8 ≠ 0 then s.illegalOperand
  else (s.mapPieces .load (pieces (s.x a) n)).finish f

def execSendMsg (ds : BitVec 4) (a b : BitVec 5) (im rel : BitVec 1) (s : State) : Host.Outcome State Fault Refusal :=
  .next (s.message (.sendMsg ds a b im rel) im fun s => s.boundSlot ds 1 0 fun x s => s.sendSource a b fun ps s =>
    if s.storeCount s.cur ≥ classLimit || !s.relReady rel im x then s.hold .poll
    else
      let beats := beatsOf ((s.x b).toNat + 8)
      s.takeAllowance 1 (decide (im = 1)) 0 [(ds, beats)] State.advance fun s =>
        (s.readPieces ps).finish fun data s =>
          let r := s.newReq ds 1 (decide (im = 1)) (decide (rel = 1)) beats (.send data)
          (s.sendReq r r.held).advance)

/-- SLOT-VIOLATION (R268). -/
def State.slotViolation (s : State) (reason : Nat) : State :=
  s.raise causeSlotViolation (Machine.place 0 62 s.time ||| Machine.place 62 2 reason)

/-- The launch of a SENDT in its cycle (R268). -/
def State.launch (s : State) (r : Req) : State :=
  if s.allowance s.cur.die (s.me.slot r.ds) false < r.beats then s.slotViolation 2
  else (((s.upd (fun c => (c.updSlot r.ds (fun x => x.debit r.beats s.time)).count 9 r.beats)).debit s.cur (8 * r.beats)).sendReq r r.held).advance

def Req.timedFor (r : Req) (u : CtxId) : Bool := decide (r.src = some (Holder.here u)) && !r.issued

def execSendt (ds : BitVec 4) (a b : BitVec 5) (rel : BitVec 1) (s : State) : Host.Outcome State Fault Refusal :=
  .next (
    if s.net.any (fun r => r.timedFor s.cur) then s.hold .poll
    else s.message (.sendt ds a b rel) 0 fun s => s.boundSlot ds 2 0 fun x s => s.sendSource a b fun ps s =>
      let beats := beatsOf ((s.x b).toNat + 8)
      let phase := field s.me.csr.slotcfg 60 4
      let n := s.time / 16 % 64
      if s.storeCount s.cur ≥ classLimit || !s.relReady rel 0 x then s.hold .poll
      else if beats > 16 - phase then s.illegalOperand
      else if 60 ≤ n || !bitOf s.me.csr.slotcfg n then s.slotViolation 0
      else if s.time % 16 > phase then s.slotViolation 1
      else (s.readPieces ps).finish fun data s =>
        let r := s.newReq ds 2 false (decide (rel = 1)) beats (.send data)
        if s.time % 16 = phase then s.launch r
        else ({ s with net := s.net ++ [{ r with stage := .timed (s.time - s.time % 16 + phase) }] }).hold .poll)

/-- PUT: of several limits that fail, the length comes first, then the offset's alignment, the address's, and the multiple of
8 (log 92); GET alike. -/
def execPutMsg (ds : BitVec 4) (a b c : BitVec 5) (im rel : BitVec 1) (s : State) : Host.Outcome State Fault Refusal :=
  .next (s.message (.putMsg ds a b c im rel) im fun s => s.boundSlot ds 3 (s.x a).toNat fun x s =>
    let n := (s.x c).toNat
    let off := (s.x a).toNat
    if 16384 < n then s.illegalOperand
    else if off % 8 ≠ 0 then s.raise causeMisaligned (s.x a)
    else if (s.x b).toNat % 8 ≠ 0 then s.raise causeMisaligned (s.x b)
    else if n % 8 ≠ 0 then s.illegalOperand
    else (s.mapPieces .load (pieces (s.x b) n)).finish fun ps s =>
      if n = 0 then s.advance
      else if s.storeCount s.cur ≥ classLimit || !s.relReady rel im x then s.hold .poll
      else s.takeAllowance 3 (decide (im = 1)) off [(ds, beatsOf n)] State.advance fun s =>
        (s.readPieces ps).finish fun data s =>
          let r := s.newReq ds 3 (decide (im = 1)) (decide (rel = 1)) (beatsOf n) (.put off data)
          (s.sendReq r r.held).advance)

def execGetMsg (ds : BitVec 4) (a b c : BitVec 5) (im : BitVec 1) (s : State) : Host.Outcome State Fault Refusal :=
  .next (s.message (.getMsg ds a b c im) im fun s => s.boundSlot ds 4 (s.x b).toNat fun _ s =>
    let n := (s.x c).toNat
    let off := (s.x b).toNat
    if 16384 < n then s.illegalOperand
    else if (s.x a).toNat % 8 ≠ 0 then s.raise causeMisaligned (s.x a)
    else if off % 8 ≠ 0 then s.raise causeMisaligned (s.x b)
    else if n % 8 ≠ 0 then s.illegalOperand
    else (s.mapPieces .store (pieces (s.x a) n)).finish fun ps s =>
      if n = 0 then s.advance
      else if s.loadCount s.cur ≥ classLimit then s.hold .poll
      else s.takeAllowance 4 (decide (im = 1)) off [(ds, beatsOf n)] State.advance fun s =>
        let r := { s.newReq ds 4 (decide (im = 1)) false (beatsOf n) (.get off n ps) with
          via := s.entriesFor (s.viewer s.cur) ((pieces (s.x a) n).map (·.1)) }
        (s.sendReq r r.held).advance)

/-- Size of a RAMO (R273). -/
def ramoSize (op : Nat) : Nat := if op = 3 then 4 else 8

def execRamo (ds : BitVec 4) (a b c : BitVec 5) (op : BitVec 2) (im rel : BitVec 1) (s : State) : Host.Outcome State Fault Refusal :=
  .next (s.message (.ramo ds a b c op im rel) im fun s => s.boundSlot ds 5 (s.x a).toNat fun x s =>
    let off := (s.x a).toNat
    if off % ramoSize op.toNat ≠ 0 then s.raise causeMisaligned (s.x a)
    else if s.loadCount s.cur ≥ classLimit || !s.relReady rel im x then s.hold .poll
    else s.takeAllowance 5 (decide (im = 1)) off [(ds, 1)] State.advance fun s =>
      let r := s.newReq ds 5 (decide (im = 1)) (decide (rel = 1)) 1 (.ramo op.toNat off (s.x b) (s.x c) s.me.csr.frm c)
      (s.sendReq r r.held).advance)

/-! ## VSCACC, VSCFL, BALW, DSBIND -/

def ownShift (c : Ctx) : Nat := field c.csr.owntbl 0 5
def ownFirst (c : Ctx) : Nat := field c.csr.owntbl 5 4
def ownCount (c : Ctx) : Nat := field c.csr.owntbl 9 5
def ownSlot (c : Ctx) (o : Nat) : BitVec 4 := BitVec.ofNat 4 (ownFirst c + o)

/-- Type code of a contribution: FP32, I32, N32 (R276). -/
def combType (t : Tag) : Option Nat := if t = .fp32 then some 0 else if t = .i32 then some 1 else if t = .n32 then some 2 else none

/-- An index that has no owner, or whose slot is unbound. -/
def Ctx.badIndex (c : Ctx) (i : Int) : Bool :=
  decide (i < 0) || decide (ownCount c ≤ i.toNat / 2 ^ ownShift c) || !(c.slot (ownSlot c (i.toNat / 2 ^ ownShift c))).bnd

/-- The pairs for owner `o`: offset, value, type. -/
def Ctx.pairsFor (c : Ctx) (va vb : VReg) (ty o : Nat) (es : List Nat) : List (Nat × BitVec 32 × Nat) :=
  es.filterMap (fun e =>
    let i := va.elem 4 e
    if i / 2 ^ ownShift c = o then some (4 * (i - o * 2 ^ ownShift c), BitVec.ofNat 32 (vb.elem 4 e), ty) else none)

/-- VSCACC (R275): its request to each owner counts once in the store class (log 90). -/
def execVscacc (a b : BitVec 5) (km : BitVec 3) (s : State) : Host.Outcome State Fault Refusal :=
  .next (s.onCore (.vscacc a b km) fun s => s.message (.vscacc a b km) 0 fun s => s.afterVectors fun s =>
    let c := s.me
    let va := c.v a
    let vb := c.v b
    let vl := c.csr.vl
    if ownCount c = 0 || decide (256 < vl) || !(decide (va.tag = .i32) || decide (va.tag = .n32)) then s.vIllegal
    else match combType vb.tag with
      | none => s.vIllegal
      | some ty =>
        let es := (List.range vl).filter (fun e => bitOf (c.k km) e)
        match es.find? (fun e => c.badIndex (intElem va.tag (va.elem 4 e))) with
        | some e => s.raiseEpx causeIllegalOperand (indexElem va e) c.rst
        | none =>
          let owners := (List.range (ownCount c)).filter (fun o => !(c.pairsFor va vb ty o es).isEmpty)
          let note : VNote := ⟨false, false, false, .cross, 4, vl, c.k km, 0, 0, .elems⟩
          if s.storeCount s.cur + owners.length > classLimit then s.hold .poll
          else s.takeAllowance 6 false 0 (owners.map (fun o => (ownSlot c o, beatsOf (8 * (c.pairsFor va vb ty o es).length))))
            (fun s => s.vdone note) fun s =>
              (owners.foldl (fun t o =>
                let ps := c.pairsFor va vb ty o es
                let r := t.newReq (ownSlot c o) 6 false false (beatsOf (8 * ps.length)) (.pairs ps)
                t.sendReq r r.held) s).vdone note)

def Req.isPairs (r : Req) : Bool :=
  match r.kind with
  | .pairs _ => true
  | .put _ _ => false
  | .send _ => false
  | .get _ _ _ => false
  | .ramo _ _ _ _ _ _ => false
  | .flush => false
  | .start _ _ => false

/-- VSCFL (R277): its beat to each slot counts once in the store class (log 90). -/
def execVscfl (s : State) : Host.Outcome State Fault Refusal :=
  .next (s.message .vscfl 0 fun s =>
    let c := s.me
    let slots := (List.range (ownCount c)).map (ownSlot c)
    if slots.isEmpty || slots.any (fun ds => !(c.slot ds).bnd) then s.illegalOperand
    else if (s.mine s.cur).any Req.isPairs || decide (s.storeCount s.cur + slots.length > classLimit) then s.hold .poll
    else s.takeAllowance 7 false 0 (slots.map (fun ds => (ds, 1))) State.advance fun s =>
      (slots.foldl (fun t ds =>
        let r := t.newReq ds 7 false false 1 .flush
        t.sendReq r r.held) s).advance)

/-- BALW (R266): in a basted chunk it raises no fault, for the thread's pending message fault is in the oldest chunk's context
(log 91). -/
def execBalw (ds : BitVec 4) (a : BitVec 5) (off : BitVec 17) (s : State) : Host.Outcome State Fault Refusal :=
  .next (s.raiseMsgFault fun s =>
    if (s.x a).toNat ≤ s.allowance s.cur.die ((s.liveThread s.cur).slot ds) false then s.transfer (target s.me.pc off) id else s.advance)

def execDsbind (ds : BitVec 4) (a b : BitVec 5) (s : State) : Host.Outcome State Fault Refusal :=
  .next (
    if s.me.binding.isSome then s.hold .bind
    else s.message (.dsbind ds a b) 0 fun s =>
      if 3 < (s.x b).toNat || decide (field (s.x a) 32 32 ≠ 0) then s.illegalOperand
      else if s.outst s.cur ds ≠ 0 then s.hold .poll
      else
        ((s.returnSlot (s.me.slot ds)).upd (fun c =>
          { (c.updSlot ds (fun x => { x with bnd := false, rst := false, wc := 0, demand := none, refusal := none })) with
            binding := some ⟨ds, (s.x a).setWidth 32, (s.x b).setWidth 2⟩ })).hold .bind)

/-- What a target of the module answers to a bind; `r` is the answer of a target outside it. The control node is in no domain (R271,
R421). -/
def State.bindAnswer (s : State) (u : CtxId) (b : Binding) (r : BindReply) : BindReply × State :=
  let c := s.ctx u
  match s.unitOf b.ep with
  | none =>
    if s.isAgent b.ep then
      ({ refused := none
         inc := 0
         outDomain := true
         credit := 0 }, s)
    else if s.absent b.ep then
      ({ refused := some 6
         inc := 0
         outDomain := false
         credit := 0 }, s.countDrop (s.endpoint u.die u.unit.val))
    else (if b.ep = controlNode then { r with outDomain := true } else r, s)
  | some (d, unit) =>
    let g := s.initialGrant b.ep b.win (s.endpoint u.die u.unit.val) c.dom
    ({ refused := none
       inc := s.incOf d unit
       outDomain := !s.windowInDomain d unit
       credit := g.1 }, g.2)

/-- The record of a flow that ends without acknowledgement (R255, R388). -/
def State.exhausted (s : State) (u : CtxId) (rin : BitVec 32) (target : BitVec 32) (ds : BitVec 4) : State :=
  s.writeError {
    path := s.pathOf u
    rin := rin
    cls := 5
    action := 3
    synd := 0
    info1 := Machine.place 0 32 target.toNat ||| Machine.place 32 4 ds.toNat
    info2 := 0 }

/-- BIND_REPLY: DSBIND completes, or traps with the slot unbound (R271); where the BIND packet was never acknowledged, with a
record (R255). -/
def execBindReply (u : CtxId) (r : BindReply) (s : State) : Host.Outcome State Fault Refusal :=
  .next (match (s.ctx u).binding with
    | none => s
    | some b =>
      let a := s.bindAnswer u b r
      (a.2.updCtx u (fun c => { c with binding := none })).actAs u fun s =>
        match a.1.refused with
        | some e =>
          (if e = 1 then s.exhausted u s.me.rin b.ep b.ds else s).raise (if e = 1 then causePeerReset else causeRemoteNack) (msgTval b.ds 0 false e 0)
        | none =>
          (s.upd (fun c => c.updSlot b.ds (fun x => { x with
            ep := b.ep
            win := b.win
            bnd := true
            out := c.dom && a.1.outDomain
            rst := false
            inc := a.1.inc
            wc := a.1.credit
            infl := 0
            pmax := 256
            since := s.time
            init := a.1.credit }))).advance)

/-- SENDT_LAUNCH (R268): in the cycle of its slot at which TIME[3:0] is PHASE. -/
def execSendtLaunch (u : CtxId) (s : State) : Host.Outcome State Fault Refusal :=
  .next (match s.net.find? (fun r => r.timedFor u) with
    | none => s
    | some r =>
      match r.stage with
      | .timed due =>
        if s.time ≠ due then s
        else ({ s with net := s.net.filter (fun r => !r.timedFor u) }).actAs u fun s => s.launch r
      | .held _ => s
      | .flying => s
      | .performed => s
      | .answered _ _ _ => s
      | .refused _ => s
      | .stale => s)

/-! ## Arrival at a target (R256, R258) -/

/-- The beats of a source of the module return to the target's pool or ring (R264). -/
def State.beatsBack (s : State) (r : Req) : State := if r.credited then s.returnTo r.target r.win r.beats else s

/-- Refusing a request: only the window error counter sees it (R258). -/
def State.refuseReq (s : State) (n : Nat) (r : Req) (d : Fin 8) (unit : Nat) (reason : BitVec 4) : State :=
  let g := s.gate d unit
  (((s.setGate d unit { g with werr := g.werr + 1 }).beatsBack r).answerReq n r (.refused reason))

/-- A request that arrives, after checks 1 to 5; a stale packet is dropped by an event of its own. -/
def State.ingress (s : State) (n : Nat) (f : Req → Fin 8 → Nat → State) : State :=
  match s.net[n]? with
  | none => s
  | some r =>
    if r.stage ≠ .flying || s.spilled r || r.isStart then s
    else match s.unitOf r.target with
      | none =>
        if s.isAgent r.target then s.answerReq n r (.refused 1)
        else if s.absent r.target then (s.dropAbsent r).answerReq n r (.refused 6) else s
      | some (d, unit) =>
        if r.inc ≠ s.incOf d unit then s
        else match s.windowRefuses d unit r.win r.srcEp r.dom (some r.fn.toNat) with
          | some e => s.refuseReq n r d unit e
          | none => f r d unit

/-- The interval that a request's writes carry: the sender's, in the sender's own domain (R258, R315). -/
def State.ingressRin (s : State) (r : Req) (d : Fin 8) (unit : Nat) : BitVec 32 := if r.dom && s.windowInDomain d unit then r.rin else 0

/-- A write by an ingress engine, once the undo log takes it. -/
def State.ingressStore (s : State) (r : Req) (d : Fin 8) (unit pa : Nat) (bs : List Byte) : State :=
  (s.store none (s.ingressRin r d unit) pa bs).touchRange d.val pa bs.length true

/-- A write to an ISTORE window (R257, R300, R419). -/
def State.istorePut (s : State) (d : Fin 8) (quad : Nat) (tgt off : Nat) (bs : List Byte) : State :=
  let unit := if tgt = 4 then 128 + quad else 4 * quad + tgt
  let c := s.core d unit
  s.setCore d unit { c with
    istore := memWrite c.istore off bs
    bad := c.bad.filter (fun w => !(decide (off ≤ 4 * w) && decide (4 * w + 4 ≤ off + bs.length))) }

/-- INGRESS_PUT (R258). -/
def execIngressPut (n : Nat) (s : State) : Host.Outcome State Fault Refusal :=
  .next (s.ingress n fun r d unit =>
    match r.kind with
    | .put off data =>
      let w := (s.gate d unit).win r.win
      if off + data.length > winSize w then s.refuseReq n r d unit 2
      else if winIst w then ((s.istorePut d (quadOfUnit unit) (winTgt w) off data).beatsBack r).answerReq n r .performed
      else if s.mayLog (s.ingressRin r d unit) (winBase w + off) data.length then
        ((s.ingressStore r d unit (winBase w + off) data).beatsBack r).answerReq n r .performed
      else s.askLog (s.ingressRin r d unit) (winBase w + off) data.length
    | .send _ => s
    | .get _ _ _ => s
    | .ramo _ _ _ _ _ _ => s
    | .pairs _ => s
    | .flush => s
    | .start _ _ => s)

/-- A ring record (R259): descriptor, payload, padding. -/
def ringRecord (src : BitVec 32) (data : List Byte) : List Byte :=
  bytesOf 8 (Machine.place 0 13 data.length ||| Machine.place 32 32 src.toNat).toNat ++ data ++
    List.replicate (64 * beatsOf (data.length + 8) - (data.length + 8)) 0

/-- Where beat `i` of a record appended at `head` lies. -/
def beatPlace (w : Word) (head : Nat) (i : Nat) : Nat := winBase w + 64 + (head + 64 * i) % ringArea w

/-- Appending a record and writing HEAD (R259). -/
def State.appendRecord (s : State) (rin : BitVec 32) (d : Fin 8) (unit : Nat) (win : BitVec 2) (rec1 : List Byte) : State :=
  let g := s.gate d unit
  let w := g.win win
  let e := g.engine win
  let s1 := (List.range (rec1.length / 64)).foldl (fun t i =>
    (t.storeRaw none rin (beatPlace w e.head.toNat i) ((rec1.drop (64 * i)).take 64)).touchRegion d.val (beatPlace w e.head.toNat i) true) s
  let head := e.head + BitVec.ofNat 64 rec1.length
  let s2 := (s1.storeRaw none rin (winBase w) (bytesOf 8 head.toNat)).touchRegion d.val (winBase w) true
  s2.setGate d unit ((s2.gate d unit).setEngine win { e with head := head })

/-- INGRESS_SEND (R259, R260): a record for which the ring has no space is refused as beyond the window. -/
def execIngressSend (n : Nat) (s : State) : Host.Outcome State Fault Refusal :=
  .next (s.ingress n fun r d unit =>
    match r.kind with
    | .send data =>
      let w := (s.gate d unit).win r.win
      let e := (s.gate d unit).engine r.win
      let t := e.counted w
      let rec1 := ringRecord r.srcEp data
      let rin := s.ingressRin r d unit
      if badTail w e.head t || decide (ringArea w < e.head.toNat - t.toNat + rec1.length) then s.refuseReq n r d unit 2
      else if s.mayLogAll rin (appendSectors w e.head.toNat rec1.length) then
        ((s.appendRecord rin d unit r.win rec1).beatsBack r).answerReq n r .performed
      else s.askLogAll rin (appendSectors w e.head.toNat rec1.length)
    | .put _ _ => s
    | .get _ _ _ => s
    | .ramo _ _ _ _ _ _ => s
    | .pairs _ => s
    | .flush => s
    | .start _ _ => s)

/-- A swapped-out thread halts where its area stands: a restore finds it halted (R361, R372, R419). -/
def State.haltParked (s : State) (d : Fin 8) (e : Nat) : State :=
  match (s.die d).swap e with
  | none => s
  | some w =>
    let area := swapArea (s.die d).swbase.toNat e
    let s1 := s.putRuns area [(0, bytesOf 8 (setField (mem64 s.mem area) 4 1 1).toNat), (0x218, bytesOf 8 causeUncorrectable.toNat),
      (0x220, bytesOf 8 0), (0x228, bytesOf 8 w.ctx.pc.toNat)]
    (s1.updThread (.parked d e) (fun c => { c with status := .halted })).writeError
      ⟨s.pathOf w.home, w.ctx.rin, 3, 6, causeUncorrectable.setWidth 64, 0, w.ctx.pc⟩

/-- A read of poison through the ingress engine halts the context that asked (R419). -/
def State.poisonedSource (s : State) (n : Nat) (r : Req) : State :=
  let s1 := { s with net := removeAt s.net n }
  match r.src with
  | some (.here u) => s1.haltPoisoned u
  | some (.parked d e) => s1.haltParked d e
  | some (.saved _ _) => s1
  | some (.outside _) => s1
  | none => s1

/-- INGRESS_GET (R258, R272). -/
def execIngressGet (n : Nat) (s : State) : Host.Outcome State Fault Refusal :=
  .next (s.ingress n fun r d unit =>
    match r.kind with
    | .get off len _ =>
      let w := (s.gate d unit).win r.win
      if off + len > winSize w then s.refuseReq n r d unit 2
      else if s.isPoisoned (winBase w + off) len then (s.beatsBack r).poisonedSource n r
      else ((s.touchRange d.val (winBase w + off) len false).beatsBack r).answerReq n r (.answered (memRead s.mem (winBase w + off) len) 0 false)
    | .put _ _ => s
    | .send _ => s
    | .ramo _ _ _ _ _ _ => s
    | .pairs _ => s
    | .flush => s
    | .start _ _ => s)

/-- What a RAMO writes: nothing for a comparison that fails, and its flags (R273). -/
def ramoWrites (op : Nat) (x cmp : Word) (rm : BitVec 3) (old : Nat) : Option Nat × Flags :=
  if op = 0 then (some ((old + x.toNat) % 2 ^ 64), 0)
  else if op = 1 then (some x.toNat, 0)
  else if op = 2 then (if old = cmp.toNat then some x.toNat else none, 0)
  else
    let r := fp32.add (Rounding.ofFrm rm) (fp32.read old) (fp32.read (x.toNat % 2 ^ 32))
    (some r.1, r.2)

/-- INGRESS_RAMO (R273). -/
def execIngressRamo (n : Nat) (s : State) : Host.Outcome State Fault Refusal :=
  .next (s.ingress n fun r d unit =>
    match r.kind with
    | .ramo op off x cmp rm _ =>
      let w := (s.gate d unit).win r.win
      let size := ramoSize op
      let pa := winBase w + off
      if off + size > winSize w then s.refuseReq n r d unit 2
      else if s.isPoisoned pa size then (s.beatsBack r).poisonedSource n r
      else
        let bs := memRead s.mem pa size
        let res := ramoWrites op x cmp rm (ofBytes bs)
        match res.1 with
        | none => ((s.touchRegion d.val pa true).beatsBack r).answerReq n r (.answered bs res.2 false)
        | some v =>
          if s.mayLog (s.ingressRin r d unit) pa size then
            ((s.ingressStore r d unit pa (bytesOf size v)).beatsBack r).answerReq n r (.answered bs res.2 false)
          else s.askLog (s.ingressRin r d unit) pa size
    | .put _ _ => s
    | .send _ => s
    | .get _ _ _ => s
    | .pairs _ => s
    | .flush => s
    | .start _ _ => s)

/-! ## Combining stores (R276, R277) -/

/-- RoundNE(x × 2^64) of an exact value, and whether it was inexact. -/
def fixedOf (x : Dyadic) : Int × Bool :=
  if -64 ≤ x.e then (x.n * (2 ^ (x.e + 64).toNat : Nat), false)
  else
    let p : Nat := 2 ^ (-64 - x.e).toNat
    let q := x.n / (p : Int)
    let r := (x.n % (p : Int)).toNat
    let up := decide (2 * r > p) || (decide (2 * r = p) && decide (q % 2 = 1))
    (if up then q + 1 else q, decide (r ≠ 0))

def Comb.empty (win : BitVec 2) (off ty : Nat) : Comb where
  win := win
  off := off
  ty := ty
  acc := 0
  nan := false
  pinf := false
  ninf := false
  inexact := false
  rin := 0
  dom := false

/-- One contribution to an entry. -/
def Comb.add (e : Comb) (v : BitVec 32) : Comb :=
  if e.ty ≠ 0 then { e with acc := (e.acc + v.setWidth 128) &&& 0xFFFFFFFF }
  else match fp32.read v.toNat with
    | .nan _ _ => { e with nan := true }
    | .inf neg => if neg then { e with ninf := true } else { e with pinf := true }
    | .fin neg m x =>
      let d := (FVal.fin neg m x).dyadic
      let f := fixedOf d
      if f.1.natAbs ≥ 2 ^ 127 then (if neg then { e with ninf := true } else { e with pinf := true })
      else { e with acc := e.acc + BitVec.ofInt 128 f.1, inexact := e.inexact || f.2 }

/-- The value that a flush writes over `old`, and its flags. -/
def Comb.flushed (e : Comb) (old : Nat) : Nat × Flags :=
  if e.ty ≠ 0 then ((old + e.acc.toNat) % 2 ^ 32, 0)
  else
    let r : Nat × Flags :=
      if e.nan || (e.pinf && e.ninf) then (fp32.qnan, Flags.nv)
      else if e.pinf then (fp32.inf false, 0)
      else if e.ninf then (fp32.inf true, 0)
      else match fp32.read old with
        | .fin neg m x => fp32.roundDyadic .rne ((FVal.fin neg m x).dyadic.add ⟨e.acc.toInt, -64⟩) false
        | .inf neg => fp32.add .rne (.inf neg) (.fin false 0 0)
        | .nan neg frac => fp32.add .rne (.nan neg frac) (.fin false 0 0)
    (r.1, r.2 ||| Flags.when e.inexact Flags.nx)

/-- The location of an entry in its window, whose base is taken as it is at the flush (log 93). -/
def State.combPlace (s : State) (d : Fin 8) (unit : Nat) (e : Comb) : Nat := winBase ((s.gate d unit).win e.win) + e.off

/-- Flushes of some entries: the sectors written, and whether one of them holds poison (R419). -/
def State.combSectors (s : State) (d : Fin 8) (unit : Nat) (es : List Comb) : List Nat := es.map (fun e => s.combPlace d unit e / 64)
def State.combPoisoned (s : State) (d : Fin 8) (unit : Nat) (es : List Comb) : Bool := es.any (fun e => s.isPoisoned (s.combPlace d unit e) 4)

/-- Performing an entry's flush at its window's location. -/
def State.flushEntry (s : State) (rin : BitVec 32) (d : Fin 8) (unit : Nat) (e : Comb) : Flags × State :=
  let pa := s.combPlace d unit e
  let r := e.flushed (ofBytes (memRead s.mem pa 4))
  (r.2, (s.store none rin pa (bytesOf 4 r.1)).touchRegion d.val pa true)

/-- A full store flushes the entry that arrived first (R276). -/
def State.makeRoom (s : State) (rin : BitVec 32) (d : Fin 8) (unit : Nat) : State :=
  let g := s.gate d unit
  match g.comb with
  | [] => s
  | e :: rest =>
    if g.comb.length < 4096 then s
    else
      let f := (s.setGate d unit { g with comb := rest }).flushEntry rin d unit e
      let g1 := f.2.gate d unit
      f.2.setGate d unit { g1 with premature := g1.premature ||| (1#4 <<< e.win.toNat), combFlags := g1.combFlags.set e.win.toNat (g1.combFlags[e.win.toNat]'e.win.isLt ||| f.1) e.win.isLt }

/-- A pair joins its entry or takes a free one. -/
def State.combine (s : State) (r : Req) (d : Fin 8) (unit : Nat) (p : Nat × BitVec 32 × Nat) : State :=
  let mark (e : Comb) : Comb := { (e.add p.2.1) with rin := r.rin, dom := r.dom && s.windowInDomain d unit }
  let g := s.gate d unit
  let mine (e : Comb) : Bool := decide (e.win = r.win) && decide (e.off = p.1)
  if g.comb.any mine then s.setGate d unit { g with comb := g.comb.map (fun e => if mine e then mark e else e) }
  else
    let s1 := s.makeRoom (s.ingressRin r d unit) d unit
    let g1 := s1.gate d unit
    s1.setGate d unit { g1 with comb := g1.comb ++ [mark (Comb.empty r.win p.1 p.2.2)] }

/-- COMBINING_PAIR: the pairs of a request join, after checks 6 and 7 for each. -/
def execCombiningPair (n : Nat) (s : State) : Host.Outcome State Fault Refusal :=
  .next (s.ingress n fun r d unit =>
    match r.kind with
    | .pairs ps =>
      let g := s.gate d unit
      let w := g.win r.win
      if ps.any (fun p => decide (p.1 + 4 > winSize w)) then s.refuseReq n r d unit 2
      else if ps.any (fun p => g.comb.any (fun e => decide (e.win = r.win) && decide (e.off = p.1) && decide (e.ty ≠ p.2.2))) then
        s.refuseReq n r d unit 7
      else
        let early := g.comb.take (g.comb.length + ps.length - 4096)
        let rin := s.ingressRin r d unit
        if s.combPoisoned d unit early then (s.beatsBack r).poisonedSource n r
        else if s.mayLogAll rin (s.combSectors d unit early) then
          ((ps.foldl (fun t p => t.combine r d unit p) s).beatsBack r).answerReq n r .performed
        else s.askLogAll rin (s.combSectors d unit early)
    | .put _ _ => s
    | .send _ => s
    | .get _ _ _ => s
    | .ramo _ _ _ _ _ _ => s
    | .flush => s
    | .start _ _ => s)

/-- COMBINING_FLUSH (R277): every entry of the window is flushed; the reply carries the flags and the premature mark. -/
def execCombiningFlush (n : Nat) (s : State) : Host.Outcome State Fault Refusal :=
  .next (s.ingress n fun r d unit =>
    match r.kind with
    | .flush =>
      let g := s.gate d unit
      let es := g.comb.filter (fun e => decide (e.win = r.win))
      let rin := s.ingressRin r d unit
      if s.combPoisoned d unit es then (s.beatsBack r).poisonedSource n r
      else if s.mayLogAll rin (s.combSectors d unit es) then
        let s1 := s.setGate d unit { g with
          comb := g.comb.filter (fun e => decide (e.win ≠ r.win))
          premature := g.premature &&& ~~~(1#4 <<< r.win.toNat)
          combFlags := g.combFlags.set r.win.toNat 0 r.win.isLt }
        let f := es.foldl (fun (a : Flags × State) e =>
          let b := a.2.flushEntry rin d unit e
          (a.1 ||| b.1, b.2)) (g.combFlags[r.win.toNat]'r.win.isLt, s1)
        (f.2.beatsBack r).answerReq n r (.answered [] f.1 (bitOf g.premature r.win.toNat))
      else s.askLogAll rin (s.combSectors d unit es)
    | .put _ _ => s
    | .send _ => s
    | .get _ _ _ => s
    | .ramo _ _ _ _ _ _ => s
    | .pairs _ => s
    | .start _ _ => s)

/-! ## Back at the source (R255, R263, R272, R278) -/

/-- Whether a request's target is no endpoint of this module's package. -/
def State.isOutside (s : State) (r : Req) : Bool := decide (field r.target 14 18 ≠ s.pkg.toNat)

/-- An acknowledgement adjusts INFL and PMAX (R263). -/
def Req.acked (r : Req) (mark : Bool) (c : Ctx) : Ctx :=
  if r.isStart then c
  else c.updSlot r.ds (fun x => { x with infl := x.infl - r.beats, pmax := if mark then max 16 (x.pmax / 2) else min 256 (x.pmax + 4) })

/-- A request completes at its thread, when the thread can be reached; the answer to a request from outside leaves the
module. -/
def State.completeReq (s : State) (n : Nat) (r : Req) (f : Ctx → Ctx) : State :=
  match r.src with
  | none => { s with net := removeAt s.net n }
  | some h => if (s.thread h).isNone then s else ({ s with net := removeAt s.net n }).updThread h f

/-- The answer of a flush (R277). -/
def Req.flushDone (r : Req) (fl : Flags) (pf : Bool) (c : Ctx) : Ctx :=
  (c.orF fl).updSlot r.ds (fun x => { x with pfl := x.pfl || pf })

/-- ACKNOWLEDGEMENT (R255): a SEND, SENDT, PUT, VSCACC, VSCFL or START completes. What the reply to a flush outside the
module carries is a free value. -/
def execAcknowledgement (n : Nat) (mark : Bool) (s : State) : Host.Outcome State Fault Refusal :=
  .next (match s.net[n]? with
    | none => s
    | some r =>
      if s.spilled r || r.isLoad then s
      else match r.stage with
        | .performed => s.completeReq n r (r.acked (mark || r.ce))
        | .answered _ fl pf => s.completeReq n r (fun c => r.flushDone fl pf (r.acked (mark || r.ce) c))
        | .flying =>
          if !s.isOutside r then s
          else if r.kind = .flush then
            let f := s.fresh
            f.2.completeReq n r (fun c => r.flushDone (f.1.setWidth 6) (bitOf f.1 6) (r.acked (mark || r.ce) c))
          else s.completeReq n r (r.acked (mark || r.ce))
        | .timed _ => s
        | .held _ => s
        | .refused _ => s
        | .stale => s)

/-- NEGATIVE_ACKNOWLEDGEMENT (R278): `reason` is that of a target outside the module. -/
def execNegativeAcknowledgement (n : Nat) (reason : BitVec 4) (s : State) : Host.Outcome State Fault Refusal :=
  .next (match s.net[n]? with
    | none => s
    | some r =>
      let refuse (e : BitVec 4) : State :=
        s.completeReq n r (fun c => (r.settle c).addMsgFault causeRemoteNack (msgTval r.ds r.fn.toNat r.isStart e r.offset))
      if s.spilled r then s
      else match r.stage with
        | .refused e => refuse e
        | .flying => if s.isOutside r then refuse reason else s
        | .timed _ => s
        | .held _ => s
        | .performed => s
        | .answered _ _ _ => s
        | .stale => s)

/-- The local writes of a GET (R272): relaxed, with the RIN of its issue. -/
def State.scatter (s : State) (rin : BitVec 32) (h : Holder) : List (Nat × Nat) → List Byte → State
  | [], _ => s
  | (pa, k) :: ps, bs =>
    State.scatter (((s.store none rin pa (bs.take k)).touchRegion (holderDie h).val pa true).updThread h (fun c => c.count 8 (s.qspmAccess pa)))
      rin h ps (bs.drop k)

/-- A request is marked for congestion on its way: its acknowledgement echoes the mark (R263). -/
def State.congest (s : State) (n : Nat) : State :=
  { s with net := s.net.mapIdx (fun i r => if i = n then { r with ce := true } else r) }

/-- GET_RESPONSE (R272, R273): the local write of a GET or RAMO is performed and the request completes, its path allowance as
the response's mark says (R263). -/
def execGetResponse (n : Nat) (data : List (BitVec 8)) (s : State) : Host.Outcome State Fault Refusal :=
  .next (match s.net[n]? with
    | none => s
    | some r =>
      let got : Option (List Byte × Option Flags) :=
        match r.stage with
        | .answered bs fl _ => some (bs, some fl)
        | .flying => if s.isOutside r then some (data, none) else none
        | .timed _ => none
        | .held _ => none
        | .performed => none
        | .refused _ => none
        | .stale => none
      match got, r.src with
      | some (bs, fl), some h =>
        if s.spilled r || (s.thread h).isNone then s
        else match r.kind with
          | .get _ len segs =>
            if bs.length ≠ len then s
            else if !s.mayLogAll r.rin (segs.flatMap (fun p => sectorsOf p.1 p.2)) then s.askLogAll r.rin (segs.flatMap (fun p => sectorsOf p.1 p.2))
            else (s.completeReq n r (r.acked r.ce)).scatter r.rin h segs bs
          | .ramo op _ x cmp rm d =>
            if bs.length ≠ ramoSize op then s
            else s.completeReq n r (fun c =>
              ((r.acked r.ce c).setX d (BitVec.ofNat 64 (ofBytes bs))).orF (fl.getD (ramoWrites op x cmp rm (ofBytes bs)).2))
          | .put _ _ => s
          | .send _ => s
          | .pairs _ => s
          | .flush => s
          | .start _ _ => s
      | some _, none => s.completeReq n r id
      | none, _ => s)

/-! ## Incarnations and lost packets (R255, R256) -/

/-- Packets with a stale incarnation are counted at the die's gateway that drops them. -/
def State.countStale (s : State) (d : Fin 8) (packets : Nat) : State := s.setDie d { s.die d with stales := (s.die d).stales + packets }

/-- STALE_INCARNATION_DROP: the gateway drops a packet with a stale incarnation. -/
def execStaleIncarnationDrop (n : Nat) (s : State) : Host.Outcome State Fault Refusal :=
  .next (match s.net[n]? with
    | none => s
    | some r =>
      if r.stage ≠ .flying || s.spilled r || r.isStart then s
      else match s.unitOf r.target with
        | none => s
        | some (d, unit) => if r.inc = s.incOf d unit then s else ((s.countStale d r.packets).beatsBack r).answerReq n r .stale)

/-- Whether a demand of a slot has been dropped for its incarnation. -/
def DSlot.staleDemand (x : DSlot) : Bool := x.bnd && (x.demand.map (·.stale)).getD false

/-- RESET_NOTICE: the answer to a dropped packet arrives, or a notice from outside the module. -/
def execResetNotice (h : Holder) (ds : BitVec 4) (s : State) : Host.Outcome State Fault Refusal :=
  .next (match s.thread h with
    | none => s
    | some c =>
      let x := c.slot ds
      let outside := x.bnd && decide (field x.ep 14 18 ≠ s.pkg.toNat)
      if outside || x.staleDemand || s.net.any (fun r => r.sameFlow h ds && decide (r.stage = .stale)) then s.endFlow h ds 0 else s)

/-- RETRANSMISSION_TIMEOUT: a packet not acknowledged is sent again; after 16 times the flow ends. -/
def execRetransmissionTimeout (n : Nat) (s : State) : Host.Outcome State Fault Refusal :=
  .next (match s.net[n]? with
    | none => s
    | some r =>
      match r.src with
      | none => s
      | some h =>
        if !r.issued || r.inHold || s.spilled r || (s.thread h).isNone then s
        else if r.tries < 16 then { s with net := replaceAt s.net n { r with tries := r.tries + 1 } }
        else
          let s1 := if r.isStart then s.completeReq n r (fun c => c.addMsgFault causePeerReset (msgTval 0 1 true 1 0)) else s.endFlow h r.ds 1
          s1.exhausted (s.holderUnit h) r.rin r.target r.ds)

/-! ## Credit (R263, R264) -/

/-- The threads of the module whose demands may stand at targets: resident, swapped out, saved. -/
def State.senders (s : State) : List (Holder × Ctx) :=
  (s.ctxs.filterMap (fun kc =>
    let u := mkCtxId (kc.1 / 640) (kc.1 / 4 % 160) (kc.1 % 4)
    (s.sender (.here u)).map (fun c => (Holder.here u, c)))) ++
  (List.range 8).flatMap (fun d => ((s.die (mkFin8 d)).swaps.map (fun w => (Holder.parked (mkFin8 d) w.entry, w.ctx)))) ++
  (List.range 16).flatMap (fun p => (s.part p).saves.map (fun uc => (Holder.saved (mkFin16 p) uc.1, uc.2)))

/-- What a slot's credit comes from: the pool of a quad or die agent, or one ring of it. -/
def State.creditKey (s : State) (ep : BitVec 32) (win : BitVec 2) : Option Nat :=
  (s.unitOf ep).map (fun du =>
    8 * gateKey du.1 du.2 + (if winRing ((s.gate du.1 du.2).win win) then 1 + win.toNat else 0))

/-- An unanswered demand at the same source of credit that arrived before `order`, of any sender. -/
def State.earlierDemand (s : State) (key : Option Nat) (order : Nat) : Bool :=
  s.outs.any (fun o => decide (s.creditKey o.ep o.win = key) && decide (o.order < order)) ||
  s.senders.any (fun hc => hc.2.slots.toList.any (fun x =>
    match x.demand with
    | none => false
    | some d =>
      x.bnd && d.answer.isNone && decide (s.creditKey x.ep x.win = key) &&
      (match d.order with
       | none => false
       | some o => decide (o < order))))

/-- The target's answer to a demand that is the first to be answered, when there is credit for it. -/
def State.answerDemand (s : State) (h : Holder) (ds : BitVec 4) (c : Ctx) (x : DSlot) (dm : Demand) (d : Fin 8) (unit : Nat) : State :=
  let u := s.holderUnit h
  let put (a : GrantReply) (t : State) : State :=
    t.updSender h (fun c => c.updSlot ds (fun x => { x with demand := some { dm with answer := some a } }))
  match s.windowRefuses d unit x.win (s.endpoint u.die u.unit.val) c.dom (some dm.fn) with
  | some e => put (.refusal e) s
  | none =>
    let need := dm.beats - x.wc
    let g := s.gate d unit
    if need ≤ g.credit x.win then put (.credit need) (s.setGate d unit (g.takeCredit x.win need)) else s

/-- The answer to the demand of a sender outside the module leaves the module. -/
def State.answerOut (s : State) (n : Nat) (o : OutDemand) : State :=
  let gone := { s with outs := removeAt s.outs n }
  match s.unitOf o.ep with
  | none => gone
  | some (d, unit) =>
    if o.inc ≠ s.incOf d unit then gone.countStale d 1
    else if s.earlierDemand (s.creditKey o.ep o.win) o.order then s
    else if (s.windowRefuses d unit o.win o.src o.dom (some o.fn)).isSome then gone
    else if o.beats ≤ (s.gate d unit).credit o.win then gone.setGate d unit ((s.gate d unit).takeCredit o.win o.beats)
    else s

/-- A demand of a sender outside the module arrives (R264); one to an absent unit, or with a stale incarnation, is dropped and
counted (R18, R256). -/
def State.demandOut (s : State) (x : OutDemand) : State :=
  match s.unitOf x.ep with
  | none => if s.absent x.ep then s.countDrop x.src else s
  | some (d, unit) =>
    if x.inc ≠ s.incOf d unit then s.countStale d 1
    else { s with outs := s.outs ++ [{ x with order := s.seq }], seq := s.seq + 1 }

/-- The demand of a slot at its target, a unit of the module: dropped with a stale incarnation, else answered in its turn. -/
def State.demandAt (s : State) (h : Holder) (ds : BitVec 4) (c : Ctx) (x : DSlot) (dm : Demand) (d : Fin 8) (unit : Nat) : State :=
  let put (a : Demand) (t : State) : State := t.updSender h (fun c => c.updSlot ds (fun x => { x with demand := some a }))
  if x.inc ≠ s.incOf d unit then put { dm with stale := true } (s.countStale d 1)
  else
    let dm1 := { dm with order := some (dm.order.getD s.seq) }
    let s1 := put dm1 { s with seq := if dm.order.isNone then s.seq + 1 else s.seq }
    if s1.earlierDemand (s1.creditKey x.ep x.win) (dm1.order.getD 0) then s1 else s1.answerDemand h ds c x dm1 d unit

/-- DEMAND (R264): the demand of a slot arrives at its target, or, having arrived, is answered in its turn. The agents of the hub
and of the optical dies have no window that is enabled: they refuse it (R258, R271). -/
def execDemand (h : Holder) (ds : BitVec 4) (s : State) : Host.Outcome State Fault Refusal :=
  .next (match s.sender h with
    | none => (match h with
      | .outside n => ((s.outs[n]?).map (s.answerOut n)).getD s
      | .here _ => s
      | .parked _ _ => s
      | .saved _ _ => s)
    | some c =>
      let x := c.slot ds
      match x.demand with
      | none => s
      | some dm =>
        if !x.bnd || dm.answer.isSome || dm.stale || (dm.order.isNone && (s.thread h).isNone) then s
        else match s.unitOf x.ep with
          | some (d, unit) => s.demandAt h ds c x dm d unit
          | none =>
            if s.isAgent x.ep then
              s.updSender h (fun c => c.updSlot ds (fun x => { x with demand := some { dm with answer := some (.refusal 1) } }))
            else s)

/-- GRANT (R264, R265): the answer arrives; `g` is that of a target outside the module. -/
def execGrant (h : Holder) (ds : BitVec 4) (g : GrantReply) (s : State) : Host.Outcome State Fault Refusal :=
  .next (match s.thread h with
    | none => s
    | some c =>
      let x := c.slot ds
      match x.demand with
      | none => s
      | some dm =>
        let a : Option GrantReply := if decide (field x.ep 14 18 ≠ s.pkg.toNat) then some g else dm.answer
        match a with
        | none => s
        | some (.credit n) =>
          s.updThread h (fun c => c.updSlot ds (fun x => { x with demand := none, wc := x.wc + n, since := s.time }))
        | some (.refusal e) => s.updThread h (fun c => c.updSlot ds (fun x => { x with demand := none, refusal := some (dm.fn, e) })))

/-- CREDIT_RETURN (R264): credit unused for 65,536 cycles. -/
def execCreditReturn (h : Holder) (ds : BitVec 4) (s : State) : Host.Outcome State Fault Refusal :=
  .next (match s.thread h with
    | none => s
    | some c =>
      let x := c.slot ds
      if x.bnd && decide (x.wc ≠ 0) && decide (x.since + 65536 ≤ s.time) then
        (s.returnTo x.ep x.win x.wc).updThread h (fun c => c.updSlot ds (fun x => { x with wc := 0, since := s.time }))
      else s)

/-- PORT_XOFF and PORT_XON (R263). -/
def execPortXoff (pkg : BitVec 18) (s : State) : Host.Outcome State Fault Refusal :=
  .next (if s.xoff.contains pkg then s else { s with xoff := pkg :: s.xoff })

def execPortXon (pkg : BitVec 18) (s : State) : Host.Outcome State Fault Refusal :=
  .next { s with xoff := s.xoff.filter (fun p => decide (p ≠ pkg)) }

end Sys2Proof.Machine
end

