-- ==== Sys2Proof/Machine/VecMem.lean ====
section
/-! DEFINITION. Vector loads and stores of majors 0x20 and 0x21 (05_memory_access.md R112-R116). Every active element is
checked; each cluster performs its elements up to its first failing one (R113, R145). -/

namespace Sys2Proof.Machine

/-- Checking every element of a list: the mappings of those that pass, the causes of those that fail. -/
structure Checked where
  good : List (Nat × Nat)             -- element, physical address
  bad  : List (Nat × BitVec 8)        -- element, cause
deriving DecidableEq, Repr

def State.checkElems (s : State) (k : AccKind) (size : Nat) (ea : Nat → Word) : List Nat → Checked × State
  | [] => (⟨[], []⟩, s)
  | e :: es =>
    match s.check (s.viewer s.cur) k false (ea e) size with
    | (.ok m, s1) =>
      let r := State.checkElems s1 k size ea es
      (⟨(e, m.pa) :: r.1.good, r.1.bad⟩, r.2)
    | (.error c, s1) =>
      let r := State.checkElems s1 k size ea es
      (⟨r.1.good, (e, c) :: r.1.bad⟩, r.2)

/-- An access whose translation stalls (R126). -/
def Checked.stalled (x : Checked) : Bool := x.bad.any (fun b => decide (b.2 = causeStall))

/-- The elements performed: in each cluster those below its first failing one (R145). -/
def Checked.performed (x : Checked) (W : Nat) : List (Nat × Nat) :=
  x.good.filter (fun p => x.bad.all (fun b => decide (clusterOf W b.1 ≠ clusterOf W p.1) || decide (p.1 < b.1)))

/-- An element fails its checks: the instruction traps, or halts where the walk read poison (R113, R419). -/
def State.elemFails (s : State) (cause : BitVec 8) (va epx : Word) : State :=
  if cause = causeUncorrectable then s.haltPoisoned s.cur else s.raiseEpx cause va epx

/-- The end of a vector load or store: the trap of the lowest failing element, with the restart point of each cluster, the groups
before it having entered (R113, R145); else its completion. -/
def State.elemTrap (s : State) (n : VNote) (ea : Nat → Word) (x : Checked) : State :=
  match x.bad with
  | [] => s.vdone n
  | (e, c) :: _ =>
    let p := epxOf n.W (x.bad.map (·.1))
    (if c = causeUncorrectable then s else s.vstopped n p).elemFails c (ea e) p

/-- Reading the performed elements of a load, in element order. -/
def State.readElems (s : State) (EW : Nat) : List (Nat × Nat) → Got (List (Nat × Nat))
  | [] => .ok [] s
  | (e, pa) :: ps =>
    (s.readPa pa EW).bind fun bs s1 => (State.readElems s1 EW ps).bind fun r s2 => .ok ((e, ofBytes bs) :: r) s2

/-- One store of an element instruction: the element, its physical address and bytes. -/
abbrev Piece := Nat × Nat × List Byte

/-- The sectors of an element access. -/
def pairSectors (n : Nat) (ps : List (Nat × Nat)) : List Nat := (ps.flatMap (fun p => sectorsOf p.2 n)).eraseDups

/-- What keeps stores of the issuing context to these sectors from being performed: a version that its chunk lacks, or undo
records that are not taken; the state in which it has asked for them (R179, R317, R318). -/
def State.storesBlocked (s : State) (secs : List Nat) : Option State :=
  let log := if s.mayLogAll s.me.rin secs then none else some (s.askLogAll s.me.rin secs)
  match s.me.chunk with
  | none => log
  | some ch =>
    if ch.through then log
    else (secs.find? (fun sec => (ch.version sec).isNone)).map (fun sec => s.askVersion sec false)

/-- The bytes of an element that no higher element written before a stop covers (R114): whole where there was no stop. Elements
stand with their physical addresses. -/
def keptBytes (EW : Nat) (done : List (Nat × Nat)) (value : Nat → Nat) (p : Nat × Nat) : List Piece :=
  let bs := bytesOf EW (value p.1)
  let hidden (i : Nat) : Bool := done.any (fun q => decide (p.1 < q.1) && decide (q.2 ≤ p.2 + i) && decide (p.2 + i < q.2 + EW))
  if (List.range EW).any hidden then
    (bs.zipIdx.filter (fun b => !hidden b.2)).map (fun b => (p.1, p.2 + b.2, [b.1]))
  else [(p.1, p.2, bs)]

/-- The bytes that stores write in a sector, in their order: which, and their values. -/
def sectorBytes (ps : List Piece) (sec : Nat) : BitVec 64 × BitVec 512 :=
  (ps.filter (fun p => decide (p.2.1 / 64 = sec))).foldl (fun acc p =>
    let m := byteMask (p.2.1 % 64) p.2.2.length
    (acc.1 ||| m, mergeBytes m acc.2 (BitVec.ofNat 512 (ofBytes p.2.2 * 2 ^ (8 * (p.2.1 % 64)))))) (0, 0)

/-- Storing in element order, so that the highest element keeps a byte (R114). In a chunk one store notice leaves for each
sector that the instruction writes (R179). -/
def State.storePieces (s : State) (ps : List Piece) : State :=
  let secs := (ps.map (fun p => p.2.1 / 64)).eraseDups
  let mem (s : State) : State := ps.foldl (fun t p => t.storeMine p.2.1 p.2.2) s
  match s.me.chunk with
  | none => mem s
  | some ch =>
    if ch.through then
      secs.foldl (fun t sec => t.sendNotice s.cur ⟨ch.number + 1, sec, (sectorBytes ps sec).1, (sectorBytes ps sec).2, none⟩) (mem s)
    else secs.foldl (fun t sec => match t.me.chunk with
      | none => t
      | some ch => match ch.version sec with
        | none => t
        | some v => t.storeVersion ch v (sectorBytes ps sec).1 (sectorBytes ps sec).2) s

/-- Poison marks are cleared from sectors that one instruction wrote wholly (R419). -/
def State.liftPoison (s : State) (EW : Nat) (ps : List (Nat × Nat)) : State :=
  { s with poison := s.poison.filter (fun sec =>
      !((List.range 64).all (fun i => ps.any (fun p => decide (p.2 ≤ 64 * sec + i) && decide (64 * sec + i < p.2 + EW))))) }

/-- The tag of width `W` that a load gives a register of another width (R112). -/
def signedTag (W : Nat) : Tag := if W = 8 then .i64 else if W = 4 then .i32 else if W = 2 then .i16 else .i8

def lowestActive (km : BitVec 1024) (vl : Nat) (ea : Nat → Word) : Word := ((((List.range vl).filter (fun e => bitOf km e)).head?).map ea).getD 0

def highestActive (km : BitVec 1024) (vl : Nat) (ea : Nat → Word) : Word :=
  ((((List.range vl).filter (fun e => bitOf km e)).getLast?).map ea).getD 0

/-- The QSPM accesses among those of some elements. -/
def State.qspmCount (s : State) (ps : List (Nat × Nat)) : Nat := (ps.map (fun p => s.qspmAccess p.2)).sum

/-- A vector load of element width `EW` with addresses `ea` (R112). -/
def State.vload (s : State) (vd : BitVec 5) (EW W : Nat) (ea : Nat → Word) (km : BitVec 1024) : State :=
  let c := s.me
  let vl := c.csr.vl
  let note : VNote := ⟨true, false, false, .lsu, W, vl, km, lowestActive km vl ea, highestActive km vl ea, .elems⟩
  if vl = 0 then s.vdone { note with isLoad := false }
  else if s.loadCount s.cur ≥ 31 then s.hold .poll
  else
    let v0 := c.v vd
    let t := if v0.tag.width = EW then v0.tag else signedTag EW
    let v1 := v0.dest t vl
    let es := (List.range vl).filter (fun e => bitOf km e && c.runs W e)
    let x := s.checkElems .load EW ea es
    if x.1.stalled then x.2.hold .poll
    else (State.readElems x.2 EW (x.1.performed W)).finish fun vals s1 =>
      let v2 := vals.foldl (fun v p => v.setElem EW p.1 p.2) v1
      let s2 := ((x.1.performed W).foldl (fun t p => t.noteLoad (ea p.1) p.2) s1).upd (fun c =>
        (c.setV vd v2).count 8 (s1.qspmCount (x.1.performed W)))
      s2.elemTrap note ea x.1

/-- A vector store. -/
def State.vstore (s : State) (vd : BitVec 5) (EW W : Nat) (ea : Nat → Word) (km : BitVec 1024) : State :=
  let c := s.me
  let vl := c.csr.vl
  let note : VNote := ⟨false, true, false, .lsu, W, vl, km, lowestActive km vl ea, highestActive km vl ea, .elems⟩
  if vl = 0 then s.vdone { note with isStore := false }
  else if s.storeCount s.cur ≥ 31 then s.hold .poll
  else
    let v := c.v vd
    let es := (List.range vl).filter (fun e => bitOf km e && c.runs W e)
    let x := s.checkElems .store EW ea es
    let ps := x.1.performed W
    if x.1.stalled then x.2.hold .poll
    else match x.2.storesBlocked (pairSectors EW ps) with
    | some s1 => s1.hold .poll
    | none =>
      let done := (s.checkElems .store EW ea ((List.range vl).filter (fun e => bitOf km e && !toPerform c.rst W e))).1.good
      let s1 := x.2.storePieces (ps.flatMap (keptBytes EW done (fun e => v.elem EW e)))
      (((s1.liftPoison EW ps).noteStores (ps.map (·.2))).upd (fun c => c.count 8 (s1.qspmCount ps))).elemTrap note ea x.1

/-- Element width of a w code. -/
def widthOf (w : BitVec 2) : Nat := 2 ^ w.toNat

/-- The address forms (R112), modulo 2^64. -/
def State.eaUnit (s : State) (base : BitVec 5) (EW : Nat) (e : Nat) : Word := s.x base + BitVec.ofNat 64 (e * EW)
def State.eaStride (s : State) (base c : BitVec 5) (e : Nat) : Word := s.x base + BitVec.ofNat 64 e * s.x c
def State.eaIndex (s : State) (base c : BitVec 5) (e : Nat) : Word := s.x base + indexElem (s.me.v c) e

/-- The checks of a strided or unit access, and of an indexed one, before any element. -/
def State.fits (s : State) (EW : Nat) : Bool := decide (s.me.csr.vl * EW ≤ 1024)

def execVld (d base : BitVec 5) (km : BitVec 3) (oo y : BitVec 1) (pol w : BitVec 2) (s : State) : Host.Outcome State Fault Refusal :=
  .next (s.onCore (.vld d base km oo y pol w) fun s =>
    if s.fits (widthOf w) then s.vload d (widthOf w) (widthOf w) (s.eaUnit base (widthOf w)) (s.me.k km) else s.vIllegal)

def execVlds (d base c : BitVec 5) (km : BitVec 3) (oo y : BitVec 1) (pol w : BitVec 2) (s : State) : Host.Outcome State Fault Refusal :=
  .next (s.onCore (.vlds d base c km oo y pol w) fun s =>
    if s.fits (widthOf w) then s.vload d (widthOf w) (widthOf w) (s.eaStride base c) (s.me.k km) else s.vIllegal)

def execVldx (d base c : BitVec 5) (km : BitVec 3) (oo y : BitVec 1) (pol w : BitVec 2) (s : State) : Host.Outcome State Fault Refusal :=
  .next (s.onCore (.vldx d base c km oo y pol w) fun s =>
    if s.fits (widthOf w) && indexOk (s.me.v c) s.me.csr.vl then
      s.vload d (widthOf w) (max (widthOf w) (s.me.v c).tag.width) (s.eaIndex base c) (s.me.k km)
    else s.vIllegal)

def execVst (d base : BitVec 5) (km : BitVec 3) (oo y : BitVec 1) (pol w : BitVec 2) (s : State) : Host.Outcome State Fault Refusal :=
  .next (s.onCore (.vst d base km oo y pol w) fun s => s.sealGate fun s =>
    if s.fits (widthOf w) then s.vstore d (widthOf w) (widthOf w) (s.eaUnit base (widthOf w)) (s.me.k km) else s.vIllegal)

def execVsts (d base c : BitVec 5) (km : BitVec 3) (oo y : BitVec 1) (pol w : BitVec 2) (s : State) : Host.Outcome State Fault Refusal :=
  .next (s.onCore (.vsts d base c km oo y pol w) fun s => s.sealGate fun s =>
    if s.fits (widthOf w) then s.vstore d (widthOf w) (widthOf w) (s.eaStride base c) (s.me.k km) else s.vIllegal)

def execVstx (d base c : BitVec 5) (km : BitVec 3) (oo y : BitVec 1) (pol w : BitVec 2) (s : State) : Host.Outcome State Fault Refusal :=
  .next (s.onCore (.vstx d base c km oo y pol w) fun s => s.sealGate fun s =>
    if s.fits (widthOf w) && indexOk (s.me.v c) s.me.csr.vl then
      s.vstore d (widthOf w) (max (widthOf w) (s.me.v c).tag.width) (s.eaIndex base c) (s.me.k km)
    else s.vIllegal)

end Sys2Proof.Machine
end

