-- ==== Sys2Proof/Machine/Atomics.lean ====
section
/-! DEFINITION. Scalar and vector atomics and GCSLP: majors 0x16, 0x17, 0x22, 0x23 (09_atomics_events.md R231-R238,
R249, R250). -/

namespace Sys2Proof.Machine

/-! ## Scalar atomics (R232-R235) -/

/-- Every earlier load and store of the context is performed (R234). -/
def State.ownDone (s : State) (u : CtxId) : Bool := (s.ctx u).accs.isEmpty && (s.ctx u).vecs.isEmpty

/-- One atomic operation at a physical address: the old value, and what `f` writes if anything. -/
def State.rmw (s : State) (pa n : Nat) (f : Nat → Option Nat × Flags) : Got (Nat × Flags) :=
  (s.readPa pa n).bind fun bs s1 =>
    let r := f (ofBytes bs)
    match r.1 with
    | none => .ok (ofBytes bs, r.2) s1
    | some v => (s1.writePa pa (bytesOf n v)).bind fun _ s2 => .ok (ofBytes bs, r.2) s2

/-- A scalar atomic of `n` bytes at s[a], with order and scope; `ret` makes the register value of the old one. -/
def State.atomic (s : State) (d a : BitVec 5) (n : Nat) (ord : BitVec 2) (sc : BitVec 3) (f : Nat → Option Nat × Flags)
    (ret : Nat → Word) : State :=
  s.sealGate fun s => s.irrevocably fun s =>
    let ea := s.x a
    (s.checkMine .atomic false ea n).finish fun m s =>
      if 2 ≤ ord.toNat && !s.ownDone s.cur then s.hold .poll
      else (s.rmw m.pa n f).finish fun r s =>
        let s1 := if ord.toNat % 2 = 1 then s.acquireLine sc.toNat ea m.pa else s.noteLoad ea m.pa
        let s2 := if (f r.1).1.isSome then (if 2 ≤ ord.toNat then s1.tagLine m.pa sc else s1.noteStore m.pa) else s1
        ((s2.countQspm m.pa).upd (fun c => c.addAtomic r.2)).retire d (ret r.1)

/-- Bytes of a `.w` or `.d` atomic. -/
def amoSize (w : BitVec 1) : Nat := if w = 1 then 8 else 4

/-- An AMO of R232 with operation `f` on `n`-byte values. -/
def State.amo (s : State) (d a b : BitVec 5) (sc : BitVec 3) (ord : BitVec 2) (w : BitVec 1) (f : Nat → Nat → Nat) : State :=
  let n := amoSize w
  let x := (s.x b).toNat % 2 ^ (8 * n)
  s.atomic d a n ord sc (fun old => (some (f old x % 2 ^ (8 * n)), 0)) (signExtend64 (8 * n))

/-- The smaller or the larger of two values by an order on integers. -/
def pick (isMax : Bool) (key : Nat → Int) (x y : Nat) : Nat := if isMax then (if key x < key y then y else x) else (if key y < key x then y else x)

def execAmoadd (d a b : BitVec 5) (sc : BitVec 3) (ord : BitVec 2) (w : BitVec 1) (s : State) : Host.Outcome State Fault Refusal :=
  .next (s.amo d a b sc ord w (fun old x => old + x))

def execAmoand (d a b : BitVec 5) (sc : BitVec 3) (ord : BitVec 2) (w : BitVec 1) (s : State) : Host.Outcome State Fault Refusal :=
  .next (s.amo d a b sc ord w (fun old x => old &&& x))

def execAmoor (d a b : BitVec 5) (sc : BitVec 3) (ord : BitVec 2) (w : BitVec 1) (s : State) : Host.Outcome State Fault Refusal :=
  .next (s.amo d a b sc ord w (fun old x => old ||| x))

def execAmoxor (d a b : BitVec 5) (sc : BitVec 3) (ord : BitVec 2) (w : BitVec 1) (s : State) : Host.Outcome State Fault Refusal :=
  .next (s.amo d a b sc ord w (fun old x => old ^^^ x))

def execAmomin (d a b : BitVec 5) (sc : BitVec 3) (ord : BitVec 2) (w : BitVec 1) (s : State) : Host.Outcome State Fault Refusal :=
  .next (s.amo d a b sc ord w (pick false (signedOf (8 * amoSize w))))

def execAmomax (d a b : BitVec 5) (sc : BitVec 3) (ord : BitVec 2) (w : BitVec 1) (s : State) : Host.Outcome State Fault Refusal :=
  .next (s.amo d a b sc ord w (pick true (signedOf (8 * amoSize w))))

def execAmominu (d a b : BitVec 5) (sc : BitVec 3) (ord : BitVec 2) (w : BitVec 1) (s : State) : Host.Outcome State Fault Refusal :=
  .next (s.amo d a b sc ord w (pick false (fun x => (x : Int))))

def execAmomaxu (d a b : BitVec 5) (sc : BitVec 3) (ord : BitVec 2) (w : BitVec 1) (s : State) : Host.Outcome State Fault Refusal :=
  .next (s.amo d a b sc ord w (pick true (fun x => (x : Int))))

def execAmoswap (d a b : BitVec 5) (sc : BitVec 3) (ord : BitVec 2) (w : BitVec 1) (s : State) : Host.Outcome State Fault Refusal :=
  .next (s.amo d a b sc ord w (fun _ x => x))

/-- AMOCAS: written only when the old value equals s[d] as read at issue; a failed one is a load only. -/
def execAmocas (d a b : BitVec 5) (sc : BitVec 3) (ord : BitVec 2) (w : BitVec 1) (s : State) : Host.Outcome State Fault Refusal :=
  .next (
    let n := amoSize w
    let x := (s.x b).toNat % 2 ^ (8 * n)
    let cmp := (s.x d).toNat % 2 ^ (8 * n)
    s.atomic d a n ord sc (fun old => (if old = cmp then some x else none, 0)) (signExtend64 (8 * n)))

/-- A FAMO: the FP32 operation `f` on the old word and s[b][31:0]; the flags are merged at completion (R235). -/
def State.famo (s : State) (d a b : BitVec 5) (sc : BitVec 3) (ord : BitVec 2) (f : FVal → FVal → Nat × Flags) : State :=
  let x := fp32.read ((s.x b).toNat % 2 ^ 32)
  s.atomic d a 4 ord sc (fun old => (some (f (fp32.read old) x).1, (f (fp32.read old) x).2)) (BitVec.ofNat 64)

def execFamoFadd (d a b : BitVec 5) (sc : BitVec 3) (ord : BitVec 2) (s : State) : Host.Outcome State Fault Refusal :=
  .next (s.famo d a b sc ord (fp32.add (Rounding.ofFrm s.me.csr.frm)))

def execFamoFmin (d a b : BitVec 5) (sc : BitVec 3) (ord : BitVec 2) (s : State) : Host.Outcome State Fault Refusal :=
  .next (s.famo d a b sc ord (fp32.minMax false))

def execFamoFmax (d a b : BitVec 5) (sc : BitVec 3) (ord : BitVec 2) (s : State) : Host.Outcome State Fault Refusal :=
  .next (s.famo d a b sc ord (fp32.minMax true))

/-! ## Vector atomics (R236-R238) -/

/-- Op(old, x) of a VAMO on an old value and an element (R236, R237). -/
def vamoOp (fn : BitVec 2) (EW : Nat) (tag : Tag) (frm : BitVec 3) (old x : Nat) : Nat × Flags :=
  if fn = 0 then ((old + x) % 2 ^ (8 * EW), 0)
  else if fn = 3 then fp32.add (Rounding.ofFrm frm) (fp32.read old) (fp32.read x)
  else (pick (decide (fn = 2)) (intElem tag) old x, 0)

/-- Performing elements in ascending order. -/
def State.vamoElems (s : State) (r : VamoRest) : List (Word × Nat × Nat) → Got Flags
  | [] => .ok 0 s
  | (_, pa, x) :: ps =>
    (s.rmw pa r.ew (fun old => (some (vamoOp r.fn r.ew r.tag r.frm old x).1, (vamoOp r.fn r.ew r.tag r.frm old x).2))).bind fun v s1 =>
      (State.vamoElems s1 r ps).bind fun fl s2 => .ok (v.2 ||| fl) s2

/-- The passes of a VAMO: as many as the most elements at one address (R237). -/
def passes (ps : List (Word × Nat × Nat)) : Nat := (ps.map (fun p => (ps.filter (fun q => decide (q.1 = p.1))).length)).foldl max 0

/-- The elements of the first `n` passes, of each address its first `n`, and the others (R237). -/
def firstPasses (n : Nat) (ps : List (Word × Nat × Nat)) : List (Word × Nat × Nat) × List (Word × Nat × Nat) :=
  let early (p : (Word × Nat × Nat) × Nat) : Bool := decide (((ps.take p.2).filter (fun q => decide (q.1 = p.1.1))).length < n)
  ((ps.zipIdx.filter early).map (·.1), (ps.zipIdx.filter (fun p => !early p)).map (·.1))

/-- What the latest vector instruction of a context has still to do. -/
def Ctx.setRest (c : Ctx) (r : VamoRest) : Ctx :=
  if r.elems.isEmpty then c else { c with vecs := c.vecs.mapIdx (fun i v => if i + 1 = c.vecs.length then { v with rest := some r } else v) }

/-- A VAMO of element width `EW`; `ok` is the check of the data register's tag. Every element is checked before any is
performed, and a failed check leaves every cluster at its first element. Its passes are made at once, unless `upto` says after how
many of them atomics of other parties come (R237). -/
def State.vamo (s : State) (i : Instr) (d base c : BitVec 5) (km : BitVec 3) (fn : BitVec 2) (EW : Nat) (ok : Tag → Bool) : State :=
  s.onCore i fun s => s.sealGate fun s => s.irrevocably fun s => s.afterVectors fun s =>
    let me := s.me
    let v := me.v d
    let x := me.v c
    let vl := me.csr.vl
    let W := max EW x.tag.width
    let ea := s.eaIndex base c
    if !ok v.tag || !indexOk x vl || decide (1024 < vl * EW) then s.vIllegal
    else if s.storeCount s.cur ≥ classLimit then s.hold .poll
    else
      let es := (List.range vl).filter (fun e => bitOf (me.k km) e)
      let r := s.checkElems .atomic EW ea es
      if r.1.stalled then r.2.hold .poll
      else match r.1.bad with
      | (e, cause) :: _ => r.2.elemFails cause (ea e) (epxOf W (List.range vl))
      | [] =>
        match r.2.storesBlocked (pairSectors EW r.1.good) with
        | some s1 => s1.hold .poll
        | none =>
          let all : VamoRest := ⟨fn, EW, v.tag, me.csr.frm, r.1.good.map (fun p => (ea p.1, p.2, v.elem EW p.1))⟩
          let parts := match me.upto with
            | none => (all.elems, [])
            | some p => firstPasses (p.1.toNat + 1) all.elems
          (State.vamoElems r.2 all parts.1).finish fun fl s =>
            ((s.upd (fun c => { (c.orV fl).count 8 (s.qspmCount r.1.good) with upto := none })).vdoneWith
              ⟨false, true, true, .cross, W, vl, me.k km, lowestActive (me.k km) vl ea, highestActive (me.k km) vl ea, .elems⟩
              (fun _ => 16 * passes all.elems)).upd (fun c => c.setRest { all with elems := parts.2 })

/-- The next pass of a VAMO that a context has still to make (R237); it waits for nothing, its sectors being logged already. -/
def State.vamoPass (s : State) (u : CtxId) (v : VecPend) (rest : List VecPend) (r : VamoRest) : State :=
  let parts := firstPasses 1 r.elems
  let left : Option VamoRest := if parts.2.isEmpty then none else some { r with elems := parts.2 }
  let put (s : State) (x : Option VamoRest) : State := s.updCtx u (fun c => { c with vecs := { v with rest := x } :: rest })
  ({ s with cur := u } |> fun t => match State.vamoElems t r parts.1 with
    | .ok fl s1 => (put s1 left).updCtx u (fun c => c.orV fl)
    | .trap _ _ s1 => s1
    | .wait _ s1 => s1
    | .poisoned s1 => (put s1 none).haltPoisoned u) |> fun t => { t with cur := s.cur }

/-- The S and U tags of a width (R236). -/
def intTag (EW : Nat) (t : Tag) : Bool :=
  decide (t.width = EW) && (match t.family with
    | some .signed => true
    | some .unsigned => true
    | some .float => false
    | some .lns => false
    | none => false)

def execVamoAdd (d base c : BitVec 5) (km : BitVec 3) (y : BitVec 1) (pol : BitVec 2) (w : BitVec 1) (s : State) :
    Host.Outcome State Fault Refusal :=
  .next (s.vamo (.vamoAdd d base c km y pol w) d base c km 0 (amoSize w) (intTag (amoSize w)))

def execVamoMin (d base c : BitVec 5) (km : BitVec 3) (y : BitVec 1) (pol : BitVec 2) (w : BitVec 1) (s : State) :
    Host.Outcome State Fault Refusal :=
  .next (s.vamo (.vamoMin d base c km y pol w) d base c km 1 (amoSize w) (intTag (amoSize w)))

def execVamoMax (d base c : BitVec 5) (km : BitVec 3) (y : BitVec 1) (pol : BitVec 2) (w : BitVec 1) (s : State) :
    Host.Outcome State Fault Refusal :=
  .next (s.vamo (.vamoMax d base c km y pol w) d base c km 2 (amoSize w) (intTag (amoSize w)))

def execVamoFadd (d base c : BitVec 5) (km : BitVec 3) (y : BitVec 1) (pol : BitVec 2) (s : State) :
    Host.Outcome State Fault Refusal :=
  .next (s.vamo (.vamoFadd d base c km y pol) d base c km 3 4 (fun t => decide (t = .fp32)))

/-! ## GCSLP (R249, R250) -/

def isAddrTag (t : Tag) : Bool := decide (t = .i64) || decide (t = .n64)
def isWordTag (t : Tag) : Bool := decide (t = .i32) || decide (t = .n32) || decide (t = .i64) || decide (t = .n64)

/-- One evaluation: which of the armed locations hold the expected value. -/
def State.evaluate (s : State) (W : Nat) (va vb : VReg) : List (Nat × Nat) → Got (List Nat)
  | [] => .ok [] s
  | (e, pa) :: ps =>
    (s.readPa pa W).bind fun bs s1 => (State.evaluate s1 W va vb ps).bind fun es s2 =>
      .ok (if ofBytes bs = vb.elem W e then e :: es else es) s2

/-- kd below VL holds the satisfied elements; bits at and above VL stay. -/
def satMask (old : BitVec 1024) (vl : Nat) (sat : List Nat) : BitVec 1024 :=
  sat.foldl (fun k e => k ||| (1#1024 <<< e)) (old &&& ~~~(BitVec.ofNat 1024 (2 ^ vl - 1)))

def execGcslp (d : BitVec 3) (a b : BitVec 5) (km : BitVec 3) (all : BitVec 1) (s : State) : Host.Outcome State Fault Refusal :=
  .next (s.onCore (.gcslp d a b km all) fun s => s.irrevocably fun s =>
    let c := s.me
    let va := c.v a
    let vb := c.v b
    let vl := c.csr.vl
    if 64 < vl || !isAddrTag va.tag || !isWordTag vb.tag then s.vIllegal
    else
      let W := vb.tag.width
      let es := (List.range vl).filter (fun e => bitOf (c.k km) e)
      let ea (e : Nat) : Word := BitVec.ofNat 64 (va.elem 8 e)
      let r := s.checkElems .load W ea es
      if r.1.stalled then r.2.hold .poll
      else match r.1.bad with
      | (e, cause) :: _ => r.2.elemFails cause (ea e) (epxOf 8 (r.1.bad.map (·.1)))
      | [] =>
        (State.evaluate r.2 W va vb r.1.good).finish fun sat s =>
          if es.isEmpty || (all = 0 && !sat.isEmpty) || (all = 1 && decide (sat.length = es.length)) then
            ((r.1.good.foldl (fun t p => t.acquireLine 7 (ea p.1) p.2) s).upd (fun c => (fun c : Ctx => { (c.setK d (satMask (c.k d) vl sat)) with watch := [], woken := false }) (c.count 8 (s.qspmCount r.1.good)))).vdone
              ⟨false, false, false, .lsu, 8, vl, c.k km, lowestActive (c.k km) vl ea, highestActive (c.k km) vl ea, .elems⟩
          else (s.upd (fun c => { c.count 8 (s.qspmCount r.1.good) with watch := r.1.good.map (fun p => p.2 / 64), woken := false })).hold .sleep)

/-- GCSLP_WAKE (R249): after a write to a watched sector the instruction evaluates afresh. -/
def execGcslpWake (u : CtxId) (s : State) : Host.Outcome State Fault Refusal :=
  .next (
    let c := s.ctx u
    if c.wait = some .sleep && c.woken then s.setCtx u { c with wait := some .poll, woken := false, watch := [] } else s)

end Sys2Proof.Machine
end

