-- ==== Sys2Proof/Machine/Copies.lean ====
section
/-! DEFINITION. Copies and waits of majors 0x25 and 0x26, WTML apart, and the copy engine (05_memory_access.md R117-R121). -/

namespace Sys2Proof.Machine

/-! ## CPY and CPY2 (R117) -/

def overlaps (a m b n : Nat) : Bool := decide (a < b + n) && decide (b < a + m)

/-- Copies of the core of a unit, and of its quad. -/
def State.copiesOf (s : State) (d : Fin 8) (unit : Nat) : Nat :=
  ((List.range 4).map (fun k => (s.ctx (mkCtxId d.val unit k)).copies.length)).sum

def State.copiesOfQuad (s : State) (d : Fin 8) (q : Nat) : Nat :=
  ((List.range 4).map (fun i => s.copiesOf d (4 * q + i))).sum + s.copiesOf d (128 + q)

/-- Whether a copy with this tag finds its tag free and an engine entry (R117, R119). -/
def State.copyReady (s : State) (tag : BitVec 6) : Bool :=
  s.me.copies.all (fun c => decide (c.tag ≠ tag)) && decide (s.copiesOf s.cur.die s.cur.unit.val < 16) &&
  decide (s.copiesOfQuad s.cur.die s.cur.quad < 64)

/-- Issuing a copy of `rows` rows; an empty one completes at issue. Each row is debited by its 64-byte parts (log 128). -/
def State.startCopy (s : State) (tag : BitVec 6) (dst src : Word) (rows rowlen spitch dpitch : Nat) : State :=
  if !s.copyReady tag then s.hold .poll
  else if rows = 0 || rowlen = 0 then (s.upd (fun c => { c with trb := c.trb ||| (1#64 <<< tag.toNat) })).advance
  else
    let c := s.me
    ((s.upd (fun c => { c with trb := c.trb &&& ~~~(1#64 <<< tag.toNat) })).debit s.cur (4 * (rows * ((rowlen + 63) / 64)))).upd (fun d => { (d.advance) with
      copies := c.copies ++ [{
        tag := tag
        dst := dst
        src := src
        rows := rows
        rowlen := rowlen
        spitch := spitch
        dpitch := dpitch
        ptroot := c.csr.ptroot
        sup := c.sup
        rin := c.rin
        row := 0
        off := 0 }] })

def execCpy (tag : BitVec 6) (a b c : BitVec 5) (s : State) : Host.Outcome State Fault Refusal :=
  .next (s.sealGate fun s => s.irrevocably fun s =>
    let n := (s.x c).toNat
    if 2 ^ 32 < n || (decide (0 < n) && overlaps (s.x a).toNat n (s.x b).toNat n) then s.illegalOperand
    else s.startCopy tag (s.x a) (s.x b) 1 n 0 0)

/-- Bytes from the first to the last byte of a footprint. -/
def spanOf (rows rowlen pitch : Nat) : Nat := if rows = 0 || rowlen = 0 then 0 else (rows - 1) * pitch + rowlen

def execCpy2 (tag : BitVec 6) (a b : BitVec 5) (s : State) : Host.Outcome State Fault Refusal :=
  .next (s.sealGate fun s => s.irrevocably fun s =>
    let w := s.me.csr.cpydim
    let rows := field w 0 16
    let rowlen := field w 16 20
    let sp := 64 * field w 36 14
    let dp := 64 * field w 50 14
    let some1 := decide (rows ≠ 0) && decide (rowlen ≠ 0)
    if some1 && overlaps (s.x a).toNat (spanOf rows rowlen dp) (s.x b).toNat (spanOf rows rowlen sp) then s.illegalOperand
    else if 1 < rows && decide (dp < rowlen) then s.illegalOperand
    else s.startCopy tag (s.x a) (s.x b) rows rowlen sp dp)

/-! ## The engine (R117-R119) -/

/-- How far a run of the copy engine comes. -/
inductive CopyRun where
  | done (s : State)
  | fault (cause : BitVec 8) (va : Word) (s : State)
  | blocked (c : Copy) (s : State)
  | poisoned (s : State)

/-- The physical pieces of a source range, checked in ascending order. -/
def State.copySource (s : State) (v : Viewer) : List (Word × Nat) → Except (BitVec 8 × Word) (List (Nat × Nat)) × State
  | [] => (.ok [], s)
  | (va, n) :: ps =>
    match s.check v .copySrc false va 1 with
    | (.error c, s1) => (.error (c, va), s1)
    | (.ok m, s1) =>
      match State.copySource s1 v ps with
      | (.ok r, s2) => (.ok ((m.pa, n) :: r), s2)
      | (.error e, s2) => (.error e, s2)

/-- Running a copy piece by piece, in ascending order of destination: each piece lies in one sector. -/
def State.runCopy (u : CtxId) : Nat → State → Copy → CopyRun
  | 0, s, c => .blocked c s
  | fuel + 1, s, c =>
    if c.rows ≤ c.row then .done s
    else
      let v : Viewer := ⟨u.die, u.unit.val, c.sup, c.ptroot⟩
      let dva := c.dst + BitVec.ofNat 64 (c.row * c.dpitch + c.off)
      let sva := c.src + BitVec.ofNat 64 (c.row * c.spitch + c.off)
      let n := min (c.rowlen - c.off) (64 - dva.toNat % 64)
      match s.copySource v (pieces sva n) with
      | (.error e, s1) => if e.1 = causeStall then .blocked c s1 else if e.1 = causeUncorrectable then .poisoned s1 else .fault e.1 e.2 s1
      | (.ok src, s1) =>
        match s1.check v .copyDst false dva 1 with
        | (.error e, s2) => if e = causeStall then .blocked c s2 else if e = causeUncorrectable then .poisoned s2 else .fault e dva s2
        | (.ok m, s2) =>
          if src.any (fun p => s2.isPoisoned p.1 p.2) then .poisoned s2
          else if !s2.mayLog c.rin m.pa n then .blocked c (s2.askLog c.rin m.pa n)
          else
            let bs := src.flatMap (fun p => memRead s2.mem p.1 p.2)
            let s3 := src.foldl (fun t p => t.touchRegion u.die.val p.1 false) s2
            let s4 := ((s3.store none c.rin m.pa bs).touchRegion u.die.val m.pa true).updCtx u (fun x =>
              x.count 8 (((src.map (fun p => s2.qspmAccess p.1)).sum) + s2.qspmAccess m.pa))
            State.runCopy u fuel s4 (if c.off + n < c.rowlen then { c with off := c.off + n } else { c with row := c.row + 1, off := 0 })

/-- A copy is over: its tag is ready and its count falls. -/
def State.endCopy (s : State) (u : CtxId) (n : Nat) (c : Copy) : State :=
  s.updCtx u (fun x => { x with copies := removeAt x.copies n, trb := x.trb ||| (1#64 <<< c.tag.toNat) })

/-- Only the first pending copy fault is kept (R118). -/
def Ctx.addCopyFault (c : Ctx) (cause : BitVec 8) (va : Word) (tag : BitVec 6) : Ctx :=
  match c.copyFault with
  | some _ => c
  | none => { c with copyFault := some ⟨cause, va, tag⟩ }

/-- COPY_COMPLETE: the engine runs copy `n` of a context to its end or to its fault; where the undo log is full it goes
on later from the piece it has reached. -/
def execCopyComplete (u : CtxId) (n : Nat) (s : State) : Host.Outcome State Fault Refusal :=
  .next (match (s.ctx u).copies[n]? with
    | none => s
    | some c =>
      match State.runCopy u ((c.rows - c.row) * (c.rowlen / 64 + 2) + 1) s c with
      | .done s1 => s1.endCopy u n c
      | .fault cause va s1 => (s1.endCopy u n c).updCtx u (fun x => x.addCopyFault cause va c.tag)
      | .blocked c1 s1 => s1.updCtx u (fun x => { x with copies := replaceAt x.copies n c1 })
      | .poisoned s1 => (s1.endCopy u n c).haltPoisoned u)

/-! ## Waits (R118, R120) -/

def Ctx.copyFaultIn (c : Ctx) (mask : Word) : Bool :=
  match c.copyFault with
  | none => false
  | some f => bitOf mask f.tag.toNat

/-- Raising, in this order, what a wait covers of the pending copy, tile and message faults (R358). -/
def State.raiseCovered (s : State) (copy tile msg : Bool) (f : State → State) : State :=
  let g2 (s : State) : State := if msg then s.raiseMsgFault f else f s
  let g1 (s : State) : State := if tile then s.raiseTileFault g2 else g2 s
  if copy then s.raiseCopyFault g1 else g1 s

/-- A wait on tags: it covers the copy fault whose tag its mask includes. -/
def State.waitTags (s : State) (mask : Word) (ok : Bool) : State :=
  match s.me.wait with
  | some (.covers _ _ _) => if !ok then s.hold (.covers true false false) else s.raiseCovered (s.me.copyFaultIn mask) false false State.advance
  | some .poll | some .allowance | some .energy | some .eventUnit | some .barrier | some .sleep | some .bind | some .hub
  | some .commit | some .sealing | none =>
    s.raiseCovered (s.me.copyFaultIn mask) false false fun s => if ok then s.advance else s.hold (.covers true false false)

def execWtany (a : BitVec 5) (s : State) : Host.Outcome State Fault Refusal :=
  .next (s.irrevocably fun s =>
    if s.x a = 0 then s.illegalOperand else s.waitTags (s.x a) (decide (s.me.trb &&& s.x a ≠ 0)))

def execWtall (a : BitVec 5) (s : State) : Host.Outcome State Fault Refusal :=
  .next (s.irrevocably fun s => s.waitTags (s.x a) (decide (s.me.trb &&& s.x a = s.x a)))

def lowestTag (w : Word) : Nat := ((List.range 64).find? (fun i => bitOf w i)).getD 64

def execFfrdy (a c : BitVec 5) (s : State) : Host.Outcome State Fault Refusal :=
  .next (s.irrevocably fun s => s.raiseCovered (s.me.copyFaultIn (s.x a)) false false fun s =>
    s.retire c (BitVec.ofNat 64 (lowestTag (s.me.trb &&& s.x a))))

def execTrbclr (a : BitVec 5) (s : State) : Host.Outcome State Fault Refusal :=
  .next (s.irrevocably fun s => (s.upd (fun c => { c with trb := c.trb &&& ~~~(s.x a) })).advance)

/-- WAITC: a class whose limit lies below its count at issue makes the wait cover that class's faults (R118, R278); tile faults
it covers always (R213). -/
def execWaitc (nl ns nc nt : BitVec 5) (s : State) : Host.Outcome State Fault Refusal :=
  .next (s.irrevocably fun s =>
    let c := s.me
    let loads := s.loadCount s.cur
    let stores := s.storeCount s.cur
    let tiles := c.tile.queue.length
    let ok := decide (loads ≤ nl.toNat) && decide (stores ≤ ns.toNat) && decide (c.copies.length ≤ nc.toNat) && decide (tiles ≤ nt.toNat)
    match c.wait with
    | some (.covers x y z) => if ok then s.raiseCovered x y z State.advance else s.hold (.covers x y z)
    | some .poll | some .allowance | some .energy | some .eventUnit | some .barrier | some .sleep | some .bind | some .hub
    | some .commit | some .sealing | none =>
      let x := decide (nc.toNat < c.copies.length)
      let y := true
      let z := decide (ns.toNat < stores) || decide (nl.toNat < loads)
      s.raiseCovered x y z fun s => if ok then s.advance else s.hold (.covers x y z))

end Sys2Proof.Machine
end

