-- ==== Sys2Proof/Machine/Tile.lean ====
section
/-! DEFINITION. The tile instructions of majors 0x27 and 0x28, WTML, and the running of queued tile operations
(08_tile.md R204-R230, 03_number_formats.md R75-R84). -/

namespace Sys2Proof.Machine

/-! ## QSPM by offset (R206) -/

def qspmSize : Nat := 0x400000

/-- Physical address of an offset in the QSPM of a context's quad. -/
def qspmPa (u : CtxId) (off : Nat) : Nat := qspmBase u.die.val u.quad + off

/-! ## Formats (R207) -/

/-- An operand combination: K-group, K limit, element width. -/
structure MmaShape where
  kg    : Nat
  limit : Nat
  width : Nat
deriving DecidableEq, Repr

def tfmtA (c : Ctx) : Nat := field c.csr.tfmt 0 4
def tfmtB (c : Ctx) : Nat := field c.csr.tfmt 4 4
def tfmtC (c : Ctx) : Nat := field c.csr.tfmt 8 4

def mmaShape (c : Ctx) : Option MmaShape :=
  if tfmtA c ≠ tfmtB c then none
  else if tfmtA c = 11 && tfmtC c = 11 then some ⟨2, 64, 4⟩
  else if (tfmtA c = 9 || tfmtA c = 10) && tfmtC c = 11 then some ⟨8, 128, 2⟩
  else if tfmtA c = 1 && tfmtC c = 3 then some ⟨32, 256, 1⟩
  else if tfmtA c = 12 && tfmtC c = 11 then some ⟨32, 256, 1⟩
  else none

/-- CFMT as a format bit: true for I32. -/
def cIsInt (c : Ctx) : Bool := decide (tfmtC c = 3)

def pitchOf (c : Ctx) : Nat := field c.csr.apitch 0 16
def rlenOf (c : Ctx) : Nat := field c.csr.apitch 16 9
def spitchOf (c : Ctx) : Nat := field c.csr.apitch 32 16

def sclOff (w : Word) : Nat := field w 0 22
def sclPer (w : Word) : Bool := bitOf w 63
def sclLen (w : Word) : Nat := if sclPer w then 256 else 4

/-- A tile mask: k0 reads as all ones (R205). -/
def Tile.k (t : Tile) (r : BitVec 3) : BitVec 256 := if r = 0 then BitVec.allOnes 256 else t.masks[r.toNat]'r.isLt

/-- The retained K indices (R222). -/
def retained (mask : BitVec 256) (k : Nat) : List Nat := (List.range k).filter (fun j => bitOf mask j)

def Tile.acc (t : Tile) (n : BitVec 2) : Acc := t.accs[n.toNat]'n.isLt
def Tile.setAcc (t : Tile) (n : BitVec 2) (a : Acc) : Tile := { t with accs := t.accs.set n.toNat a n.isLt }

def State.updTile (s : State) (u : CtxId) (f : Tile → Tile) : State := s.updCtx u (fun c => { c with tile := f c.tile })

/-- Element `e` of an accumulator; one that is not live reads as zero (R205). -/
def Acc.elem (a : Acc) (e : Nat) : Nat := if a.live then field a.data (32 * e) 32 else 0

/-- A number of little-endian fields of `w` bits, the first lowest. -/
def packElems (w : Nat) : List Nat → Nat
  | [] => 0
  | x :: xs => x % 2 ^ w + 2 ^ w * packElems w xs

/-! ## Issue (R212-R214) -/

/-- A tile instruction at issue: on a QCC only, a pending tile fault first (R213). -/
def State.tileInstr (s : State) (i : Instr) (f : State → State) : State := s.onQcc i fun s => s.raiseTileFault f

/-- A tile operation does not issue while the queue is full. -/
def State.queued (s : State) (f : State → State) : State := if 8 ≤ s.me.tile.queue.length then s.hold .poll else f s

/-- A tile operation enters the queue; all but TZERO take the next number. -/
def State.enqueue (s : State) (acc : BitVec 2) (k : TileKind) : State :=
  let t := s.me.tile
  let num : Option Word := if k = .zero then none else some (t.issue + 1)
  let op : TileOp := {
    num := num
    order := s.seq
    acc := acc
    kind := k
    started := false
    done := false
    flags := 0
    rows := none
    reads := []
    writes := []
    owed := []
    half := false }
  { s.updTile s.cur (fun t => { t with queue := t.queue ++ [op], issue := num.getD t.issue }) with seq := s.seq + 1 }.advance

/-- TGATH (R218). LV and LLEN are set at issue. -/
def execTgath (a b : BitVec 5) (s : State) : Host.Outcome State Fault Refusal :=
  .next (s.tileInstr (.tgath a b) fun s => s.queued fun s =>
    let x := s.x a
    let y := s.x b
    if x.toNat % 2 ≠ 0 then s.raise causeMisaligned x
    else if qspmSize < x.toNat + 128 then s.raise causeRange x
    else if y.toNat % 8 ≠ 0 then s.raise causeMisaligned y
    else if qspmSize ≤ y.toNat then s.raise causeRange y
    else (s.updTile s.cur (fun t => { t with lv := true, llen := rlenOf s.me })).enqueue 0 (.gath x.toNat y.toNat))

/-- TLDK (R219): not queued. -/
def execTldk (km : BitVec 3) (a : BitVec 5) (s : State) : Host.Outcome State Fault Refusal :=
  .next (s.tileInstr (.tldk km a) fun s =>
    let x := s.x a
    if x.toNat % 32 ≠ 0 then s.raise causeMisaligned x
    else if qspmSize < x.toNat + 32 then s.raise causeRange x
    else if km = 0 then s.advance
    else (s.readPa (qspmPa s.cur x.toNat) 32).finish fun bs s =>
      ((s.updTile s.cur (fun t => { t with masks := t.masks.set km.toNat (BitVec.ofNat 256 (ofBytes bs)) km.isLt })).upd
        (fun c => c.count 8 1)).advance)

def execTzero (acc : BitVec 2) (s : State) : Host.Outcome State Fault Refusal :=
  .next (s.tileInstr (.tzero acc) fun s => s.queued fun s =>
    if tfmtC s.me = 0 then s.illegalOperand else s.enqueue acc .zero)

/-- An accumulator's format as the older queued operations will leave it: not live, live with a format, or depending on
a queued TACCR. -/
inductive AccView where
  | empty
  | live (int : Bool)
  | unknown
deriving DecidableEq, Repr

def AccView.after (v : AccView) (int : Bool) (op : TileOp) : AccView :=
  match op.kind with
  | .gath _ _ => v
  | .zero => .live int
  | .mma _ _ _ _ => .live int
  | .st _ _ => v
  | .accr _ _ => if v = .empty then .unknown else v

/-- Whether an operation's effect on its accumulator has come about. A started TACCR adds when its request is served. -/
def TileOp.performed (op : TileOp) : Bool :=
  op.done || (op.started && (match op.kind with
    | .gath _ _ => true
    | .zero => true
    | .mma _ _ _ _ => true
    | .st _ _ => true
    | .accr _ _ => false))

def TileOp.names (op : TileOp) (acc : BitVec 2) : Bool :=
  decide (op.acc = acc) && (match op.kind with
    | .gath _ _ => false
    | .zero => true
    | .mma _ _ _ _ => true
    | .st _ _ => true
    | .accr _ _ => true)

def Ctx.accView (c : Ctx) (acc : BitVec 2) : AccView :=
  (c.tile.queue.filter (fun op => op.names acc && !op.performed)).foldl (fun v op => v.after (cIsInt c) op)
    (if (c.tile.acc acc).live then .live (c.tile.acc acc).int else .empty)

/-- The checks of R221 on the scale records' places, SCLA before SCLB in each check. -/
def State.sclChecks (s : State) (c : Ctx) (f : State → State) : State :=
  if tfmtA c ≠ 12 then f s
  else if sclOff c.csr.scla % 4 ≠ 0 then s.raise causeMisaligned (BitVec.ofNat 64 (sclOff c.csr.scla))
  else if sclOff c.csr.sclb % 4 ≠ 0 then s.raise causeMisaligned (BitVec.ofNat 64 (sclOff c.csr.sclb))
  else if qspmSize < sclOff c.csr.scla + sclLen c.csr.scla then s.raise causeRange (BitVec.ofNat 64 (sclOff c.csr.scla))
  else if qspmSize < sclOff c.csr.sclb + sclLen c.csr.sclb then s.raise causeRange (BitVec.ofNat 64 (sclOff c.csr.sclb))
  else f s

/-- TMMA (R221): the checks at issue, in their order. -/
def execTmma (acc : BitVec 2) (km : BitVec 3) (a b : BitVec 5) (s : State) : Host.Outcome State Fault Refusal :=
  .next (s.tileInstr (.tmma acc km a b) fun s => s.queued fun s =>
    let c := s.me
    let k := (s.x b).toNat
    match mmaShape c with
    | none => s.illegalOperand
    | some m =>
      let p := (retained (c.tile.k km) k).length
      if k < m.kg || decide (m.limit < k) || decide (k % m.kg ≠ 0) then s.illegalOperand
      else if !c.tile.lv || decide (c.tile.llen < k * m.width) then s.illegalOperand
      else if c.accView acc = .live (!cIsInt c) then s.illegalOperand
      else if (s.x a).toNat % 64 ≠ 0 then s.raise causeMisaligned (s.x a)
      else if qspmSize ≤ (s.x a).toNat || decide (qspmSize < (s.x a).toNat + p * 64 * m.width) then s.raise causeRange (s.x a)
      else s.sclChecks c fun s =>
        s.enqueue acc (.mma (s.x a).toNat k (c.tile.k km) (decide (c.accView acc = .unknown))))

/-- TST (R223): checks at issue; its writes carry the interval's RIN, so it is held while SEALING (R321). -/
def execTst (acc : BitVec 2) (a : BitVec 5) (tag : BitVec 4) (s : State) : Host.Outcome State Fault Refusal :=
  .next (s.onQcc (.tst acc a tag) fun s => s.sealGate fun s => s.raiseTileFault fun s => s.queued fun s =>
    let x := s.x a
    let sp := spitchOf s.me
    match Tag.ofCode tag.toNat with
    | none => s.illegal (.tst acc a tag)
    | some t =>
      let W := t.width
      if W = 0 then s.illegal (.tst acc a tag)
      else if x.toNat % W ≠ 0 then s.raise causeMisaligned x
      else if sp % W ≠ 0 then s.raise causeMisaligned (BitVec.ofNat 64 sp)
      else if sp < 64 * W then s.illegalOperand
      else if qspmSize < x.toNat + 63 * sp + 64 * W then s.raise causeRange x
      else s.enqueue acc (.st t x.toNat))

/-- TRD (R224): waits for the older operations that name the accumulator. -/
def execTrd (acc : BitVec 2) (a b : BitVec 5) (s : State) : Host.Outcome State Fault Refusal :=
  .next (s.tileInstr (.trd acc a b) fun s =>
    let e := (s.x b).toNat
    let t := s.me.tile
    if 4095 < e then s.illegalOperand
    else if t.queue.any (fun op => op.names acc && !op.done) then s.hold .poll
    else s.retire a (if (t.acc acc).int then signExtend64 32 ((t.acc acc).elem e) else BitVec.ofNat 64 ((t.acc acc).elem e)))

/-- TACCR (R225): the checks at issue. -/
def execTaccr (acc : BitVec 2) (a : BitVec 5) (s : State) : Host.Outcome State Fault Refusal :=
  .next (s.tileInstr (.taccr acc a) fun s => s.queued fun s =>
    let x := s.x a
    if 31 < x.toNat || decide (x.toNat = s.cur.quad) then s.illegalOperand
    else if s.partOf s.cur.die x.toNat ≠ s.partOfCtx s.cur then s.raise causePermission x
    else s.enqueue acc (.accr x.toNat none))

def execTseq (a : BitVec 5) (s : State) : Host.Outcome State Fault Refusal :=
  .next (s.tileInstr (.tseq a) fun s => s.retire a s.me.tile.issue)

/-- WTML (R227). -/
def execWtml (a b : BitVec 5) (s : State) : Host.Outcome State Fault Refusal :=
  .next (s.irrevocably fun s =>
    let x := s.x a
    if field x 6 58 ≠ 0 then s.illegalOperand
    else if (s.x b).toNat ≤ (s.ctx (mkCtxId s.cur.die.val (128 + field x 0 5) (field x 5 1))).tile.tln.toNat then s.advance
    else s.hold .poll)

/-! ## Matrix sums (R81-R84) -/

/-- A product of a K-group: a NaN (signalling operand or not), 0 × ∞, an infinity, a finite value. -/
inductive Prod where
  | nan (sig : Bool)
  | invalid
  | inf (neg : Bool)
  | fin (d : Dyadic)
deriving DecidableEq, Repr

def floatProd (x y : FVal) : Prod :=
  if x.isNan || y.isNan then .nan (x.isSignalling || y.isSignalling)
  else if (x.isZero && y.isInf) || (x.isInf && y.isZero) then .invalid
  else if x.isInf || y.isInf then .inf (x.neg != y.neg)
  else .fin (x.dyadic.mul y.dyadic)

/-- The product of two LNS8 codes with the scale exponents their selectors name. -/
def lnsProd (sa sb : Int) (x y : LVal) : Prod :=
  match x, y with
  | .nan, _ => .nan false
  | _, .nan => .nan false
  | .zero, _ => .fin .zero
  | _, .zero => .fin .zero
  | .fin n1 l1, .fin n2 l2 =>
    let d := lnsMagnitude (l1 + l2) (sa + sb)
    .fin (if n1 != n2 then ⟨-d.n, d.e⟩ else d)

/-- The lowest K index for which the infinite products up to it hold both signs. -/
def secondSign (seen : Option Bool) : List (Nat × Prod) → Option Nat
  | [] => none
  | (j, p) :: ps =>
    match p with
    | .inf neg => (match seen with
      | none => secondSign (some neg) ps
      | some n => if n = neg then secondSign seen ps else some j)
    | .nan _ => secondSign seen ps
    | .invalid => secondSign seen ps
    | .fin _ => secondSign seen ps

def Prod.bad : Prod → Bool
  | .nan _ => true
  | .invalid => true
  | .inf _ => false
  | .fin _ => false

def Prod.raisesNv : Prod → Bool
  | .nan sig => sig
  | .invalid => true
  | .inf _ => false
  | .fin _ => false

def Prod.value : Prod → Dyadic
  | .nan _ => .zero
  | .invalid => .zero
  | .inf _ => .zero
  | .fin d => d

def Prod.infSign : Prod → Option Bool
  | .nan _ => none
  | .invalid => none
  | .inf n => some n
  | .fin _ => none

def matrixNan (unit k : Nat) : Nat := 0x7FC00000 + unit % 1024 * 4096 + k % 4096

/-- Whether a product has a signalling NaN among its operands. -/
def Prod.signals : Prod → Bool
  | .nan sig => sig
  | .invalid => false
  | .inf _ => false
  | .fin _ => false

/-- One K-group added to an element (R81, R83). An element that holds a NaN keeps it; a signalling operand still raises NV. -/
def groupStep (unit : Nat) (x : Nat) (ps : List (Nat × Prod)) : Nat × Flags :=
  let v := fp32.read x
  if v.isNan then (x, Flags.when (ps.any (fun p => p.2.signals)) Flags.nv)
  else
    let bad := ((ps.find? (fun p => p.2.bad)).map (·.1)).toList ++ (secondSign none ps).toList
    match bad.min? with
    | some j => (matrixNan unit j, Flags.when ((secondSign none ps).isSome || ps.any (fun p => p.2.raisesNv)) Flags.nv)
    | none =>
      match ps.findSome? (fun p => p.2.infSign) with
      | some neg => if v.isInf && (v.neg != neg) then (matrixNan unit 0xFFF, Flags.nv) else (fp32.inf neg, 0)
      | none =>
        if v.isInf then (x, 0)
        else fp32.roundDyadic .rne (ps.foldl (fun d p => d.add p.2.value) v.dyadic) false

/-- One K-group of I8 products added with saturation (R82). -/
def intStep (x : Nat) (sum : Int) : Nat × Flags := saturate true 32 (signedOf 32 x + sum) Flags.sa

/-- One element of TACCR's sum (R84). -/
def accrElem (unit : Nat) (int : Bool) (x y : Nat) : Nat × Flags :=
  if int then intStep x (signedOf 32 y)
  else
    let v := fp32.read x
    let w := fp32.read y
    let key (n : Nat) : Nat := n % 2 ^ 22
    if v.isNan && w.isNan then (if key y < key x then y else x, 0)
    else if v.isNan then (x, 0)
    else if w.isNan then (y, 0)
    else if v.isInf && w.isInf && (v.neg != w.neg) then (matrixNan unit 0xFFF, Flags.nv)
    else fp32.add .rne v w

/-- Lists of at most `n` consecutive entries. -/
def chunksOf {α : Type} (n : Nat) : Nat → List α → List (List α)
  | 0, _ => []
  | f + 1, l => if l.isEmpty then [] else l.take n :: chunksOf n f (l.drop n)

/-! ## Reading operands in QSPM -/

/-- Byte ranges that an operation reads and writes (R216). -/
abbrev Ranges := List (Nat × Nat)

def rangesMeet (x y : Ranges) : Bool := x.any (fun p => y.any (fun q => decide (p.2 ≠ 0) && decide (q.2 ≠ 0) && overlaps p.1 p.2 q.1 q.2))

/-- Entry `i` of an index table. -/
def State.indexAt (s : State) (u : CtxId) (x i : Nat) : Nat := ofBytes (memRead s.mem (qspmPa u (x + 2 * i)) 2)

def gathRows (s : State) (u : CtxId) (c : Ctx) (x y : Nat) : List (Option Nat) :=
  (List.range 64).map (fun i => if s.indexAt u x i = 0xFFFF then none else some (y + s.indexAt u x i * pitchOf c))

def TileOp.readsNow (s : State) (u : CtxId) (c : Ctx) (op : TileOp) : Ranges :=
  match op.kind with
  | .gath x y => (x, 128) :: (gathRows s u c x y).filterMap (fun o => o.map (fun o => (o, rlenOf c)))
  | .mma b k mask _ =>
    (match mmaShape c with
     | none => []
     | some m => [(b, (retained mask k).length * 64 * m.width)]) ++
    (if tfmtA c = 12 then [(sclOff c.csr.scla, sclLen c.csr.scla), (sclOff c.csr.sclb, sclLen c.csr.sclb)] else [])
  | .zero => []
  | .st _ _ => []
  | .accr _ _ => []

def TileOp.writesNow (c : Ctx) (op : TileOp) : Ranges :=
  match op.kind with
  | .st t a => (List.range 64).map (fun i => (a + i * spitchOf c, 64 * t.width))
  | .gath _ _ => []
  | .zero => []
  | .mma _ _ _ _ => []
  | .accr _ _ => []

def TileOp.isGath (op : TileOp) : Bool :=
  match op.kind with
  | .gath _ _ => true
  | .zero => false
  | .mma _ _ _ _ => false
  | .st _ _ => false
  | .accr _ _ => false

def TileOp.isMma (op : TileOp) : Bool :=
  match op.kind with
  | .mma _ _ _ _ => true
  | .gath _ _ => false
  | .zero => false
  | .st _ _ => false
  | .accr _ _ => false

/-- What an operation reads and writes: of one that has started as it was then, its CSRs having been sampled (R211). -/
def State.tileReads (s : State) (u : CtxId) (c : Ctx) (op : TileOp) : Ranges := if op.started then op.reads else op.readsNow s u c
def TileOp.written (c : Ctx) (op : TileOp) : Ranges := if op.started then op.writes else op.writesNow c

/-- Whether an operation has still to complete and reads QSPM, or writes it, in a way that a younger one must follow (R216). Which
rows a TGATH reads is not known before it starts, since a store may change its index table: a TST follows it. -/
def State.mustFollowBytes (s : State) (u : CtxId) (c : Ctx) (old op : TileOp) : Bool :=
  !old.done && ((old.isGath && !old.started && !(op.writesNow c).isEmpty) || rangesMeet (old.written c) (op.writesNow c) ||
    rangesMeet (s.tileReads u c old) (op.writesNow c) || rangesMeet (old.written c) (op.readsNow s u c))

/-- Whether operation `op`, with `before` the older ones of its context in issue order, need follow none of them (R216).
An operation reads and writes QSPM in the moment it starts, and is complete when it has run. -/
def State.followsNone (s : State) (u : CtxId) (c : Ctx) (before : List TileOp) (op : TileOp) : Bool :=
  before.all (fun old =>
    (old.done || !(op.names old.acc && old.names op.acc)) && !s.mustFollowBytes u c old op) &&
  (if op.isMma then
    (match (before.filter TileOp.isGath).getLast? with
     | none => true
     | some g => g.done)
   else if op.isGath then
    -- the buffer it fills is the one that was filled before the latest older TGATH of the queue
    (match (before.filter TileOp.isGath).getLast? with
     | none => true
     | some g => before.all (fun old => old.done || !old.isMma || decide (g.order < old.order)))
   else true)

/-- The other context of a QCC. -/
def siblingOf (u : CtxId) : CtxId := mkCtxId u.die.val u.unit.val (1 - u.slot.val)

/-- Whether the gather unit or the matrix unit that an operation needs is free, and no older request of the other context
waits for it. A TACCR that waits for its neighbour holds the matrix unit (log 101). -/
def State.unitFree (s : State) (u : CtxId) (op : TileOp) : Bool :=
  let same (o : TileOp) : Bool := decide (o.isGath = op.isGath)
  (s.ctx u).tile.queue.all (fun o => !(same o && o.started && !o.done)) &&
  (s.ctx (siblingOf u)).tile.queue.all (fun o => !(same o && !o.done && (o.started || decide (o.order < op.order))))

/-- A read request of a neighbour's TACCR that reached this context earlier, before which a later operation on that
accumulator waits (R225). -/
def State.readAwaited (s : State) (u : CtxId) (op : TileOp) : Bool :=
  s.ctxs.any (fun kc => decide (kc.1 / 640 = u.die.val) && decide (128 ≤ kc.1 / 4 % 160) && decide (kc.1 % 4 = u.slot.val) &&
    kc.2.tile.queue.any (fun o => !o.done && decide (o.acc = op.acc) && op.names o.acc && (match o.kind with
      | .accr q (some t) => decide (q = u.quad) && decide (t ≤ op.order)
      | .accr _ none => false
      | .gath _ _ => false
      | .zero => false
      | .mma _ _ _ _ => false
      | .st _ _ => false)))

/-- The sectors that an operation writes. -/
def TileOp.sectors (u : CtxId) (c : Ctx) (op : TileOp) : List Nat := ((op.writesNow c).flatMap (fun r => sectorsOf (qspmPa u r.1) r.2)).eraseDups

def State.mayStartOp (s : State) (u : CtxId) (c : Ctx) (before : List TileOp) (op : TileOp) : Bool :=
  !op.started && !op.done && s.followsNone u c before op && s.unitFree u op && !s.readAwaited u op

/-- The operations of a queue that may start now, but for their undo records. -/
def State.startable (s : State) (u : CtxId) (c : Ctx) (before : List TileOp) : List TileOp → List (Nat × TileOp)
  | [] => []
  | op :: ops => (if s.mayStartOp u c before op then [(before.length, op)] else []) ++ State.startable s u c (before ++ [op]) ops

/-! ## Performing an operation -/

/-- A tile fault found at the start of operation `n` (R213): it and every later one that has not started are cancelled
and count as completed; the fault is recorded, and of two the first stands (log 100). -/
def State.tileFault (s : State) (u : CtxId) (n : Nat) (cause : BitVec 8) (off : Nat) : State :=
  s.updTile u (fun t => { t with
    queue := t.queue.mapIdx (fun i op => if i = n || (decide (n < i) && !op.started) then { op with started := true, done := true } else op)
    fault := match t.fault with
      | none => some ⟨cause, BitVec.ofNat 64 off, 0⟩
      | some f => some f })

/-- Operation `n` has started: the flags and rows it has come to, what it reads and writes, and what it debits in each cycle
that it runs. -/
def State.markStarted (s : State) (u : CtxId) (n : Nat) (fl : Flags) (rows : Option (BitVec 131072)) (rd wr : Ranges) (owed : List Nat) : State :=
  s.updTile u (fun t => { t with
    queue := t.queue.mapIdx (fun i op => if i = n then { op with
      started := true
      flags := fl
      rows := rows
      reads := rd
      writes := wr
      owed := owed } else op) })

/-- Sectors of a list of ranges. -/
def sectorsIn (rs : Ranges) : List Nat :=
  ((rs.filter (fun r => decide (r.2 ≠ 0))).flatMap (fun r => (List.range ((r.1 + r.2 - 1) / 64 - r.1 / 64 + 1)).map (r.1 / 64 + ·))).eraseDups

def sectorCount (rs : Ranges) : Nat := (sectorsIn rs).length

/-- The debits of the sectors of a TGATH or TST, two units each, cycle by cycle: every bank serves one sector in a cycle (R206,
R216, R349). -/
def bankCycles (rs : Ranges) : List Nat :=
  let secs := sectorsIn rs
  let counts := (List.range 32).map (fun b => (secs.filter (fun x => decide (x % 32 = b))).length)
  (List.range (counts.foldl max 0)).map (fun k => 2 * (counts.filter (fun n => decide (k < n))).length)

/-- QSPM accesses of a tile operation: the sectors it touches (R381). -/
def State.tileQspm (s : State) (u : CtxId) (rs : Ranges) : State := s.updCtx u (fun c => c.count 8 (sectorCount rs))

def State.rangesPoisoned (s : State) (u : CtxId) (rs : Ranges) : Bool := rs.any (fun r => decide (r.2 ≠ 0) && s.isPoisoned (qspmPa u r.1) r.2)

/-- TGATH at its start (R218): the lowest row beyond QSPM makes a tile fault. -/
def State.startGath (s : State) (u : CtxId) (c : Ctx) (n x y : Nat) (op : TileOp) : State :=
  let rows := gathRows s u c x y
  match rows.findSome? (fun o => o.bind (fun o => if qspmSize < o + rlenOf c then some o else none)) with
  | some o => s.tileFault u n causeRange o
  | none =>
    let rd := op.readsNow s u c
    if s.rangesPoisoned u rd then (s.markStarted u n 0 none rd [] []).haltPoisoned u
    else
      let data := packElems 2048 (rows.map (fun o => match o with
        | none => 0
        | some o => ofBytes (memRead s.mem (qspmPa u o) (rlenOf c))))
      (s.tileQspm u rd).markStarted u n 0 (some (BitVec.ofNat 131072 data)) rd [] (bankCycles rd)

/-- The latch that a TMMA reads: the rows of the latest older TGATH of its queue, else the latch. -/
def Tile.latchFor (t : Tile) (n : Nat) : BitVec 131072 :=
  ((t.queue.take n).reverse.findSome? (fun op => if op.isGath then op.rows else none)).getD t.latch

/-- A scale record: the four scale exponents. -/
def State.sclRecord (s : State) (u : CtxId) (off : Nat) : List Int :=
  (memRead s.mem (qspmPa u off) 4).map (fun b => b.toInt)

/-- The offsets of the records of one set, ascending. -/
def sclOffsets (w : Word) : List Nat := if sclPer w then (List.range 64).map (fun r => sclOff w + 4 * r) else [sclOff w]

/-- The first record that holds a byte outside the scale exponents' range. -/
def State.badRecord (s : State) (u : CtxId) (c : Ctx) : Option Nat :=
  (sclOffsets c.csr.scla ++ sclOffsets c.csr.sclb).find? (fun o => (s.sclRecord u o).any (fun v => decide (v < -32) || decide (31 < v)))

def recordFor (rs : List (List Int)) (r : Nat) : List Int := if rs.length = 1 then rs.getD 0 [] else rs.getD r []

/-- What TMMA reads of an operand element: a float, an LNS8 code with its scale exponent, or an integer. -/
inductive MElem where
  | flt (v : FVal)
  | lns (v : LVal) (sc : Int)
  | int (v : Int)

def MElem.prod (x y : MElem) : Prod :=
  match x, y with
  | .flt a, .flt b => floatProd a b
  | .lns a sa, .lns b sb => lnsProd sa sb a b
  | .flt _, .lns _ _ => .fin .zero
  | .flt _, .int _ => .fin .zero
  | .lns _ _, .flt _ => .fin .zero
  | .lns _ _, .int _ => .fin .zero
  | .int _, _ => .fin .zero

def MElem.intProd (x y : MElem) : Int :=
  match x, y with
  | .int a, .int b => a * b
  | .int _, .flt _ => 0
  | .int _, .lns _ _ => 0
  | .flt _, _ => 0
  | .lns _ _, _ => 0

/-- Reading an operand element by its format tag. -/
def mElem (fmt raw : Nat) (scale : List Int) : MElem :=
  if fmt = 1 then .int (signedOf 8 raw)
  else if fmt = 12 then .lns (LVal.read raw) (scale.getD (raw % 4) 0)
  else if fmt = 9 then .flt (fp16.read raw)
  else if fmt = 10 then .flt (bf16.read raw)
  else .flt (fp32.read raw)

/-- One element of TMMA: its K-groups in ascending order. -/
def mmaElem (unit : Nat) (int : Bool) (kg : Nat) (x : Nat) (ps : List (Nat × MElem × MElem)) : Nat × Flags :=
  (chunksOf kg (ps.length + 1) ps).foldl (fun (acc : Nat × Flags) g =>
    let r := if int then intStep acc.1 ((g.map (fun p => p.2.1.intProd p.2.2)).sum)
      else groupStep unit acc.1 (g.map (fun p => (p.1, p.2.1.prod p.2.2)))
    (r.1, acc.2 ||| r.2)) (x, 0)

/-- All elements of an accumulator, computed one after the other with their flags. -/
def accElems (f : Nat → Nat → Nat × Flags) : Nat × Flags :=
  let es := (List.range 4096).map (fun e => f (e / 64) (e % 64))
  (packElems 32 (es.map (·.1)), es.foldl (fun a e => a ||| e.2) 0)

/-- TMMA at its start (R221, R222). -/
def State.startMma (s : State) (u : CtxId) (c : Ctx) (n b k : Nat) (mask : BitVec 256) (late : Bool) (op : TileOp) : State :=
  match mmaShape c with
  | none => s.markStarted u n 0 none [] [] []
  | some m =>
    let a := c.tile.acc op.acc
    let rd := op.readsNow s u c
    if late && a.live && (a.int != cIsInt c) then s.tileFault u n causeIllegalOperand b
    else if s.rangesPoisoned u rd then (s.markStarted u n 0 none rd [] []).haltPoisoned u
    else match (if tfmtA c = 12 then s.badRecord u c else none) with
      | some off => s.tileFault u n causeIllegalOperand off
      | none =>
        let js := retained mask k
        let latch := c.tile.latchFor n
        let ra := (sclOffsets c.csr.scla).map (s.sclRecord u)
        let rb := (sclOffsets c.csr.sclb).map (s.sclRecord u)
        let bdata := BitVec.ofNat (512 * js.length * m.width) (ofBytes (memRead s.mem (qspmPa u b) (64 * js.length * m.width)))
        let w := 8 * m.width
        let el (i col : Nat) : Nat × Flags :=
          mmaElem u.unit.val (cIsInt c) m.kg (a.elem (64 * i + col)) (js.mapIdx (fun p j =>
            (j, mElem (tfmtA c) (field latch (2048 * i + w * j) w) (recordFor ra i),
              mElem (tfmtB c) (field bdata (w * (64 * p + col)) w) (recordFor rb col))))
        let r := accElems el
        let steps := (js.length + m.kg - 1) / m.kg
        ((s.updTile u (fun t => t.setAcc op.acc ⟨true, cIsInt c, BitVec.ofNat 131072 r.1⟩)).tileQspm u rd).markStarted u n r.2 none rd []
          (List.replicate steps 64)

/-- TST at its start (R223): 64 rows, converted with RNE. -/
def State.startSt (s : State) (u : CtxId) (c : Ctx) (n : Nat) (t : Tag) (off : Nat) (op : TileOp) : State :=
  let a := c.tile.acc op.acc
  let src : Tag := if a.int then .i32 else .fp32
  let conv (e : Nat) : Nat × Flags := if a.live then convertElem .rne src t 0 0 0 (a.elem e) else ((if t = .lns8 then lnsZero else 0), 0)
  let rows := (List.range 64).map (fun i => (i, (List.range 64).map (fun col => conv (64 * i + col))))
  let s1 := rows.foldl (fun (s : State) row =>
    s.store none c.rin (qspmPa u (off + row.1 * spitchOf c)) (bytesOf (64 * t.width) (packElems (8 * t.width) (row.2.map (·.1))))) s
  let fl := rows.foldl (fun f row => row.2.foldl (fun f e => f ||| e.2) f) (0 : Flags)
  (s1.tileQspm u (op.writesNow c)).markStarted u n fl none [] (op.writesNow c) (bankCycles (op.writesNow c))

/-- Starting operation `n` of a context (R216). -/
def State.startOp (s : State) (u : CtxId) (c : Ctx) (n : Nat) (op : TileOp) : State :=
  match op.kind with
  | .gath x y => s.startGath u c n x y op
  | .zero => ((s.updTile u (fun t => t.setAcc op.acc ⟨true, cIsInt c, 0⟩)).debit u 8).markStarted u n 0 none [] [] []
  | .mma b k mask late => s.startMma u c n b k mask late op
  | .st t a => s.startSt u c n t a op
  | .accr q _ =>
    { (s.debit u 256).updTile u (fun t => { t with
        queue := t.queue.mapIdx (fun i op => if i = n then { op with started := true, kind := .accr q (some s.seq) } else op) }) with
      seq := s.seq + 1 }

/-- TILE_OP_START. -/
def execTileOpStart (u : CtxId) (s : State) : Host.Outcome State Fault Refusal :=
  .next (
    let c := s.ctx u
    let ops := s.startable u c [] c.tile.queue
    match ops.find? (fun p => s.mayLogAll c.rin (p.2.sectors u c)) with
    | some (n, op) => s.startOp u c n op
    | none => (ops.take 1).foldl (fun t p => t.askLogAll c.rin (p.2.sectors u c)) s)

/-- Whether the QCC of a quad answers a read request of partition `p` that came at moment `asked`: a stopped one does so only
for what its own switch has to complete, and for what reached it before (R228, R367). -/
def State.serves (s : State) (d : Fin 8) (q p asked : Nat) : Bool :=
  let x := s.part (s.partOf d q)
  match x.pstate with
  | .free => true
  | .running => true
  | .switching => x.restored.isNone && (decide (s.partOf d q = p) || decide (asked < x.stopSeq))
  | .saved => false

/-- TACCR_READ_SERVE (R225): the neighbour's accumulator is read and added. -/
def State.serve (s : State) (u : CtxId) (n : Nat) (op : TileOp) (q asked : Nat) : State :=
  let v := mkCtxId u.die.val (128 + q) u.slot.val
  let t := (s.ctx v).tile
  let mine := (s.ctx u).tile.acc op.acc
  let his := t.acc op.acc
  if !s.serves u.die q (s.partOfCtx u) asked || t.queue.any (fun o => o.names op.acc && !o.done && decide (o.order < asked)) then s
  else if mine.live && his.live && (mine.int != his.int) then s.tileFault u n causeIllegalOperand 0
  else
    let int := if mine.live then mine.int else his.int
    let r := accElems (fun i col => accrElem u.unit.val int (mine.elem (64 * i + col)) (his.elem (64 * i + col)))
    (s.updTile u (fun t =>
      let t1 := if mine.live || his.live then t.setAcc op.acc ⟨true, int, BitVec.ofNat 131072 r.1⟩ else t
      { t1 with queue := t1.queue.mapIdx (fun i op => if i = n then { op with flags := r.2, rows := some 0 } else op) }))

/-- Whether an operation is a TACCR whose request waits to be served. A served one is marked by its `rows`. -/
def TileOp.unserved (op : TileOp) : Option (Nat × Nat) :=
  match op.kind with
  | .accr q (some t) => if op.started && !op.done && op.rows.isNone then some (q, t) else none
  | .accr _ none => none
  | .gath _ _ => none
  | .zero => none
  | .mma _ _ _ _ => none
  | .st _ _ => none

def firstUnserved : List TileOp → Nat → Option (Nat × TileOp × Nat × Nat)
  | [], _ => none
  | op :: ops, i =>
    match op.unserved with
    | some (q, t) => some (i, op, q, t)
    | none => firstUnserved ops (i + 1)

def execTaccrReadServe (u : CtxId) (s : State) : Host.Outcome State Fault Refusal :=
  .next (match firstUnserved (s.ctx u).tile.queue 0 with
    | none => s
    | some (n, op, q, t) => s.serve u n op q t)

/-- Reporting completed operations in issue order (R214): TLN advances, flags merge, the latch takes gathered rows. -/
def Ctx.report : Nat → Ctx → Ctx
  | 0, c => c
  | fuel + 1, c =>
    match c.tile.queue with
    | [] => c
    | op :: rest =>
      if !op.done then c
      else Ctx.report fuel { (c.orF op.flags) with
        tile := { c.tile with
          queue := rest
          tln := op.num.getD c.tile.tln
          latch := if op.isGath then op.rows.getD c.tile.latch else c.tile.latch } }

def finishFirst : List TileOp → List TileOp
  | [] => []
  | op :: ops => if op.started && !op.done && op.unserved.isNone && op.owed.isEmpty then { op with done := true } :: ops else op :: finishFirst ops

/-- TILE_OP_COMPLETE: the oldest running operation that has no cycle left to debit ends, and what has completed in issue order is reported. -/
def execTileOpComplete (u : CtxId) (s : State) : Host.Outcome State Fault Refusal :=
  .next (s.updCtx u (fun c => Ctx.report 8 { c with tile := { c.tile with queue := finishFirst c.tile.queue } }))

/-! ## Cycles (R230, R349, R351) -/

/-- A matrix unit runs TMMA at half rate while its ring's allowance is used up or its quad is hot. -/
def State.halfRate (s : State) (u : CtxId) : Bool := decide ((s.ringOf u).ealw ≤ 0) || decide ((s.quad u.die u.quad).therm = 2)

/-- One cycle of operation `n` of a context. -/
def State.opCycle (u : CtxId) (s : State) (n : Nat) : State :=
  let put (s : State) (op : TileOp) : State := s.updTile u (fun t => { t with queue := t.queue.set n op })
  match (s.ctx u).tile.queue[n]? with
  | none => s
  | some op =>
    match op.owed with
    | [] => s
    | d :: rest =>
      if op.isMma && !op.half && s.halfRate u then put s { op with half := true }
      else put ((s.debit u d).updCtx u (fun c => c.count 12 (if op.isMma then 1 else 0))) { op with owed := rest, half := false }

/-- The contexts whose tile operations run. -/
def State.tileRunning (s : State) : List CtxId :=
  (s.ctxs.filter (fun kc => kc.2.tile.queue.any (fun op => !op.owed.isEmpty))).map (fun kc => ctxOfKey kc.1)

/-- One cycle of every running tile operation of the module. -/
def State.tileCycle (s : State) : State :=
  s.tileRunning.foldl (fun t u => (List.range 8).foldl (State.opCycle u) t) s

def State.tileCycles : Nat → State → State
  | 0, s => s
  | n + 1, s => if s.tileRunning.isEmpty then s else State.tileCycles n s.tileCycle

/-- Cycles pass: tile operations run in them. -/
def State.elapse (s : State) (n : Nat) : State := { State.tileCycles n s with time := s.time + n }

end Sys2Proof.Machine
end

