-- ==== Sys2Proof/Machine/Sync.lean ====
section
/-! DEFINITION. FENCE, barriers, event units and signals of major 0x29 (09_atomics_events.md R239-R248, 11_ordering.md
R294, R295). -/

namespace Sys2Proof.Machine

/-! ## FENCE (R294) -/

def execFence (sc : BitVec 3) (ord : BitVec 2) (s : State) : Host.Outcome State Fault Refusal :=
  .next (s.irrevocably fun s => s.raiseMsgFault fun s =>
    let rel := decide (2 ≤ ord.toNat)
    let acq := decide (ord.toNat % 2 = 1)
    let c := s.me
    if rel && !s.released s.cur sc.toNat then s.hold .poll
    else if acq && !(c.accs.all (·.isStore) && c.vecs.all (fun v => !v.isLoad && !v.atomic)) then s.hold .poll
    else
      let s1 := if acq then s.acquire sc.toNat else s
      (s1.upd (fun c => if rel then { c with relFence := some sc } else c)).advance)

/-! ## Barrier networks (R245-R248) -/

/-- Domain `D` of the `sc` network instance that holds a unit (R246). -/
def State.barKey (s : State) (u : CtxId) (sc idx : Nat) : BarKey :=
  let net : BarNet :=
    if sc = 2 then .quad u.die (mkFin32 u.quad)
    else if sc = 3 then .ring u.die (mkFin32 (s.ringFirst u.die u.quad))
    else if sc = 4 then .die u.die
    else if sc = 5 then .package
    else .pod
  ⟨net, mkFin16 idx⟩

def barKeyNat (b : BarKey) : Nat :=
  16 * (match b.net with
    | .quad d q => 32 * d.val + q.val
    | .ring d f => 256 + 32 * d.val + f.val
    | .die d => 512 + d.val
    | .package => 520
    | .pod => 521) + b.idx.val

def BarDom.reset : BarDom := ⟨false, 0, 0, 0, 0, []⟩

def State.bar (s : State) (b : BarKey) : BarDom := Table.getD s.bars (barKeyNat b) BarDom.reset
def State.setBar (s : State) (b : BarKey) (x : BarDom) : State := { s with bars := Table.put s.bars (barKeyNat b) x }

/-- Position of a package in its pod (R16). -/
def podPos (pkg : BitVec 18) : Nat := field pkg 0 10

/-- The member bit of a unit in a network's mask. -/
def State.memberBit (s : State) (u : CtxId) (b : BarKey) : Nat :=
  match b.net with
  | .quad _ _ => u.unit.val
  | .ring _ _ => u.unit.val
  | .die _ => u.unit.val
  | .package => u.die.val * 160 + u.unit.val
  | .pod => podPos s.pkg

/-- Selecting a barrier domain (R246). -/
def State.selectBar (s : State) (a : BitVec 5) (sc : BitVec 3) (f : BarKey → BarDom → State → State) : State :=
  let b := s.barKey s.cur sc.toNat (field (s.x a) 0 4)
  let x := s.bar b
  if field (s.x a) 4 60 ≠ 0 || !x.en then s.illegalOperand
  else if !bitOf x.members (s.memberBit s.cur b) then s.raise causePermission (s.x a)
  else f b x s

/-- One arrival (R247). It is remembered with its RIN (R251); one outside every domain has RIN 0, which no rollback drops,
so that nothing before it need be kept. -/
def BarDom.arrive (x : BarDom) (rin : BitVec 32) (dom : Bool) : BarDom :=
  let y := if x.arr + 1 = x.n then { x with arr := 0, ph := x.ph + 1 } else { x with arr := x.arr + 1 }
  { y with history := if dom then x.history ++ [(rin, y.ph, y.arr)] else [(0, y.ph, y.arr)] }

def execBararr (d a : BitVec 5) (sc : BitVec 3) (rel : BitVec 1) (s : State) : Host.Outcome State Fault Refusal :=
  .next (s.sealGate fun s => s.irrevocably fun s => s.selectBar a sc fun b x s =>
    if rel = 1 && !s.released s.cur sc.toNat then s.hold .poll
    else (s.setBar b (x.arrive s.me.rin s.me.dom)).retire d (x.ph.setWidth 64))

/-- An arrival of a unit of another package at a barrier domain of the pod, of which its package is a member (R245). -/
def State.podArrive (s : State) (idx : Fin 16) (pos : Nat) (rin : BitVec 32) (dom : Bool) : State :=
  let b : BarKey := ⟨.pod, idx⟩
  let x := s.bar b
  if x.en && bitOf x.members pos && decide (pos ≠ podPos s.pkg) then s.setBar b (x.arrive rin dom) else s

/-- Whether phase `p` of a domain has completed (R248). -/
def BarDom.passed (x : BarDom) (p : Word) : Bool :=
  let k := (x.ph - p.setWidth 32).toNat
  decide (1 ≤ k) && decide (k ≤ 2 ^ 31)

/-- BARWT (R248): the checks of R246 first (log 123). -/
def execBarwt (d a : BitVec 5) (sc : BitVec 3) (s : State) : Host.Outcome State Fault Refusal :=
  .next (s.irrevocably fun s => s.selectBar a sc fun _ x s =>
    if field (s.x d) 32 32 ≠ 0 then s.illegalOperand
    else if x.passed (s.x d) then s.advance
    else s.hold .barrier)

/-- The instruction at a context's PC. -/
def State.instrAt (s : State) (u : CtxId) : Option Instr :=
  match decode (BitVec.ofNat 32 (s.iword u (s.ctx u).pc.toNat)) with
  | .ok i => some i
  | .error _ => none

/-- Whether a context's BARWT waits for a phase of domain `b` that has completed, or for a domain that is no longer enabled, where it
is executed anew (log 124). -/
def State.barrierDue (s : State) (u : CtxId) (c : Ctx) (b : BarKey) : Bool :=
  decide (c.wait = some .barrier) &&
  (match s.instrAt u with
   | some (.barwt d a sc) =>
     decide (s.barKey u sc.toNat (field (c.x a) 0 4) = b) && (!(s.bar b).en || (s.bar b).passed (c.x d))
   | _ => false)

/-- BARRIER_PHASE_COMPLETE (R248): the BARWTs of a completed phase go on. -/
def execBarrierPhaseComplete (b : BarKey) (s : State) : Host.Outcome State Fault Refusal :=
  .next { s with ctxs := s.ctxs.map (fun kc => (kc.1, if s.barrierDue (ctxOfKey kc.1) kc.2 b then { kc.2 with wait := some .poll } else kc.2)) }

/-! ## Event units (R239-R244) -/

/-- The resources and operations of the EVU window's map (R239). -/
inductive EvuOp where
  | wait (n : Fin 32) | take (n : Fin 32) | drain (n : Fin 32) | peek (n : Fin 32) | clear (n : Fin 32)
  | arrive (b : Fin 8) | barWait (b : Fin 8) | poll (b : Fin 8) | set (b : Fin 8) (t : Nat)
  | lock (m : Fin 8) | try1 (m : Fin 8) | unlock (m : Fin 8) | owner (m : Fin 8)
deriving DecidableEq, Repr

/-- The operation at a window offset; none where the map lists nothing. -/
def evuOp (off : Nat) : Option EvuOp :=
  if off < 0x800 then
    (let n : Fin 32 := mkFin32 (off / 64)
     match off % 64 with
     | 0 => some (.wait n)
     | 8 => some (.take n)
     | 16 => some (.drain n)
     | 24 => some (.peek n)
     | 32 => some (.clear n)
     | _ => none)
  else if 0x1000 ≤ off ∧ off < 0x2000 then
    (let b : Fin 8 := mkFin8 ((off - 0x1000) / 0x200)
     let o := off % 0x200
     if o = 0 then some (.arrive b)
     else if o = 8 then some (.barWait b)
     else if o = 16 then some (.poll b)
     else if 0x108 ≤ o ∧ o < 0x200 ∧ o % 8 = 0 then some (.set b ((o - 0x100) / 8))
     else none)
  else if 0x2000 ≤ off ∧ off < 0x2200 then
    (let m : Fin 8 := mkFin8 ((off - 0x2000) / 64)
     match off % 64 with
     | 0 => some (.lock m)
     | 8 => some (.try1 m)
     | 16 => some (.unlock m)
     | 24 => some (.owner m)
     | _ => none)
  else none

/-- An operation that is a release at the quad (R242, R243). -/
def EvuOp.releases : EvuOp → Bool
  | .arrive _ => true
  | .unlock _ => true
  | .wait _ => false | .take _ => false | .drain _ => false | .peek _ => false | .clear _ => false
  | .barWait _ => false | .poll _ => false | .set _ _ => false
  | .lock _ => false | .try1 _ => false | .owner _ => false

/-- EVLD (R239): its checks, and the request's way to the EVU. -/
def execEvld (d a : BitVec 5) (s : State) : Host.Outcome State Fault Refusal :=
  .next (
    if s.me.evld.isSome then s.hold .eventUnit
    else s.irrevocably fun s => (s.checkMine .evld true (s.x a) 8).finish fun m s =>
      match s.place m.pa with
      | .evu _ _ off =>
        (match evuOp off with
         | none => s.raise causeRange (s.x a)
         | some op =>
           if op.releases && !s.released s.cur 2 then s.hold .poll
           else (s.upd (fun c => { c with evld := some ⟨off, d, false⟩ })).hold .eventUnit)
      | .dram => s.raise causePermission (s.x a)
      | .qspm _ _ _ => s.raise causePermission (s.x a)
      | .device _ => s.raise causePermission (s.x a)
      | .hole => s.raise causePermission (s.x a))

def Evu.line (e : Evu) (n : Fin 32) : BitVec 16 := e.lines[n]
def Evu.setLine (e : Evu) (n : Fin 32) (v : BitVec 16) : Evu := { e with lines := e.lines.set n.val v n.isLt }
def Evu.bar (e : Evu) (b : Fin 8) : EvuBarrier := e.bars[b]
def Evu.setBar (e : Evu) (b : Fin 8) (x : EvuBarrier) : Evu := { e with bars := e.bars.set b.val x b.isLt }
def Evu.mutex (e : Evu) (m : Fin 8) : Option (Nat × Nat) := e.mutexes[m]
def Evu.setMutex (e : Evu) (m : Fin 8) (x : Option (Nat × Nat)) : Evu := { e with mutexes := e.mutexes.set m.val x m.isLt }

/-- A context's place among the quad's 18. -/
def evuIndex (u : CtxId) : Fin 18 :=
  ⟨(if u.unit.val < 128 then 4 * (u.unit.val % 4) + u.slot.val else 16 + u.slot.val % 2) % 18, Nat.mod_lt _ (by decide)⟩

def evuHolder (u : CtxId) : Nat × Nat := (unitInQuad u.unit.val, u.slot.val)

/-- One operation performed at the EVU: its result and the EVU afterwards; none while its condition is false. -/
def Evu.perform (e : Evu) (u : CtxId) (op : EvuOp) : Option (Word × Evu) :=
  match op with
  | .wait n => if e.line n = 0 then none else some ((e.line n).setWidth 64, e)
  | .take n => if e.line n = 0 then none else some ((e.line n).setWidth 64, e.setLine n (e.line n - 1))
  | .drain n => if e.line n = 0 then none else some ((e.line n).setWidth 64, e.setLine n 0)
  | .peek n => some ((e.line n).setWidth 64, e)
  | .clear n => some ((e.line n).setWidth 64, e.setLine n 0)
  | .arrive b =>
    let x := e.bar b
    let y := { x with myg := x.myg.set (evuIndex u).val x.gen (evuIndex u).isLt }
    some (x.gen.setWidth 64, e.setBar b (if x.arr + 1 = x.tgt then { y with arr := 0, gen := x.gen + 1 } else { y with arr := x.arr + 1 }))
  | .barWait b => if (e.bar b).gen = (e.bar b).myg[evuIndex u] then none else some ((e.bar b).gen.setWidth 64, e)
  | .poll b =>
    let x := e.bar b
    some (x.gen.setWidth 64 ||| Machine.place 32 16 x.arr ||| Machine.place 48 16 x.tgt, e)
  | .set b t =>
    let x := e.bar b
    if x.arr = 0 then some (x.gen.setWidth 64, e.setBar b { x with tgt := t }) else some (BitVec.allOnes 64, e)
  | .lock m => if (e.mutex m).isSome then none else some (1, e.setMutex m (some (evuHolder u)))
  | .try1 m => if (e.mutex m).isSome then some (0, e) else some (1, e.setMutex m (some (evuHolder u)))
  | .unlock m => if e.mutex m = some (evuHolder u) then some (1, e.setMutex m none) else some (0, e)
  | .owner m =>
    match e.mutex m with
    | none => some (0, e)
    | some (i, k) => some (boolBit 63 true ||| Machine.place 8 3 i ||| Machine.place 0 2 k, e)

/-- The operation of a context's EVLD on its way to or waiting at the EVU. -/
def Ctx.evuOp (c : Ctx) : Option EvuOp := (c.evld.map (fun e => Machine.evuOp e.off)).getD none

/-- Operations queued at an EVU that are served before one of this kind on the same resource (R240, R243): the waiting
WAITs of the line, then TAKEs and DRAINs, and LOCKs, in order of arrival. A TRY stands behind no LOCK that waits, so it may
take a mutex freed while LOCKs wait (log 83). -/
def EvuOp.yields (op other : EvuOp) (ahead : Bool) : Bool :=
  match op with
  | .take n => decide (other = .wait n) || (ahead && (decide (other = .take n) || decide (other = .drain n)))
  | .drain n => decide (other = .wait n) || (ahead && (decide (other = .take n) || decide (other = .drain n)))
  | .lock m => ahead && decide (other = .lock m)
  | .wait _ => false | .peek _ => false | .clear _ => false
  | .arrive _ => false | .barWait _ => false | .poll _ => false | .set _ _ => false
  | .try1 _ => false | .unlock _ => false | .owner _ => false

/-- Whether some operation of the queue goes before `op`; a context not in the queue stands behind all of it. -/
def State.evuBehind (s : State) (u : CtxId) (op : EvuOp) (ahead : Bool) : List CtxId → Bool
  | [] => false
  | v :: vs =>
    if v = u then State.evuBehind s u op false vs
    else (match (s.ctx v).evuOp with
      | none => false
      | some o => op.yields o ahead) || State.evuBehind s u op ahead vs

/-- A served EVLD completes: its result is written. -/
def Ctx.evldDone (c : Ctx) (v : Word) : Ctx :=
  match c.evld with
  | none => c
  | some e => { ((c.setX e.d v).advance) with evld := none }

/-- Which thread holds a mutex after an operation that returned `v`: one that took it, or none once it is free (R243). -/
def State.noteOwner (s : State) (u : CtxId) (op : EvuOp) (v : Word) : State :=
  let key (m : Fin 8) : Nat := mutexKey u.die u.quad m.val
  match op with
  | .lock m => { s with owners := Table.put s.owners (key m) (.here u) }
  | .try1 m => if v = 1 then { s with owners := Table.put s.owners (key m) (.here u) } else s
  | .unlock m => if v = 1 then { s with owners := Table.drop s.owners (key m) } else s
  | .wait _ => s | .take _ => s | .drain _ => s | .peek _ => s | .clear _ => s
  | .arrive _ => s | .barWait _ => s | .poll _ => s | .set _ _ => s | .owner _ => s

/-- Serving a context's operation when its turn and its condition have come; else it waits at the EVU. -/
def State.evuServe (s : State) (u : CtxId) (op : EvuOp) : State :=
  let q := s.quad u.die u.quad
  match (if s.evuBehind u op true q.evu.queue then none else q.evu.perform u op) with
  | some (v, e) =>
    ((s.setQuad u.die u.quad { q with evu := { e with queue := e.queue.filter (fun w => decide (w ≠ u)) } }).noteOwner u op v).updCtx u
      (fun c => c.evldDone v)
  | none =>
    if q.evu.queue.contains u then s
    else (s.setQuad u.die u.quad { q with evu := { q.evu with queue := q.evu.queue ++ [u] } }).updCtx u
      (fun c => { c with evld := c.evld.map (fun e => { e with queued := true }) })

/-- An EVLD of context `u` whose operation satisfies `p` reaches the EVU. -/
def State.evuArrival (s : State) (u : CtxId) (p : EvuOp → Bool) : State :=
  let c := s.ctx u
  match c.evuOp with
  | none => s
  | some op => if c.wait = some .eventUnit && p op && !((c.evld.map (·.queued)).getD true) then s.evuServe u op else s

def execEvuWait (u : CtxId) (s : State) : Host.Outcome State Fault Refusal :=
  .next (s.evuArrival u (fun op => match op with
    | .wait _ => true
    | _ => false))

def execEvuTake (u : CtxId) (s : State) : Host.Outcome State Fault Refusal :=
  .next (s.evuArrival u (fun op => match op with
    | .take _ => true
    | _ => false))

def execEvuDrain (u : CtxId) (s : State) : Host.Outcome State Fault Refusal :=
  .next (s.evuArrival u (fun op => match op with
    | .drain _ => true
    | _ => false))

def execEvuPeek (u : CtxId) (s : State) : Host.Outcome State Fault Refusal :=
  .next (s.evuArrival u (fun op => match op with
    | .peek _ => true
    | _ => false))

def execEvuClear (u : CtxId) (s : State) : Host.Outcome State Fault Refusal :=
  .next (s.evuArrival u (fun op => match op with
    | .clear _ => true
    | _ => false))

def execEvuArrive (u : CtxId) (s : State) : Host.Outcome State Fault Refusal :=
  .next (s.evuArrival u (fun op => match op with
    | .arrive _ => true
    | _ => false))

def execEvuBarrierWait (u : CtxId) (s : State) : Host.Outcome State Fault Refusal :=
  .next (s.evuArrival u (fun op => match op with
    | .barWait _ => true
    | _ => false))

def execEvuPoll (u : CtxId) (s : State) : Host.Outcome State Fault Refusal :=
  .next (s.evuArrival u (fun op => match op with
    | .poll _ => true
    | _ => false))

def execEvuSet (u : CtxId) (s : State) : Host.Outcome State Fault Refusal :=
  .next (s.evuArrival u (fun op => match op with
    | .set _ _ => true
    | _ => false))

def execEvuLock (u : CtxId) (s : State) : Host.Outcome State Fault Refusal :=
  .next (s.evuArrival u (fun op => match op with
    | .lock _ => true
    | _ => false))

def execEvuTry (u : CtxId) (s : State) : Host.Outcome State Fault Refusal :=
  .next (s.evuArrival u (fun op => match op with
    | .try1 _ => true
    | _ => false))

def execEvuUnlock (u : CtxId) (s : State) : Host.Outcome State Fault Refusal :=
  .next (s.evuArrival u (fun op => match op with
    | .unlock _ => true
    | _ => false))

def execEvuOwner (u : CtxId) (s : State) : Host.Outcome State Fault Refusal :=
  .next (s.evuArrival u (fun op => match op with
    | .owner _ => true
    | _ => false))

/-- Whether a waiting operation of a context could be served now. -/
def State.evuDue (s : State) (u : CtxId) : Bool :=
  match (s.ctx u).evuOp with
  | none => false
  | some op =>
    let e := (s.quad u.die u.quad).evu
    e.queue.contains u && !s.evuBehind u op true e.queue && (e.perform u op).isSome

/-- EVU_WAIT_SATISFIED (R244): a waiting operation whose condition has become true, in its turn, completes. -/
def execEvuWaitSatisfied (u : CtxId) (s : State) : Host.Outcome State Fault Refusal :=
  .next (match (s.ctx u).evuOp with
    | none => s
    | some op => if s.evuDue u then s.evuServe u op else s)

/-! ## EVSIG (R241) -/

/-- The quad whose QCC an endpoint names, in this package. -/
def State.qccEndpoint (s : State) (x : Word) : Option (Fin 8 × Nat) :=
  if field x 32 32 ≠ 0 then none
  else match s.unitOf (x.setWidth 32) with
    | some (d, unit) => if 128 ≤ unit ∧ unit < 160 then some (d, unit - 128) else none
    | none => none

def execEvsig (d a : BitVec 5) (s : State) : Host.Outcome State Fault Refusal :=
  .next (s.sealGate fun s => s.irrevocably fun s =>
    if field (s.x d) 5 59 ≠ 0 then s.illegalOperand
    else match s.qccEndpoint (s.x a) with
      | none => s.illegalOperand
      | some (die, q) =>
        let sc := max 2 (s.scopeBetween (s.endpoint s.cur.die s.cur.unit.val) (s.endpoint die (128 + q)))
        if !s.released s.cur sc then s.hold .poll
        else
          let x := s.quad die q
          (s.setQuad die q { x with evu := { x.evu with signals := x.evu.signals ++ [(s.x d).setWidth 5] } }).advance)

/-- All waiting WAITs of a line complete together (R240). -/
def State.serveWaits (s : State) (d : Fin 8) (q : Nat) (n : Fin 32) : State :=
  (s.quad d q).evu.queue.foldl (fun t u => if (t.ctx u).evuOp = some (.wait n) then t.evuServe u (.wait n) else t) s

/-- EVSIG_DELIVER: the oldest signal on its way to the EVU of quad `n` (32 per die) reaches it; CNT saturates, and the WAITs
that waited for it complete with it. -/
def execEvsigDeliver (n : Nat) (s : State) : Host.Outcome State Fault Refusal :=
  .next (
    let die := mkFin8 (n / 32)
    let q := s.quad die (n % 32)
    match q.evu.signals with
    | [] => s
    | l :: rest =>
      let v := q.evu.line l.toFin
      (s.setQuad die (n % 32) { q with evu := { (q.evu.setLine l.toFin (if v = 0xFFFF then v else v + 1)) with signals := rest } }).serveWaits
        die (n % 32) l.toFin)

end Sys2Proof.Machine
end

