-- ==== Sys2Proof/Machine/Recovery.lean ====
section
/-! DEFINITION. Recovery intervals: SEALA and SEALW, arrivals and seals, stopping a domain, rollback and restart, the
domain-fatal stop, dissolving, errors (12_recovery.md R307-R333, R419, R420). -/

namespace Sys2Proof.Machine

/-! ## SEALA and SEALW (R320, R321) -/

/-- Everything R320 waits for: earlier writes, copies, requests (a held one counts once it is in the hold), tile work. -/
def State.sealReady (s : State) (u : CtxId) : Bool :=
  let c := s.ctx u
  c.accs.isEmpty && c.vecs.isEmpty && c.copies.isEmpty && c.tile.queue.isEmpty && (s.mine u).all Req.inHold

def execSeala (s : State) : Host.Outcome State Fault Refusal :=
  .next (s.irrevocably fun s => s.raiseMsgFault fun s =>
    let c := s.me
    if !c.dom || c.sealing then s.illegalOperand
    else if !s.sealReady s.cur then s.hold .poll
    else (s.upd (fun c => { c with
      snaps := setSnap c.snaps c.rin (s.snapshot s.cur (c.pc + 4) c.rin true)
      sealing := true
      arrived := c.rin })).advance)

def execSealw (s : State) : Host.Outcome State Fault Refusal :=
  .next (s.irrevocably fun s =>
    let c := s.me
    if !c.sealing then s.advance
    else if rinReached (s.die s.cur.die).sealed c.rin then (s.sealAdvance s.cur (c.pc + 4)).advance
    else s.hold .sealing)

/-- SEALW_RELEASE: a context that waits for a seal looks again once SEALRIN covers its interval. -/
def execSealwRelease (u : CtxId) (s : State) : Host.Outcome State Fault Refusal :=
  .next (
    let c := s.ctx u
    if c.wait = some .sealing && c.sealing && rinReached (s.die u.die).sealed c.rin then s.setCtx u { c with wait := some .poll } else s)

/-! ## Arrivals (R323, R324, R331) -/

/-- Every context of the module that belongs to the domain, with where it stands. -/
def State.domCtxs (s : State) : List CtxId :=
  (s.ctxs.filter (fun kc => kc.2.dom && decide (kc.2.status ≠ .free))).map (fun kc => ctxOfKey kc.1)

/-- Whether a domain thread counts as arrived for interval `n`: it has arrived, or its thread has ended. -/
def Ctx.arrivedFor (c : Ctx) (n : BitVec 32) : Bool := decide (c.status = .reserved) || rinReached c.arrived n

/-- Whether every domain thread of a die, resident, swapped out, saved or reserved, has arrived for `n`. -/
def State.dieArrived (s : State) (d : Fin 8) (n : BitVec 32) : Bool :=
  s.domCtxs.all (fun u => decide (u.die ≠ d) || s.basted u || (s.ctx u).arrivedFor n) &&
  s.forks.all (fun kf => decide (kf.1 / 128 ≠ d.val) || (match kf.2.handover with
    | none => true
    | some c => !c.dom || c.arrivedFor n)) &&
  (s.die d).swaps.all (fun w => !w.ctx.dom || w.ctx.arrivedFor n) &&
  s.parts.toList.all (fun p => p.saves.all (fun uc => decide (uc.1.die ≠ d) || !uc.2.dom || uc.2.arrivedFor n))

/-- A domain of this one package. -/
def Domain.sole (x : Domain) (pkg : BitVec 18) : Bool := decide (x.leader = pkg) && decide (x.member = 1#1024 <<< podPos pkg)

/-- SEAL_ARRIVE: a die agent forwards to its hub when every domain context of the die has arrived for the next seal. -/
def execSealArrive (die : Fin 8) (s : State) : Host.Outcome State Fault Refusal :=
  .next (match s.domain with
    | none => s
    | some x =>
      let n := nextRin x.declared
      if x.phase = .running && s.dieArrived die n then s.setDie die { s.die die with arrivedFor := n } else s)

def State.allArrived (s : State) (n : BitVec 32) : Bool :=
  (List.range 8).all (fun d => decide ((s.die (mkFin8 d)).arrivedFor = n) && s.dieArrived (mkFin8 d) n)

/-- SEALED_DECLARE: the leader declares the next seal once every member package has arrived; for packages outside the
module that is their part of the event. -/
def execSealedDeclare (n : BitVec 32) (s : State) : Host.Outcome State Fault Refusal :=
  .next (match s.domain with
    | none => s
    | some x =>
      if x.phase = .running && decide (n = nextRin x.declared) && decide (x.s = x.declared) && s.allArrived n then
        { s with domain := some { x with declared := n } }
      else s)

/-! ## SEALED n at a member (R323, R324, R326) -/

/-- What has happened with undo records of sealed intervals: they are freed. -/
def State.freeUndo (s : State) (n : BitVec 32) : State :=
  { s with
    undo := s.undo.map (fun rs => rs.filter (fun r => rinAfter r.k n))
    dies := s.dies.map (fun d => { d with undoBuf := d.undoBuf.filter (fun r => rinAfter r.k n) }) }

/-- Requests of one thread; of those that have lost their source, the package's own. -/
def Req.sameThread (q r : Req) : Bool := decide (q.src = r.src) && (r.src.isSome || decide (field q.srcEp 14 18 = field r.srcEp 14 18))

/-- A held request leaves once its interval is sealed, a `.rel` one once nothing earlier of its thread is outstanding as well
(R279, R290, R325; log 135). -/
def Req.leaves (sealed : BitVec 32 → Bool) (earlier : List Req) (r : Req) : Bool :=
  r.inHold && sealed r.rin && !(r.rel && earlier.any (fun q => q.sameThread r))

/-- Requests in the order of their issue, those that leave the hold flying. -/
def leaveFrom (sealed : BitVec 32 → Bool) : List Req → List Req → List Req
  | _, [] => []
  | earlier, r :: rs => (if r.leaves sealed earlier then { r with stage := .flying } else r) :: leaveFrom sealed (earlier ++ [r]) rs

/-- Held requests of sealed intervals leave; without a domain all intervals are over. -/
def State.leaveHold (s : State) : State :=
  { s with net := leaveFrom (fun r => match s.domain with
    | none => true
    | some x => !rinAfter r x.s) [] s.net }

/-- Held device stores of sealed intervals are performed by `dev`, in the order in which they entered. -/
def State.releaseStores (dev : HeldStore → State → State) (n : BitVec 32) (s : State) : State :=
  (List.range 8).foldl (fun t i =>
    let d := mkFin8 i
    let out := (t.die d).holds.filter (fun h => !rinAfter h.rin n)
    out.foldl (fun t h => dev h t) (t.setDie d { t.die d with holds := (t.die d).holds.filter (fun h => rinAfter h.rin n) })) s

/-- A pending tail of a sealed interval becomes the sealed tail (R326). -/
def RingEngine.sealTail (n : BitVec 32) (e : RingEngine) : RingEngine :=
  match e.pending with
  | none => e
  | some (t, r) => if rinAfter r n then e else { e with sealed := t, pending := none }

def State.sealTails (s : State) (n : BitVec 32) : State :=
  { s with quads := s.quads.map (fun kq => (kq.1, { kq.2 with engines := kq.2.engines.map (RingEngine.sealTail n) })) }

/-- Reserved slots of threads that ended in a sealed interval are free (R324). -/
def Ctx.freeSealed (n : BitVec 32) (c : Ctx) : Ctx := if c.dom && decide (c.status = .reserved) && !rinAfter c.rin n then c.emptied else c

/-- TAG_SCRUB's pass: tags other than those of the two current intervals become 0; outside any domain, all (R314, R420). Of a
seal that is declared and not yet applied, those of the interval after it stay as well. -/
def State.scrubTags (s : State) : State :=
  match s.domain with
  | none => { s with tags := [] }
  | some x => { s with
      tags := s.tags.filter (fun kt => decide (kt.2 = x.s) || decide (kt.2 = nextRin x.s) || decide (kt.2 = nextRin x.declared))
      domain := some { x with scrubbed := x.s } }

/-- SEALED n: undo space, held output, tails, SEALRIN, in this order. A pass over the tags is complete at least once in 2^31
seals. -/
def State.applySeal (dev : HeldStore → State → State) (s : State) : State :=
  match s.domain with
  | none => s
  | some x =>
    if x.declared = x.s then s
    else
      let n := x.declared
      let s0 := { s with domain := some { x with s := n } }
      let s1 := (if (n - x.scrubbed).toNat < 2 ^ 31 then s0 else s0.scrubTags).freeUndo n
      let s3 := (s1.leaveHold.releaseStores dev n).sealTails n
      { s3 with
        dies := s3.dies.map (fun d => { d with sealed := n })
        ctxs := s3.ctxs.map (fun kc => (kc.1, kc.2.freeSealed n))
        parts := s3.parts.map (fun p => { p with saves := p.saves.filter (fun uc => !(uc.2.dom && decide (uc.2.status = .reserved) && !rinAfter uc.2.rin n)) }) }

/-! ## Pressure (R318) -/

/-- The domain's undo pressure in this package. -/
def State.pressure (s : State) : Bool := decide (s.hub.ulogth.toNat ≤ s.fullest.1)

/-- UNDO_PRESSURE: every context of the domain is to take INTERVAL-PRESSURE, once in each interval; `elsewhere` when the
pressure comes from another member package. -/
def Ctx.press (c : Ctx) : Ctx :=
  if c.dom && decide (c.status ≠ .reserved) && decide (c.pressed ≠ c.rin) then { c with pressed := c.rin, csr := { c.csr with ipend := true } } else c

def execUndoPressure (elsewhere : Bool) (s : State) : Host.Outcome State Fault Refusal :=
  .next (match s.domain with
    | none => s
    | some x =>
      if x.phase = .running && (elsewhere || s.pressure) then
        { s with
          ctxs := s.ctxs.map (fun kc => (kc.1, if s.basted (ctxOfKey kc.1) then kc.2 else kc.2.press))
          forks := s.forks.map (fun kf => (kf.1, { kf.2 with handover := kf.2.handover.map Ctx.press }))
          dies := s.dies.map (fun d => { d with swaps := d.swaps.map (fun w => { w with ctx := w.ctx.press }) })
          parts := s.parts.map (fun p => { p with saves := p.saves.map (fun uc => (uc.1, uc.2.press)) }) }
      else s)

/-! ## Stopping the domain (R329 steps 2 and 3, R194) -/

def ctxIdOfFork (k : Nat) : ForkId := ⟨mkFin8 (k / 128), mkFin32 (k / 4 % 32), mkFin4 (k % 4)⟩

/-- A forked thread is brought together in one context, without its fork: younger chunks are unpicked, a thread whose
commit token is on its way arrives. -/
def State.collapseFork (s : State) (f : ForkId) : State :=
  match s.fork f with
  | none => s
  | some x =>
    let s1 := s.unpickFrom f (x.sewn + 1) .oth none
    let s2 := match s1.fork f with
      | none => s1
      | some y => match y.handover, y.token with
        | some h, some k => s1.setCtx (s1.chunkCtx f y k) h
        | _, _ => s1
    s2.dropFork f

/-- Slots whose demands and requests are dropped, their credit having been returned (R282). -/
def Ctx.dropSlots (c : Ctx) : Ctx := { c with slots := c.slots.map (fun x => { x.drop with infl := 0 }), needs := [] }

/-- A stopped context: nothing that it has issued goes on. The gap that its resume makes due names where and when it stopped. -/
def Ctx.stopped (c : Ctx) (time : Nat) (ep : BitVec 32) : Ctx :=
  { c.dropSlots with
    wait := none
    copies := []
    accs := []
    vecs := []
    evld := none
    binding := none
    watch := []
    woken := false
    chunk := none
    joinPhase := false
    inner := none
    gap := some (3, time, ep)
    tile := { c.tile with queue := [] } }

/-- The credit of every slot of a thread goes back to its target. -/
def State.returnSlots (s : State) (c : Ctx) : State := c.slots.toList.foldl (fun t x => t.returnSlot x) s

/-- The contexts that `p` names, with where they stand. -/
def State.ctxsWhere (s : State) (p : Ctx → Bool) : List CtxId :=
  (s.ctxs.filter (fun kc => p kc.2 && decide (kc.2.status ≠ .free))).map (fun kc => ctxOfKey kc.1)

/-- Every context that `p` names at an asynchronous stop, its requests and demands dropped (R282), its waits withdrawn; the
slots of the swapped-out and saved threads among them as well. -/
def State.stopWhere (p : Ctx → Bool) (s : State) : State :=
  let fs := (s.forks.filter (fun kf => p kf.2.image)).map (fun kf => ctxIdOfFork kf.1)
  let s1 := fs.foldl (fun t f => t.collapseFork f) s
  let mine (r : Req) : Bool := !r.dom && ((r.src.bind s1.sender).map p).getD false
  let s2 := (s1.ctxsWhere p).foldl (fun t u => (t.withdraw u).returnSlots (t.ctx u)) (s1.dropNet mine)
  let s3 := (List.range 8).foldl (fun t d => (s2.die (mkFin8 d)).swaps.foldl (fun t w => if p w.ctx then t.returnSlots w.ctx else t) t) s2
  let s4 := s3.parts.toList.foldl (fun t q => q.saves.foldl (fun t uc => if p uc.2 then t.returnSlots uc.2 else t) t) s3
  { s4 with
    ctxs := s4.ctxs.map (fun kc => (kc.1, if p kc.2 && decide (kc.2.status ≠ .free) then
      kc.2.stopped s.time (s.endpoint (ctxOfKey kc.1).die (ctxOfKey kc.1).unit.val) else kc.2))
    dies := s4.dies.map (fun d => { d with swaps := d.swaps.map (fun w => if p w.ctx then { w with ctx := w.ctx.dropSlots } else w) })
    parts := s4.parts.map (fun q => { q with saves := q.saves.map (fun uc => if p uc.2 then (uc.1, uc.2.dropSlots) else uc) }) }

def State.domForks (s : State) : List ForkId :=
  (s.forks.filter (fun kf => kf.2.image.dom)).map (fun kf => ctxIdOfFork kf.1)

/-- Every domain context at an asynchronous stop. -/
def State.stopDomain (s : State) : State := s.stopWhere (·.dom)

/-- A request that no source waits for any more: its target still performs it. -/
def Req.orphan (r : Req) : Req := { r with src := none }

/-- Requests of the domain: those above `n`, and all that their target has served, are gone; the others lose their source. The
demands of its senders elsewhere are gone too (R282). -/
def State.dropDomReqs (s : State) (n : BitVec 32) : State :=
  let s1 := s.dropNet (fun r => r.dom && (rinAfter r.rin n || !r.onTheWay))
  { s1 with
    net := s1.net.map (fun r => if r.dom then r.orphan else r)
    outs := s1.outs.filter (fun o => !o.dom) }

def QueueItem.domRin (q : QueueItem) : Option (BitVec 32) :=
  match q with
  | .fresh _ _ _ rin dom => if dom then some rin else none
  | .swapped _ _ => none

/-- Packets, held entries, combining entries and thread records of the domain above `n` are dropped (R329 step 3). -/
def State.dropDomain (s : State) (n : BitVec 32) : State :=
  let s1 := s.dropDomReqs n
  { s1 with
    quads := s1.quads.map (fun kq => (kq.1, { kq.2 with
      comb := kq.2.comb.filter (fun e => !e.dom)
      engines := kq.2.engines.map (fun e => { e with pending := none }) }))
    dies := s1.dies.map (fun d => { d with
      holds := d.holds.filter (fun h => !rinAfter h.rin n)
      queue := d.queue.filter (fun q => match q.item.domRin with
        | none => true
        | some r => !rinAfter r n) }) }

/-! ## Memory (R329 step 5, R326) -/

/-- Applying one undo record: the sector's bytes and tag of before. -/
def State.undoOne (s : State) (r : UndoRec) : State :=
  let s1 := s.storeRaw none 0 r.pa (bytesOf 64 r.pre.toNat)
  { s1 with tags := Table.put s1.tags (r.pa / 64) r.oldTag }

/-- Newest first: the writer's buffers, then each region from its head; both are then empty. -/
def State.undoAll (s : State) : State :=
  let s1 := s.dies.toList.foldl (fun t d => d.undoBuf.reverse.foldl State.undoOne t) s
  let s2 := s.undo.toList.foldl (fun t rs => rs.reverse.foldl State.undoOne t) s1
  { s2 with
    undo := Vector.replicate 8 []
    dies := s2.dies.map (fun d => { d with undoBuf := [] }) }

/-- After a rollback a ring's engine stands where memory says; an external ring's TAIL returns to the sealed one. -/
def State.resetRing (s : State) (k : Nat) (i : Fin 4) : State :=
  let q := Table.getD s.quads k Quad.reset
  let w := q.rwin[i]
  let e := q.engines[i]
  if !(winEn w && winRing w) then s
  else if winExt w then
    let s1 := s.storeRaw none 0 (winBase w + 8) (bytesOf 8 e.sealed.toNat)
    { s1 with quads := Table.put s1.quads k { q with engines := q.engines.set i.val { e with tail := e.sealed, pending := none } i.isLt } }
  else
    { s with quads := Table.put s.quads k { q with
        engines := q.engines.set i.val { e with head := mem64 s.mem (winBase w), tail := mem64 s.mem (winBase w + 8) } i.isLt } }

/-- The rings of quads whose partition is in the domain. -/
def State.resetRings (s : State) : State :=
  (s.quads.filter (fun kq => decide (kq.1 < 256) && s.inDomain (s.partOf (mkFin8 (kq.1 / 32)) (kq.1 % 32)))).foldl
    (fun t kq => (((t.resetRing kq.1 0).resetRing kq.1 1).resetRing kq.1 2).resetRing kq.1 3) s

/-! ## Event units and barriers (R251) -/

/-- Whether a thread belongs to the domain; of one whose commit token is on its way its fork tells. -/
def State.holderInDomain (s : State) (h : Holder) : Bool :=
  match h with
  | .here u => (s.ctx u).dom || (!u.isQcc && ((s.fork (s.forkIdOf u)).map (·.image.dom)).getD false)
  | .parked _ _ => ((s.sender h).map (·.dom)).getD false
  | .saved _ _ => ((s.sender h).map (·.dom)).getD false
  | .outside _ => false

def State.resetEvu (s : State) (d : Fin 8) (q : Nat) : State :=
  let x := s.quad d q
  s.setQuad d q { x with evu := { x.evu with
    lines := Vector.replicate 32 0
    bars := x.evu.bars.map (fun b => { b with arr := 0, myg := Vector.replicate 18 b.gen })
    signals := [] } }

/-- Quads that hold a domain context. -/
def State.domQuads (s : State) : List (Fin 8 × Nat) := (s.domCtxs.map (fun u => (u.die, u.quad))).eraseDups

/-- Whether every member of a barrier domain lies in the rollback domain. -/
def State.barInDomain (s : State) (k : Nat) (x : BarDom) : Bool :=
  let die := k / 16
  let unitIn (d unit : Nat) : Bool := s.inDomain (s.partOf (mkFin8 d) (quadOfUnit unit))
  if die < 520 then
    let d := if die < 256 then die / 32 else if die < 512 then (die - 256) / 32 else die - 512
    (List.range 160).all (fun n => !bitOf x.members n || unitIn d n)
  else if die = 520 then (List.range 1280).all (fun n => !bitOf x.members n || unitIn (n / 160) (n % 160))
  else match s.domain with
    | none => false
    | some y => decide (x.members.setWidth 1024 &&& ~~~y.member = 0) && (List.range 256).all (fun q => s.inDomain (s.partOf (mkFin8 (q / 32)) (q % 32)))

/-- A barrier domain just after its last arrival of an interval up to `n`; an arrival with RIN 0 is of no interval, and stands. -/
def BarDom.rollTo (n : BitVec 32) (x : BarDom) : BarDom :=
  let h := x.history.takeWhile (fun a => decide (a.1 = 0) || !rinAfter a.1 n)
  match h.getLast? with
  | none => { x with ph := 0, arr := 0, history := [] }
  | some a => { x with ph := a.2.1, arr := a.2.2, history := h }

def State.resetSync (s : State) (n : BitVec 32) : State :=
  let qs := s.domQuads
  let s1 := qs.foldl (fun t dq => t.resetEvu dq.1 dq.2)
    (s.freeMutexes (fun k h => qs.any (fun dq => decide (quadKey dq.1.val dq.2 = k / 8)) && s.holderInDomain h))
  { s1 with bars := s1.bars.map (fun kb => (kb.1, if s.barInDomain kb.1 kb.2 then kb.2.rollTo n else kb.2)) }

/-! ## Restart from a snapshot (R330, R194, R229) -/

/-- The RIN that a snapshot which holds interval `n` restores: of a provisional one `n`, of a full one the next (R330). -/
def Snapshot.rinFor (x : Snapshot) (n : BitVec 32) : BitVec 32 := if x.sealing then n else nextRin n

/-- The snapshot of a thread that holds interval `n`. -/
def Ctx.snapFor (c : Ctx) (n : BitVec 32) : Option Snapshot :=
  match c.snaps[n.toNat % 2]'(Nat.mod_lt _ (by decide)) with
  | none => none
  | some x => if x.rin = x.rinFor n then some x else none

/-- A context as a snapshot restores it; it does not run before RESUME. -/
def Ctx.fromSnapshot (c : Ctx) (x : Snapshot) (n : BitVec 32) (status : CtxStatus) : Ctx :=
  { Ctx.idle with
    status := status
    regs := x.regs
    pc := x.pc
    sup := x.sup
    csr := x.csr
    sqcnt := c.sqcnt
    tile := Tile.start x.tln x.issue
    inner := x.inner
    joinFirst := x.joinFirst
    slots := c.slots
    rin := x.rin
    dom := true
    sealing := x.sealing
    arrived := n
    rollcnt := c.rollcnt
    rolled := if status = .rolling then none else some n
    snaps := c.snaps
    last := c.last
    gap := c.gap
    cwa := c.cwa
    issuer := c.issuer
    aff := c.aff
    codeid := c.codeid
    gswDue := c.gswDue
    born := c.born }

/-- The fork and the oldest chunk of a thread restored from a snapshot that was taken in one; the vector part of the fork
image is untagged at mark 0, and younger chunks start with FFLG and VFLG of the restored one (log 120). -/
def forkFromSnapshot (c : Ctx) (i : ForkScalar) (k : Nat) (inc : List (BitVec 5 × Incoming)) : Fork × Ctx :=
  let joined := decide (i.count ≤ k)
  ({ info := { i with oldest := k }
     image := { c with status := .live, regs := i.regs, masks := i.masks, csr := { c.csr with vl := i.vl } }
     started := if joined then i.count else k + 1
     kept := []
     given := []
     notices := []
     forwards := []
     flags := (0, 0)
     token := none
     handover := none
     due := none
     conflict := [] },
   { c with
     joinPhase := joined
     chunk := if joined then none else some {
       number := k
       incoming := inc
       written := 0
       versions := []
       through := false
       sent := false
       trap := none
       request := none } })

/-- A restored thread: its context, and its fork when the snapshot lies in one. -/
def Ctx.restored (c : Ctx) (x : Snapshot) (n : BitVec 32) (status : CtxStatus) : Ctx × Option Fork :=
  let c1 := c.fromSnapshot x n status
  match x.fork with
  | none => (c1, none)
  | some (i, k, inc) => ((forkFromSnapshot c1 i k inc).2, some (forkFromSnapshot c1 i k inc).1)

/-- The context of a ring, or the QCC, at which a restored thread stands: at the ring index of its snapshot. -/
def State.homeOf (s : State) (u : CtxId) (x : Snapshot) : CtxId :=
  if u.isQcc then u
  else
    let first := s.ringFirst u.die u.quad
    mkCtxId u.die.val (4 * first + x.home.unit.val % s.ringLen u.die first) u.slot.val

/-- A fork base moved so that the chunk runs at context `u`. -/
def Fork.rebase (f : Fork) (index len : Nat) : Fork := { f with info := { f.info with base := (index + len * (f.info.oldest + 1) - f.info.oldest) % len } }

/-- Restoring a resident thread, or freeing it when it was born after `n`. -/
def State.restoreCtx (s : State) (n : BitVec 32) (u : CtxId) : State :=
  let c := s.ctx u
  if rinAfter c.born n then s.setCtx u c.emptied
  else match c.snapFor n with
    | none => s
    | some x =>
      let v := s.homeOf u x
      let r := c.restored x n .rolling
      let s1 := (s.setCtx u c.emptied).setCtx v r.1
      match r.2 with
      | none => s1
      | some f => s1.setFork (s1.forkIdOf v) (f.rebase (v.unit.val % s.ringLen v.die v.quad) (s.ringLen v.die v.quad))

/-- Restoring the swapped-out threads of a die: their areas are written afresh (R330). -/
def State.restoreSwap (s : State) (n : BitVec 32) (d : Fin 8) (w : Swapped) : State :=
  let x := s.die d
  if !w.ctx.dom then s
  else if rinAfter w.ctx.born n then
    s.setDie d { x with
      swaps := x.swaps.filter (fun v => decide (v.entry ≠ w.entry))
      queue := x.queue.filter (fun q => match q.item with
        | .swapped e _ => decide (e ≠ w.entry)
        | .fresh _ _ _ _ _ => true) }
  else match w.ctx.snapFor n with
    | none => s
    | some sn =>
      let home := if w.home.isQcc then w.home else mkCtxId w.home.die.val (w.home.unit.val / w.ringLen * w.ringLen + sn.home.unit.val % w.ringLen) w.home.slot.val
      let r := w.ctx.restored sn n .live
      let area := swapArea x.swbase.toNat w.entry
      let s1 := s.saveArea area home r.1 r.2 3 (mem64 s.mem (area + 0x300)).toNat
      let x1 := s1.die d
      s1.setDie d { x1 with
        swaps := x1.swaps.map (fun v => if v.entry = w.entry then { v with ctx := r.1, home := home, fork := r.2 } else v)
        queue := x1.queue.map (fun q => match q.item with
          | .swapped e _ => if e = w.entry then { q with item := .swapped e true } else q
          | .fresh _ _ _ _ _ => q) }

/-- Restoring the threads saved with a partition. -/
def State.restoreSaves (s : State) (n : BitVec 32) (p : Fin 16) : State :=
  let part := s.part p.val
  let keep := part.saves.filter (fun uc => !(uc.2.dom && rinAfter uc.2.born n))
  keep.foldl (fun t uc =>
    let q := t.part p.val
    match (if uc.2.dom then uc.2.snapFor n else none) with
    | none => t.setPart p.val { q with
        saves := q.saves ++ [uc]
        forks := q.forks ++ part.forks.filter (fun f => decide (f.1 = s.forkIdOf uc.1) && (uc.2.chunk.isSome || uc.2.joinPhase)) }
    | some x =>
      let v := t.homeOf uc.1 x
      let r := uc.2.restored x n .switching
      let f := r.2.map (fun f => f.rebase (v.unit.val % t.ringLen v.die v.quad) (t.ringLen v.die v.quad))
      (t.saveArea (gangArea q.psave.toNat v) v r.1 f 3 q.stopTime).setPart p.val { q with
        saves := q.saves ++ [(v, r.1)]
        forks := match f with
          | none => q.forks
          | some f => q.forks ++ [(t.forkIdOf v, f)] }) (s.setPart p.val { part with saves := [], forks := [] })

/-- Every thread of the domain, wherever it is, stands at its snapshot. -/
def State.restoreAll (s : State) (n : BitVec 32) : State :=
  let s1 := s.domCtxs.foldl (fun t u => t.restoreCtx n u) s
  let s2 := (List.range 8).foldl (fun t d => (s1.die (mkFin8 d)).swaps.foldl (fun t w => t.restoreSwap n (mkFin8 d) w) t) s1
  (List.range 16).foldl (fun t p => t.restoreSaves n (mkFin16 p)) s2

/-- Whether some thread that must restart has lost its snapshot. A forked thread's is in its oldest chunk, or passes with the
commit token. -/
def State.snapLost (s : State) (n : BitVec 32) : Bool :=
  let lost (c : Ctx) : Bool := c.dom && decide (c.status ≠ .free) && !rinAfter c.born n && (c.snapFor n).isNone
  s.domCtxs.any (fun u => !s.basted u && lost (s.ctx u)) || s.forks.any (fun kf => (kf.2.handover.map lost).getD false) ||
  (List.range 8).any (fun d => (s.die (mkFin8 d)).swaps.any (fun w => lost w.ctx)) ||
  s.parts.toList.any (fun p => p.saves.any (fun uc => lost uc.2))

/-! ## Domain-fatal (R333) -/

/-- A context records DOMAIN-FATAL and does not resume. -/
def Ctx.fatal (idx : Word) (c : Ctx) : Ctx :=
  if c.dom && decide (c.status ≠ .free) then
    { c with status := .fatal, csr := { c.csr with tcause := causeDomainFatal.setWidth 10, tval := idx } } else c

/-- The save area of a thread that is out of the machine records DOMAIN-FATAL too (R333, R375). -/
def State.fatalArea (s : State) (idx : Word) (base : Nat) : State :=
  s.putRuns base [(0x218, bytesOf 8 causeDomainFatal.toNat), (0x220, bytesOf 8 idx.toNat)]

def State.fatalAreas (s : State) (idx : Word) : State :=
  let s1 := (List.range 8).foldl (fun t d => (s.die (mkFin8 d)).swaps.foldl (fun t w =>
    if w.ctx.dom then t.fatalArea idx (swapArea (s.die (mkFin8 d)).swbase.toNat w.entry) else t) t) s
  s.parts.toList.foldl (fun t p => p.saves.foldl (fun t uc =>
    if uc.2.dom && decide (uc.2.status ≠ .reserved) then t.fatalArea idx (gangArea p.psave.toNat uc.1) else t) t) s1

/-- The domain-fatal stop: the record is written, every context stops, held output of sealed intervals is released, the
rest discarded. -/
def State.domainFatal (dev : HeldStore → State → State) (s : State) (path synd : BitVec 64) : State :=
  match s.domain with
  | none => s
  | some x =>
    if x.phase = .fatal then s
    else
      let idx := s.hub.errhead
      let s1 := s.writeError ⟨path, x.s, 8, 2, synd, 0, 0⟩
      let s2 := (s1.applySeal dev).stopDomain
      let n := (s2.domain.map (·.s)).getD x.s
      let s3 := (s2.dropDomReqs n).fatalAreas idx
      { s3 with
        ctxs := s3.ctxs.map (fun kc => (kc.1, kc.2.fatal idx))
        dies := s3.dies.map (fun d => { d with
          holds := []
          swaps := d.swaps.map (fun w => { w with ctx := w.ctx.fatal idx }) })
        parts := s3.parts.map (fun p => { p with saves := p.saves.map (fun uc => (uc.1, uc.2.fatal idx)) })
        domain := s3.domain.map (fun y => { y with phase := .fatal, wanted := false }) }

/-! ## Rollback and resume (R328-R330) -/

/-- A rollback is raised: it begins with the next DOMAIN_ROLLBACK. -/
def State.wantRollback (s : State) : State := { s with domain := s.domain.map (fun x => if x.phase = .fatal then x else { x with wanted := true }) }

/-- Steps 1 to 7 of R329. -/
def State.rollback (dev : HeldStore → State → State) (s : State) : State :=
  let s1 := s.applySeal dev
  match s1.domain with
  | none => s1
  | some x =>
    if s1.snapLost x.s then s1.domainFatal dev (unitPath s1.pkg.toNat 0 0 6 0x3F 0 0) 0
    else
      let s2 := ((s1.resetSync x.s).stopDomain.dropDomain x.s).undoAll.resetRings
      let s3 := s2.restoreAll x.s
      { s3 with
        dies := s3.dies.map (fun d => { d with sealed := x.s, arrivedFor := x.s })
        domain := some { x with phase := .rolling, wanted := false } }

/-- A context runs on from its snapshot; one whose partition is in a switch stays stopped for it. -/
def State.resumeCtx (s : State) (n : BitVec 32) (u : CtxId) : State :=
  let c := s.ctx u
  if c.status ≠ .rolling then s
  else
    let c1 : Ctx := { c with
      status := if s.isRunning (s.partOfCtx u) then .live else .switching
      rollcnt := bumpRoll c.rollcnt n
      last := s.time }
    let s1 := (s.setCtx u c1).regrant u
    if c1.status = .live then s1.gapEntry u else s1

/-- ROLLBACK_RESUME (R329 step 8): at the TIME of RESUME, once a lost ISTORE word has been reloaded (R332). -/
def execRollbackResume (t : BitVec 64) (s : State) : Host.Outcome State Fault Refusal :=
  .next (match s.domain with
    | none => s
    | some x =>
      if x.phase = .rolling && decide (x.reload = 0) && !x.wanted && decide (t.toNat ≤ s.time) && !s.hub.powerOff then
        let s1 := s.domCtxs.foldl (fun t u => t.resumeCtx x.s u) s
        { s1 with domain := some { x with phase := .running } }
      else s)

/-- The ISTOREs of a die are reloaded. -/
def State.reloaded (s : State) (d : Fin 8) : State := { s with domain := s.domain.map (fun x => { x with reload := setField x.reload d.val 1 0 }) }

/-- RELOAD of a die (R332, R373): the control node reports that the ISTOREs of the die have been rewritten. -/
def execReload (die : Fin 8) (v : BitVec 64) (s : State) : Host.Outcome State Fault Refusal :=
  .next (if v = 1 then s.reloaded die else s)

/-! ## Forming and dissolving a domain (R307, R420) -/

/-- Whether a slot's target lies outside the domain that has been formed (R421). Of another member package the module does not
know the partitions: there the answer is a free value. -/
def State.targetOut (s : State) (k : Nat) (ep : BitVec 32) : Bool :=
  match s.unitOf ep with
  | some (d, unit) => !s.windowInDomain d unit
  | none => !s.memberPkg (BitVec.ofNat 18 (field ep 14 18)) || s.isAgent ep || bitOf (Config.freeValue (s.free + k)) 0

/-- The slots of a context that joins: OUT follows the domain. `k` tells apart the free values of different threads. -/
def State.slotsOut (s : State) (k : Nat) (c : Ctx) : Vector DSlot 16 :=
  c.slots.mapIdx (fun i x => { x with out := x.bnd && s.targetOut (16 * k + i) x.ep })

/-- A context joins a domain that is being formed, with a full snapshot (R307, R330). -/
def State.joinNew (s : State) (u : CtxId) (n first : BitVec 32) : State :=
  let c := s.ctx u
  s.setCtx u { c with
    dom := true
    rin := first
    born := n
    arrived := n
    sealing := false
    slots := s.slotsOut u.key c
    snaps := setSnap c.snaps n (s.snapshot u c.pc first false) }

/-- The full snapshot of a forked thread whose commit token is on its way: at the start of the chunk to which it goes, the
carried registers at what the sewn chunk `c` has left in them (R169, R174, R322). -/
def State.atToken (s : State) (f : ForkId) (x : Fork) (c : Ctx) (rin : BitVec 32) : Snapshot :=
  let k := x.sewn
  let inc := (livRegs x.info.fkliv).map (fun r => (r, Incoming.final (c.x r)))
  let y := (x.startCtx k inc c.last).withToken (some x)
  { rin := rin
    sealing := false
    regs := y.regs
    pc := y.pc
    sup := y.sup
    csr := y.csr
    tln := y.tile.tln
    issue := y.tile.issue
    fork := some (x.info, k, inc)
    inner := none
    joinFirst := false
    home := s.chunkCtx f x k }

/-- What DOMCFG, DOMPARTS and DOMMEM may describe: a domain that R307 allows. -/
def State.domcfgOk (s : State) (v : Word) : Bool :=
  let leader := BitVec.ofNat 18 (field v 16 18)
  s.domain.isNone && decide (field v 0 16 ≠ 0) && decide (1 ≤ field v 36 4) && decide (field v 36 4 ≤ 8) &&
  bitOf s.hub.dommem (podPos s.pkg) && bitOf s.hub.dommem (podPos leader) && decide (field leader 10 8 = field s.pkg 10 8)

/-- The first interval: one above the highest RIN used in any member package, as the others have reported theirs. -/
def State.firstRin (s : State) : BitVec 32 :=
  if s.hub.dommem = 1#1024 <<< podPos s.pkg || s.hub.others.toNat ≤ s.hub.topRin.toNat then nextRin s.hub.topRin else nextRin s.hub.others

/-- The fields of DOMCFG. -/
def domcfgMask : Word := 0x800000F3FFFFFFFF

/-- Forming the domain that the registers describe. -/
def State.formDomain (s : State) (v : Word) : State :=
  let first := s.firstRin
  let n := first - 1
  let x : Domain := {
    domid := v.setWidth 16
    leader := BitVec.ofNat 18 (field v 16 18)
    usize := field v 36 4
    parts := s.hub.domparts.setWidth 16
    member := s.hub.dommem
    s := n
    declared := n
    reload := 0
    phase := .running
    wanted := false
    scrubbed := n }
  let s1 : State := { s with
    domain := some x
    hub := { s.hub with domcfg := v &&& domcfgMask }
    undo := Vector.replicate 8 []
    dies := s.dies.map (fun d => { d with sealed := n, arrivedFor := n }) }
  let joinFork (kf : Nat × Fork) : Nat × Fork :=
    if s1.inDomain (s1.partOf (ctxIdOfFork kf.1).die (ctxIdOfFork kf.1).quad.val) then
      (kf.1, { kf.2 with
        image := { kf.2.image with
          dom := true
          rin := first
          born := n }
        handover := kf.2.handover.map (fun c => { c with
          dom := true
          rin := first
          born := n
          arrived := n
          slots := s1.slotsOut (200000 + kf.1) c
          snaps := setSnap c.snaps n (s1.atToken (ctxIdOfFork kf.1) kf.2 c first) }) })
    else kf
  let s2 : State := { s1 with forks := s1.forks.map joinFork }
  let s3 := (s2.ctxs.filter (fun kc => decide (kc.2.status ≠ .free) && s2.inDomain (s2.partOfCtx (ctxOfKey kc.1)))).foldl
    (fun t kc => t.joinNew (ctxOfKey kc.1) n first) s2
  let join (k : Nat) (u : CtxId) (g : Option Fork) (c : Ctx) : Ctx :=
    let sn : Snapshot := {
      rin := first
      sealing := false
      regs := c.regs
      pc := c.pc
      sup := c.sup
      csr := c.csr
      tln := c.tile.tln
      issue := c.tile.issue
      fork := g.map (fun g => (g.info, g.info.oldest, []))
      inner := c.inner
      joinFirst := c.joinFirst
      home := u }
    { c with
      dom := true
      rin := first
      born := n
      arrived := n
      slots := s1.slotsOut k c
      snaps := setSnap c.snaps n sn }
  let queued (d : Die) (w : Swapped) : Bool := d.queue.any (fun q => (match q.item with
    | .swapped e _ => decide (e = w.entry)
    | .fresh _ _ _ _ _ => false) && s3.inDomain q.part)
  let savedFork (q : Part) (uc : CtxId × Ctx) : Option Fork :=
    (q.forks.find? (fun g => decide (g.1 = s3.forkIdOf uc.1) && (uc.2.chunk.isSome || uc.2.joinPhase))).map (·.2)
  { s3 with
    free := s3.free + 16 * 300000
    dies := s3.dies.mapIdx (fun i d => { d with swaps := d.swaps.map (fun w =>
      if queued d w then { w with ctx := join (5120 + 64 * i + w.entry) w.home w.fork w.ctx } else w) })
    parts := s3.parts.mapIdx (fun p q =>
      if s3.inDomain p then { q with saves := q.saves.map (fun uc => (uc.1, join (5632 + 5120 * p + uc.1.key) uc.1 (savedFork q uc) uc.2)) } else q) }

/-- A domain context is freed: what END releases, no completion word, requests dropped (R420 step 4). -/
def State.freeDomCtx (s : State) (u : CtxId) : State := ((s.releaseHoldings u).dropReqs (.here u)).updCtx u Ctx.emptied

/-- The mutexes of the domain's threads that are out of the machine become free as well (R243, R420). -/
def State.freeOutside (s : State) : State :=
  s.freeMutexes (fun _ h => match h with
    | .here _ => false
    | .parked _ _ => s.holderInDomain h
    | .saved _ _ => s.holderInDomain h
    | .outside _ => false)

/-- The arrivals remembered at a barrier domain stand once their domain is gone. -/
def BarDom.settle (x : BarDom) : BarDom :=
  match x.history.getLast? with
  | none => x
  | some a => { x with history := [(0, a.2.1, a.2.2)] }

/-- DISSOLVE (R420). Pending tails are discarded (log 127). -/
def State.dissolveDomain (dev : HeldStore → State → State) (s : State) : State :=
  let stopped := decide ((s.domain.map (·.phase)) ≠ some .running)
  let s1 := s.applySeal dev
  match s1.domain with
  | none => s1
  | some x =>
    let s2 := (if stopped then s1 else s1.stopDomain).dropDomain x.s
    let s3 := (s2.domForks.foldl (fun t f => t.dropFork f) (s2.domCtxs.foldl (fun t u => t.freeDomCtx u) s2)).freeOutside
    let gone (d : Die) (e : Nat) : Bool := d.swaps.any (fun w => decide (w.entry = e) && w.ctx.dom)
    { s3 with
      undo := Vector.replicate 8 []
      dies := s3.dies.map (fun d => { d with
        undoBuf := []
        holds := []
        sealed := 0
        arrivedFor := 0
        queue := d.queue.filter (fun q => match q.item with
          | .fresh _ _ _ _ dom => !dom && !s3.inDomain q.part
          | .swapped e _ => !gone d e)
        swaps := d.swaps.filter (fun w => !w.ctx.dom) })
      parts := s3.parts.map (fun p => { p with
        saves := p.saves.filter (fun uc => !uc.2.dom)
        forks := p.forks.filter (fun f => !f.2.image.dom) })
      bars := s3.bars.map (fun kb => (kb.1, kb.2.settle))
      domain := none
      hub := { s3.hub with
        domcfg := setField s3.hub.domcfg 63 1 0
        topRin := BitVec.ofNat 32 (max s3.hub.topRin.toNat (nextRin x.s).toNat) } }

/-! ## Background work on tags and the undo log (R314, R317) -/

/-- Slots of the frame in which the DRAM controllers serve background work of the hub (R129). -/
def State.slotOf (s : State) : Nat := s.time / 16 % 64

/-- UNDO_DRAIN: in the slots of undo-log writes (R129) the undo writer's records go into the undo region of its stack, which
has room for all of them (R318). -/
def execUndoDrain (die : Fin 8) (s : State) : Host.Outcome State Fault Refusal :=
  .next (
    let rs := (s.die die).undoBuf
    if decide (56 ≤ s.slotOf) && decide (s.slotOf < 60) && decide (rs.length ≤ s.undoFree die.val) then
      (s.setDie die { s.die die with undoBuf := [] }).appendUndo die.val rs
    else s)

/-- TAG_SCRUB: a pass over the tags, in the slots of management traffic (log 94). -/
def execTagScrub (s : State) : Host.Outcome State Fault Refusal := .next (if 62 ≤ s.slotOf then s.scrubTags else s)

/-! ## Errors (R332, R419) -/

/-- Class 2 record of an uncorrectable error. -/
def State.errorRecord (s : State) (e : ErrorSite) (rin : BitVec 32) (action : Nat) : State :=
  s.writeError ⟨e.path, rin, 2, action, e.synd, 0, 0⟩

/-- An error that rolls the domain back; of a domain that is stopped for good it is recorded only. -/
def State.rollError (s : State) (e : ErrorSite) (rin : BitVec 32) : State :=
  if (s.domain.map (·.phase)) = some .fatal then s.errorRecord e rin 3 else (s.errorRecord e rin 1).wantRollback

/-- A sector with its mark of poison (R419). -/
def State.poisoned (s : State) (e : ErrorSite) (pa : Nat) : State :=
  { s.errorRecord e 0 3 with poison := (pa / 64) :: s.poison }

/-- Memory that is certainly none of the domain's: the QSPM of a quad whose partition is not in it. -/
def State.apart (s : State) (pa : Nat) : Bool :=
  match s.place pa with
  | .dram => false
  | .qspm d q _ => !s.inDomain (s.partOf (mkFin8 d) q)
  | .evu _ _ _ => false
  | .device _ => false
  | .hole => false

/-- Intervals of the entries of a die's egress hold, in order of entry. -/
def State.heldRins (s : State) (d : Fin 8) : List (BitVec 32) :=
  ((s.net.filter (fun r => r.fromDie d && r.inHold)).map (·.rin)) ++ (s.die d).holds.map (·.rin)

/-- The thread whose save area holds an address: an error there is one in its state (R369). -/
def State.areaOwner (s : State) (pa : Nat) : Option Ctx :=
  let holds (base : Nat) (qcc : Bool) : Bool :=
    (areaReads s.mem base qcc).any (fun r => decide ((base + r.1) / 64 ≤ pa / 64) && decide (pa / 64 ≤ (base + r.1 + r.2 - 1) / 64))
  match (List.range 8).findSome? (fun d => ((s.die (mkFin8 d)).swaps.find? (fun w =>
      holds (swapArea (s.die (mkFin8 d)).swbase.toNat w.entry) w.home.isQcc)).map (·.ctx)) with
  | some c => some c
  | none => s.parts.toList.findSome? (fun p => (p.saves.find? (fun uc =>
      decide (uc.2.status ≠ .reserved) && holds (gangArea p.psave.toNat uc.1) uc.1.isQcc)).map (·.2))

/-- UNCORRECTABLE_ERROR, by where the error lies. Which interval is sealed is what the leader has declared (R332, log 118); the snapshot
in use is that of the sealed interval (log 132). -/
def State.uncorrectable (dev : HeldStore → State → State) (s : State) (e : ErrorSite) : State :=
  let fatal (s : State) : State :=
    if (s.domain.map (·.phase)) = some .fatal then s.errorRecord e 0 3 else s.domainFatal dev e.path e.synd
  match e.place with
  | .arrayCorrected => s.writeError ⟨e.path, 0, 1, 0, e.synd, 0, 0⟩
  | .cleanCopy => s.writeError ⟨e.path, 0, 1, 0, e.synd, 0, 0⟩
  | .sector pa =>
    let t := Table.getD s.tags (pa.toNat / 64) 0
    (match s.domain with
     | some x =>
       if x.phase = .fatal then s.poisoned e pa.toNat
       else if s.isExternal pa.toNat then fatal s
       else (match s.areaOwner pa.toNat with
         | some c => if c.dom then s.rollError e c.rin else s.poisoned e pa.toNat
         | none =>
           if t = 0 && s.apart pa.toNat then s.poisoned e pa.toNat
           else if t ≠ 0 && rinAfter t x.declared then s.rollError e t
           else fatal s)
     | none => s.poisoned e pa.toNat)
  | .context u =>
    let c := s.ctx u
    if c.status = .free then s.errorRecord e 0 3
    else if c.dom then s.rollError e c.rin
    else s.haltUncorrectable u (fun pc => ⟨e.path, 0, 2, 6, e.synd, 0, pc⟩)
  | .snapshot u i =>
    let c := s.ctx u
    if c.dom then
      (match c.snaps[i], s.domain with
       | some y, some x =>
         if y.rin = y.rinFor x.declared then fatal s
         else if rinAfter y.rin (y.rinFor x.declared) then s.rollError e c.rin else s.errorRecord e 0 3
       | _, _ => s.errorRecord e 0 3)
    else if c.status = .free then s.errorRecord e 0 3
    else s.haltUncorrectable u (fun pc => ⟨e.path, 0, 2, 6, e.synd, 0, pc⟩)
  | .egressHold d n =>
    (match (s.heldRins d)[n]?, s.domain with
     | some r, some x => if rinAfter r x.declared then s.rollError e r else fatal s
     | _, _ => s.errorRecord e 0 3)
  | .istore d unit off =>
    let k := s.core d unit.val
    let s1 := s.setCore d unit.val { k with bad := (off.toNat / 4) :: k.bad }
    if s.domCtxs.any (fun u => decide (u.die = d) && decide (u.unit = unit)) then
      (fun t : State => { t with domain := t.domain.map (fun x => { x with reload := setField x.reload d.val 1 1 }) }) (s1.rollError e 0)
    else s1.errorRecord e 0 3
  | .undoRegion _ => if s.domain.isSome then fatal s else s.errorRecord e 0 3
  | .logic => s.errorRecord e 0 3

/-- POISON_READ (R419): a context, or an engine acting for it, has read a poisoned sector: it halts. -/
def execPoisonRead (u : CtxId) (pa : BitVec 48) (s : State) : Host.Outcome State Fault Refusal :=
  .next (if s.poison.contains (pa.toNat / 64) && decide ((s.ctx u).status = .live) then s.haltPoisoned u else s)

end Sys2Proof.Machine
end

