-- ==== Sys2Proof/Machine/Dcr.lean ====
section
/-! DEFINITION. Device control registers: their map, reads, stores and refusals (14_system_traps.md R373, R418,
15_debug_test.md R380, R386, R389, R390, 16_host_bringup.md R394-R397), held device stores, and the events that are stores
to one register (01_machine.md R13, 12_recovery.md R323, R328, R329, R420). -/

namespace Sys2Proof.Machine

/-! ## The map -/

/-- A device control register. -/
inductive Dcr where
  | rcfg (d : Fin 8) (n : Fin 8)
  | ringCode (d : Fin 8) (q : Fin 32)
  | qccCode (d : Fin 8) (q : Fin 32)
  | swbase (d : Fin 8)
  | agentWin (d : Fin 8) (n : Fin 4)
  | rwin (d : Fin 8) (q : Fin 32) (n : Fin 4)
  | inc (d : Fin 8) (x : Fin 160)
  | halt (d : Fin 8) (x : Fin 160)
  | reload (d : Fin 8)
  | bar (b : BarKey) (part : Nat)        -- 0 configuration, 1 PH, 2 ARR, 3 and up: words of the member mask
  | trcbase (d : Fin 8)
  | trchead (d : Fin 8) (x : Fin 128)
  | trclost (d : Fin 8) (x : Fin 128)
  | bistst (d : Fin 8) (q : Fin 32)
  | cesel (d : Fin 8)
  | ceval (d : Fin 8)
  | pthr (d : Fin 8)
  | pseudo (d : Fin 8) (p : Nat)
  | domcfg | domparts | dommem (i : Nat) | rollreq | dissolve
  | pstate (p : Fin 16) | psave (p : Fin 16) | gswtCopy (p : Fin 16) | go (p : Fin 16) | swstat (p : Fin 16)
  | uelanes
  | errhead | errack | errlost
  | errrec (m : Nat) (w : Nat)
  | bootst | capw | reset | imgctl
  | attnonce (i : Fin 4)
  | attok
  | lane (die : Nat) (n : Nat) (hi : Bool)
deriving DecidableEq, Repr

/-- A register of `n` words of 8 bytes from `lo` on: the index of an offset. -/
def idx8 (off lo n : Nat) : Option Nat := if lo ≤ off ∧ off < lo + 8 * n ∧ off % 8 = 0 then some ((off - lo) / 8) else none

/-- Part of a barrier domain's block of `size` bytes; the members begin at `mem` and take `words` words. -/
def barPart (off size mem words : Nat) : Option (Nat × Nat) :=
  let o := off % size
  if o = 0 then some (off / size, 0)
  else if o = 8 then some (off / size, 1)
  else if o = 16 then some (off / size, 2)
  else (idx8 o mem words).map (fun w => (off / size, 3 + w))

def computeDcr (d : Fin 8) (off : Nat) : Option Dcr :=
  if off < 0x10000 then
    ((idx8 off 0x0000 8).map (fun n => .rcfg d (mkFin8 n))).orElse fun _ =>
    ((idx8 off 0x0100 32).map (fun q => .ringCode d (mkFin32 q))).orElse fun _ =>
    ((idx8 off 0x0200 32).map (fun q => .qccCode d (mkFin32 q))).orElse fun _ =>
    ((idx8 off 0x1000 1).map (fun _ => .swbase d)).orElse fun _ =>
    ((idx8 off 0x3000 4).map (fun n => .agentWin d (mkFin4 n))).orElse fun _ =>
    ((idx8 off 0x4000 160).map (fun x => .inc d (mkFin160 x))).orElse fun _ =>
    ((idx8 off 0x5000 160).map (fun x => .halt d (mkFin160 x))).orElse fun _ =>
    ((idx8 off 0x5800 1).map (fun _ => .reload d)).orElse fun _ =>
    ((idx8 off 0x6000 128).map (fun k => .rwin d (mkFin32 (k / 4)) (mkFin4 k)))
  else if off < 0x18000 then
    ((barPart ((off - 0x10000) % 0x400) 0x40 0x18 3).map (fun p => .bar ⟨.quad d (mkFin32 ((off - 0x10000) / 0x400)), mkFin16 p.1⟩ p.2))
  else if off < 0x20000 then
    ((barPart ((off - 0x18000) % 0x400) 0x40 0x18 3).map (fun p => .bar ⟨.ring d (mkFin32 ((off - 0x18000) / 0x400)), mkFin16 p.1⟩ p.2))
  else if off < 0x20400 then
    ((barPart (off - 0x20000) 0x40 0x18 3).map (fun p => .bar ⟨.die d, mkFin16 p.1⟩ p.2))
  else
    ((idx8 off 0x60000 1).map (fun _ => .trcbase d)).orElse fun _ =>
    ((idx8 off 0x61000 128).map (fun x => .trchead d ⟨x % 128, Nat.mod_lt _ (by decide)⟩)).orElse fun _ =>
    ((idx8 off 0x62000 128).map (fun x => .trclost d ⟨x % 128, Nat.mod_lt _ (by decide)⟩)).orElse fun _ =>
    ((idx8 off 0x63000 32).map (fun q => .bistst d (mkFin32 q))).orElse fun _ =>
    ((idx8 off 0x64000 1).map (fun _ => .cesel d)).orElse fun _ =>
    ((idx8 off 0x64008 1).map (fun _ => .ceval d)).orElse fun _ =>
    ((idx8 off 0x64010 1).map (fun _ => .pthr d)).orElse fun _ =>
    ((idx8 off 0x65000 384).map (fun p => .pseudo d p))

def hubDcr (off : Nat) : Option Dcr :=
  if off < 0x10000 then none
  else if off < 0x11000 then (barPart (off - 0x10000) 0x100 0x20 20).map (fun p => .bar ⟨.package, mkFin16 p.1⟩ p.2)
  else if 0x20000 ≤ off ∧ off < 0x21000 then (barPart (off - 0x20000) 0x100 0x20 16).map (fun p => .bar ⟨.pod, mkFin16 p.1⟩ p.2)
  else if off = 0x30000 then some .domcfg
  else if off = 0x30008 then some .domparts
  else if off = 0x30200 then some .rollreq
  else if off = 0x30208 then some .dissolve
  else if 0x40040 ≤ off ∧ off < 0x40400 then
    (let p := mkFin16 ((off - 0x40000) / 0x40)
     match off % 0x40 with
     | 0 => some (.pstate p)
     | 8 => some (.psave p)
     | 16 => some (.gswtCopy p)
     | 24 => some (.go p)
     | 32 => some (.swstat p)
     | _ => none)
  else if off = 0x50000 then some .uelanes
  else if off = 0x60000 then some .errhead
  else if off = 0x60008 then some .errack
  else if off = 0x60010 then some .errlost
  else if off = 0x70000 then some .bootst
  else if off = 0x70008 then some .capw
  else if off = 0x70010 then some .reset
  else if off = 0x70018 then some .imgctl
  else if off = 0x70040 then some .attok
  else
    ((idx8 off 0x30100 16).map (fun i => .dommem i)).orElse fun _ =>
    ((idx8 off 0x70020 4).map (fun i => .attnonce (mkFin4 i))).orElse fun _ =>
    ((idx8 off 0x80000 65536).map (fun w => .errrec (w / 8) (w % 8)))

/-- The register at an offset of the device control range. -/
def dcrAt (off : Nat) : Option Dcr :=
  let die := off / 0x100000
  let o := off % 0x100000
  if die < 8 then computeDcr (mkFin8 die) o
  else if die = 8 then hubDcr o
  else if 12 ≤ die ∧ die < 16 then
    (idx8 o 0x10000 1024).map (fun k => .lane (die - 12) (k / 2) (decide (k % 2 = 1)))
  else none

/-! ## Reads -/

def pstateCode (p : PState) : Nat :=
  match p with
  | .free => 0
  | .running => 1
  | .switching => 2
  | .saved => 3

/-- BOOTST (R394). -/
def bootstWord (h : Hub) : Word :=
  place 0 4 h.step ||| boolBit 4 (decide (h.step = 10)) ||| boolBit 5 h.failed ||| boolBit 6 h.recov ||| place 8 8 h.fcode.toNat

/-- Halted slots of a unit (R361). -/
def State.haltedSlots (s : State) (d : Fin 8) (unit : Nat) : Word :=
  (List.range 4).foldl (fun w k => w ||| boolBit k (decide ((s.ctx (mkCtxId d.val unit k)).status = .halted))) 0

/-- The key of the SRAM bank that a path names, ROW ignored (R390). -/
def bankKey (path : Word) : Nat := path.toNat / 2 ^ 18

/-- A pseudo-channel's counters at reset: no error, no repair, and the spare rows that the stack has (log 95). -/
def pseudoReset : Word := Config.spareRows.setWidth 64 <<< 48

def State.dcrGet (s : State) (r : Dcr) : Word :=
  let h := s.hub
  match r with
  | .rcfg d n => (s.die d).rcfg[n]
  | .ringCode d q => (s.ring d q.val).codeid.setWidth 64
  | .qccCode d q => (s.quad d q.val).codeid.setWidth 64
  | .swbase d => (s.die d).swbase
  | .agentWin d n => (s.gate d 1023).rwin[n]
  | .rwin d q n => (s.quad d q.val).rwin[n]
  | .inc d x => (s.core d x.val).inc.setWidth 64
  | .halt d x => s.haltedSlots d x.val
  | .reload _ => 0
  | .bar b k =>
    let x := s.bar b
    if k = 0 then boolBit 0 x.en ||| Machine.place 16 16 x.n
    else if k = 1 then x.ph.setWidth 64
    else if k = 2 then BitVec.ofNat 64 x.arr
    else BitVec.ofNat 64 (field x.members (64 * (k - 3)) 64)
  | .trcbase d => (s.die d).trcbase
  | .trchead d x => (s.core d x.val).head
  | .trclost d x => (s.core d x.val).lost
  | .bistst d q => (s.quad d q.val).bist
  | .cesel d => (s.die d).cesel
  | .ceval d => BitVec.ofNat 64 (Table.getD (s.die d).ceval (bankKey (s.die d).cesel) 0 % 2 ^ 32)
  | .pthr d => (s.die d).pthr
  | .pseudo d p => Table.getD (s.die d).pseudo p pseudoReset
  | .domcfg => h.domcfg
  | .domparts => h.domparts
  | .dommem i => BitVec.ofNat 64 (field h.dommem (64 * i) 64)
  | .rollreq => 0
  | .dissolve => 0
  | .pstate p => BitVec.ofNat 64 (pstateCode (s.part p.val).pstate)
  | .psave p => (s.part p.val).psave
  | .gswtCopy p => gswtMine (s.part p.val)
  | .go _ => 0
  | .swstat p => boolBit 0 (s.part p.val).late ||| Machine.place 32 32 (s.part p.val).spill
  | .uelanes => h.uelanes.setWidth 64
  | .errhead => h.errhead
  | .errack => h.errack
  | .errlost => h.errlost
  | .errrec m w => BitVec.ofNat 64 (field (Table.getD h.errors m 0) (64 * w) 64)
  | .bootst => bootstWord h
  | .capw => h.capw.setWidth 64
  | .reset => 0
  | .imgctl => h.imglen.setWidth 64
  | .attnonce i => h.nonce[i]
  | .attok => 0
  | .lane o n hi =>
    let v := Table.getD h.lanes (512 * o + n) (0, 0)
    if hi then v.2 else v.1

/-! ## Windows (R257) -/

/-- The value that a write of a window register leaves: reserved bits are 0. -/
def rwinMask : Word := 0xFFFFFFFFFFFF3F7F

/-- What R257 refuses; `quad` is none for a die agent. -/
def State.rwinBad (s : State) (d : Fin 8) (quad : Option Nat) (v : Word) : Bool :=
  let ssc := winSsc v
  let inQspm : Bool := match quad with
    | none => false
    | some q => decide (qspmBase d.val q ≤ winBase v) && decide (winBase v + winSize v ≤ qspmBase d.val q + 0x400000)
  decide (ssc < 2) || decide (4 < winTgt v) || (winExt v && !winRing v) || (winIst v && (winRing v || bitOf v 1 || bitOf v 3)) ||
  (winIst v && (decide (winBase v ≠ 0) || decide (field v 48 16 ≠ (if winTgt v = 4 then 1 else 2)))) ||
  (winIst v && quad.isNone) ||
  (!winIst v && winEn v && (decide (winSize v = 0) || !(decide (winBase v + winSize v ≤ s.dramEnd) || inQspm)))

/-- A window written: a ring that is enabled anew starts with HEAD 0, its engine reading TAIL from memory (R259, R260). -/
def Quad.setWindow (q : Quad) (m : List Host.Cell) (n : Fin 4) (v : Word) : Quad :=
  let old := q.rwin[n]
  let w := v &&& rwinMask
  let fresh := winEn w && winRing w && !(winEn old && winRing old && decide (winBase old = winBase w) && decide (winSize old = winSize w))
  let tail := mem64 m (winBase w + 8)
  { q with
    rwin := q.rwin.set n.val w n.isLt
    engines := if fresh then q.engines.set n.val { RingEngine.reset with tail := tail, sealed := tail } n.isLt else q.engines }

/-- A write of a quad's window register, or none where it is refused. -/
def State.rwinPut (s : State) (d : Fin 8) (q : Nat) (n : Fin 4) (v : Word) : Option State :=
  if s.rwinBad d (some q) (v &&& rwinMask) then none else some (s.setQuad d q ((s.quad d q).setWindow s.mem n v))

/-! ## RCFG (R13, R418) -/

def rcfgPart (v : Word) (j : Nat) : Nat := field v (8 * j + 8) 8

/-- The number of configured rings that a MODE makes. -/
def modeRings (mode : Nat) : Nat := if mode = 0 then 1 else if mode = 1 then 2 else 4

/-- Values that RCFG refuses as such. -/
def rcfgIllegal (v : Word) : Bool :=
  decide (field v 0 2 = 3) ||
  (List.range 4).any (fun j => decide (15 < rcfgPart v j) || (decide (modeRings (field v 0 2) ≤ j) && decide (rcfgPart v j ≠ 0)))

/-- Whether a configured ring holds no thread, reserved slot or halted slot; its cores' contexts are what a ring holds (R10,
log 59). -/
def State.ringEmpty (s : State) (d : Fin 8) (first quads : Nat) : Bool :=
  (List.range (4 * quads)).all (fun i =>
    (List.range 4).all (fun k => decide ((s.ctx (mkCtxId d.val (4 * first + i) k)).status = .free))) &&
  (List.range 4).all (fun k => (s.fork ⟨d, mkFin32 first, mkFin4 k⟩).isNone)

/-- The changes that R13 refuses with PRIVILEGE. -/
def State.rcfgDenied (s : State) (d n : Fin 8) (v : Word) : Bool :=
  let old := (s.die d).rcfg[n]
  let mode := field v 0 2
  (decide (field old 0 2 ≠ mode) && (List.range 4).any (fun j => decide (rcfgPart old j ≠ 0))) ||
  (List.range (modeRings mode)).any (fun j =>
    decide (rcfgPart old j ≠ rcfgPart v j) &&
    (!s.ringEmpty d (4 * n.val + j * modeQuads mode) (modeQuads mode) || decide ((s.part (rcfgPart old j)).pstate = .switching)))

/-- PSTATE after a store to RCFG (R373). -/
def State.settleParts (s : State) (v : Word) : State :=
  { s with parts := s.parts.mapIdx (fun p x =>
      if p = 0 then x
      else if x.pstate = .free && (List.range 4).any (fun j => decide (rcfgPart v j = p)) then { x with pstate := .running }
      else if x.pstate = .running && (s.ringsOf p).isEmpty then { x with pstate := .free }
      else x) }

def State.rcfgPut (s : State) (d n : Fin 8) (v : Word) : State :=
  let x := s.die d
  let w := v &&& 0xFFFFFFFF03
  let old := x.rcfg[n]
  let s1 := s.setDie d { x with rcfg := x.rcfg.set n.val w n.isLt }
  let s2 := if field old 0 2 = field w 0 2 then s1
    else (List.range 4).foldl (fun t i =>
      let q := 4 * n.val + i
      t.setRing d q { Ring.fresh s.hub.qcore (4 * modeQuads (field w 0 2)) with codeid := (s.ring d q).codeid }) s1
  (s2.settleParts w).renewOut

/-! ## Freeing halted slots (R361) -/

def State.freeHalted (s : State) (u : CtxId) : State :=
  if (s.ctx u).status ≠ .halted then s
  else
    let f := s.forkIdOf u
    let c := s.ctx u
    let s1 := (s.releaseHoldings u).dropReqs (.here u)
    let s2 := if c.chunk.isSome || c.joinPhase then (s1.unpickYounger u .oth).dropFork f else s1
    s2.vacate u

def State.haltFree (s : State) (d : Fin 8) (unit : Nat) (v : Word) : State :=
  (List.range 4).foldl (fun t k => if bitOf v k then t.freeHalted (mkCtxId d.val unit k) else t) s

/-! ## Module reset and bring-up registers (R394-R397) -/

/-- RESET: the module at its reset state; memory and ISTORE bytes stand, and so do the package number, TIME and what the
model's surroundings do next. -/
def State.moduleReset (s : State) : State :=
  { State.reset with
    cores := s.cores.map (fun kc => (kc.1, { Core.reset with istore := kc.2.istore, bad := kc.2.bad }))
    mem := s.mem
    poison := s.poison
    pkg := s.pkg
    time := s.time
    frames := s.frames
    sweeps := s.sweeps
    turn := s.turn
    agenda := s.agenda
    seq := s.seq
    free := s.free
    hub := { Hub.reset with
      tripped := s.hub.tripped
      image := s.hub.image } }

/-- The module sends the control node an attestation report: the nonce, and what the module alone knows (R397, log 96). -/
def State.report (s : State) : State :=
  { s with
    free := s.free + 1
    hub := { s.hub with report := some {
      nonce := s.hub.nonce
      image := s.hub.image
      fuses := 1
      rom := 2
      sign := s.free } } }

/-- ATTNONCEi: a report that stands no longer does; ATTNONCE3 starts step 9 or a fresh report. -/
def State.noncePut (s : State) (i : Fin 4) (v : Word) : State :=
  let h := s.hub
  let s1 := { s with hub := { h with
      nonce := h.nonce.set i.val v i.isLt
      asked := decide (i.val = 3)
      report := none } }
  if i.val = 3 && decide (8 ≤ h.step) && !h.failed && !h.recov then s1.report else s1

/-- Step 10: every partition is free, no domain is formed, every CODEID is 0 (R395). -/
def State.ready (s : State) : State :=
  { s with
    dies := s.dies.map (fun d => { d with rcfg := d.rcfg.map (fun v => v &&& 3) })
    rings := s.rings.map (fun kr => (kr.1, { kr.2 with codeid := 0 }))
    quads := s.quads.map (fun kq => (kq.1, { kq.2 with codeid := 0 }))
    parts := Vector.replicate 16 Part.reset
    domain := none
    hub := { s.hub with step := 10, domcfg := setField s.hub.domcfg 63 1 0 } }

/-- ATTOK: accepting the report that stands makes the module Ready, or finds it so; everything else is a rejection. -/
def State.attok (s : State) (v : Word) : State :=
  if v = 1 && decide (s.hub.report.map (·.nonce) = some s.hub.nonce) then (if s.hub.step = 8 then s.ready else s) else s.moduleReset

/-- IMGCTL in recovery mode with LOAD = 1: the image is installed and the module resets, or recovery goes on. -/
def State.imgctl (s : State) (v : Word) (good : Bool) : State :=
  let h := { s.hub with imglen := v.setWidth 32 }
  if bitOf v 63 && h.recov then
    (if good then { s with
      hub := { h with image := s.free }
      free := s.free + 1 }.moduleReset else { s with hub := { h with fcode := 1 } })
  else { s with hub := h }

/-! ## Stores -/

/-- A refusal counted in ERRLOST (R418). -/
def State.countLost (s : State) : State := { s with hub := { s.hub with errlost := s.hub.errlost + 1 } }

/-- How a register refuses a value (R418). -/
inductive DcrRefusal where
  | illegal | privileged
deriving DecidableEq, Repr

def setMember (m : BitVec 1280) (w : Nat) (v : Word) : BitVec 1280 := setField m (64 * w) 64 v.toNat

/-- A store to a barrier domain (R245): a store of its configuration starts it at phase 0. -/
def BarDom.put (x : BarDom) (k width : Nat) (v : Word) : Option BarDom :=
  if k = 0 then
    (if bitOf v 0 && decide (field v 16 16 = 0) then none
     else some { x with
       en := bitOf v 0
       n := field v 16 16
       ph := 0
       arr := 0
       history := [] })
  else if k < 3 then some x
  else some { x with members := setMember x.members (k - 3) v &&& BitVec.ofNat 1280 (2 ^ width - 1) }

/-- Member bits of a network's mask. -/
def barWidth (b : BarKey) : Nat :=
  match b.net with
  | .quad _ _ => 160
  | .ring _ _ => 160
  | .die _ => 160
  | .package => 1280
  | .pod => 1024

/-- A store that a register accepts or refuses; `diss` is what a store to DISSOLVE does. -/
def State.dcrPutWith (diss : State → State) (s : State) (r : Dcr) (v : Word) : Except DcrRefusal State :=
  let h := s.hub
  match r with
  | .rcfg d n => if rcfgIllegal v then .error .illegal else if s.rcfgDenied d n v then .error .privileged else .ok (s.rcfgPut d n v)
  | .ringCode d q => .ok (s.setRing d q.val { s.ring d q.val with codeid := v.setWidth 32 })
  | .qccCode d q => .ok (s.setQuad d q.val { s.quad d q.val with codeid := v.setWidth 32 })
  | .swbase d => .ok (s.setDie d { s.die d with swbase := v &&& 0xFFFFFFF00000 })
  | .agentWin d n =>
    if s.rwinBad d none (v &&& rwinMask) then .error .illegal else .ok (s.setGate d 1023 ((s.gate d 1023).setWindow s.mem n v))
  | .rwin d q n => match s.rwinPut d q.val n v with
    | none => .error .illegal
    | some t => .ok t
  | .inc d x => .ok (s.setCore d x.val { s.core d x.val with inc := (s.core d x.val).inc + 1 })
  | .halt d x => .ok (s.haltFree d x.val v)
  | .reload d => .ok (if v = 1 then s.reloaded d else s)
  | .bar b k => match (s.bar b).put k (barWidth b) v with
    | none => .error .illegal
    | some x => .ok (s.setBar b x)
  | .trcbase d => .ok (s.setDie d { s.die d with trcbase := v &&& 0xFFFFFFE00001 })
  | .trchead _ _ => .ok s
  | .trclost d x => .ok (s.setCore d x.val { s.core d x.val with lost := 0 })
  | .bistst _ _ => .ok s
  | .cesel d => .ok (s.setDie d { s.die d with cesel := v })
  | .ceval d => .ok (s.setDie d { s.die d with ceval := Table.drop (s.die d).ceval (bankKey (s.die d).cesel) })
  | .pthr d => .ok (s.setDie d { s.die d with pthr := v })
  | .pseudo _ _ => .ok s
  | .domcfg =>
    if bitOf v 63 then (if s.domcfgOk v then .ok (s.formDomain v) else .error .illegal)
    else if s.domain.isSome then .error .illegal
    else .ok { s with hub := { h with domcfg := v &&& domcfgMask } }
  | .domparts => .ok { s with hub := { h with domparts := v &&& 0xFFFE } }
  | .dommem i => .ok { s with hub := { h with dommem := setField h.dommem (64 * i) 64 v.toNat } }
  | .rollreq => .ok (if v = 1 then s.wantRollback else s)
  | .dissolve => if s.domain.isNone then .error .illegal else .ok (if v = 1 then diss s else s)
  | .pstate _ => .ok s
  | .psave p => .ok (s.setPart p.val { s.part p.val with psave := v &&& 0xFFFFFFF00000 })
  | .gswtCopy _ => .ok s
  | .go p => .ok (s.setPart p.val { s.part p.val with go := true })
  | .swstat _ => .ok s
  | .uelanes => if 64 < field v 0 7 then .error .illegal else .ok { s with hub := { h with uelanes := v.setWidth 7 } }
  | .errhead => .ok s
  | .errack => .ok { s with hub := { h with errack := v } }
  | .errlost => .ok { s with hub := { h with errlost := 0 } }
  | .errrec _ _ => .ok s
  | .bootst => .ok s
  | .capw =>
    if field v 0 13 < 1500 ∨ 4000 < field v 0 13 then .ok s.countLost
    else .ok { s with hub := { h with capw := v.setWidth 13, qcore := Config.quantumOf (v.setWidth 13) } }
  | .reset => .ok (if bitOf v 0 then s.moduleReset else s)
  | .imgctl =>
    let f := s.fresh
    .ok (if bitOf v 63 && h.recov then f.2.imgctl v (bitOf f.1 0) else s.imgctl v false)
  | .attnonce i => .ok (s.noncePut i v)
  | .attok => .ok (s.attok v)
  | .lane _ _ _ => .ok s

/-- Held device stores as SEALED n performs them (R325, R418): one that is refused by now is dropped with a record. A
device store to other memory is an untagged write. The first argument bounds the nesting of a released DISSOLVE. -/
def performHeld : Nat → HeldStore → State → State
  | 0, _, s => s
  | fuel + 1, h, s =>
    match s.place h.pa with
    | .device off =>
      (match dcrAt off with
       | none => s
       | some r =>
         match s.dcrPutWith (State.dissolveDomain (performHeld fuel)) r h.val with
         | .ok t => t
         | .error _ => s.writeError {
             path := s.pathOf h.src
             rin := h.rin
             cls := 9
             action := 3
             synd := 0
             info1 := BitVec.ofNat 64 h.pa
             info2 := (s.endpoint h.src.die h.src.unit.val).setWidth 64 ||| Machine.place 32 2 h.src.slot.val })
    | .dram => s.store none 0 h.pa (bytesOf h.size h.val.toNat)
    | .qspm _ _ _ => s.store none 0 h.pa (bytesOf h.size h.val.toNat)
    | .evu _ _ _ => s
    | .hole => s

/-- What a released device store does. A DISSOLVE among them finds its seal applied, so one level of nesting is enough. -/
def dev : HeldStore → State → State := performHeld 2

/-- A store of a register's value. -/
def State.dcrPut (s : State) (r : Dcr) (v : Word) : Except DcrRefusal State := s.dcrPutWith (State.dissolveDomain dev) r v

/-- Whether the control node reaches a register: from step 6 on, and IMGCTL in recovery mode, in which every other store is
not accepted (R394, R396). -/
def Hub.reaches (h : Hub) (r : Dcr) : Bool := decide (6 ≤ h.step) || (h.recov && decide (r = .imgctl))

/-- A store by the control node: a refused value is ignored and counted. -/
def State.hostPut (s : State) (r : Dcr) (v : Word) : State :=
  if !s.hub.reaches r then s
  else match s.dcrPut r v with
    | .ok t => t
    | .error _ => s.countLost

/-! ## Events that are stores of the control node, or come about through one -/

def execRcfgWrite (die n : Fin 8) (v : BitVec 64) (s : State) : Host.Outcome State Fault Refusal :=
  .next (s.hostPut (.rcfg die n) v)

def execRwinWrite (die : Fin 8) (q : Fin 32) (n : Fin 4) (v : BitVec 64) (s : State) : Host.Outcome State Fault Refusal :=
  .next (s.hostPut (.rwin die q n) v)

def execIncAdvance (die : Fin 8) (x : Fin 160) (s : State) : Host.Outcome State Fault Refusal :=
  .next (s.hostPut (.inc die x) 0)

def execHaltFree (die : Fin 8) (x : Fin 160) (v : BitVec 64) (s : State) : Host.Outcome State Fault Refusal :=
  .next (s.hostPut (.halt die x) v)

/-- `off` is the offset within the block of the domain. -/
def execBarrierDomainConfig (b : BarKey) (off : Nat) (v : BitVec 64) (s : State) : Host.Outcome State Fault Refusal :=
  .next (
    let wide := decide (b.net = .package) || decide (b.net = .pod)
    match barPart off (if wide then 0x100 else 0x40) (if wide then 0x20 else 0x18) (if b.net = .package then 20 else if b.net = .pod then 16 else 3) with
    | some (0, k) => s.hostPut (.bar b k) v
    | _ => s)

def execDomcfgWrite (v : BitVec 64) (s : State) : Host.Outcome State Fault Refusal := .next (s.hostPut .domcfg v)
def execRollreq (v : BitVec 64) (s : State) : Host.Outcome State Fault Refusal := .next (s.hostPut .rollreq v)
def execDissolve (v : BitVec 64) (s : State) : Host.Outcome State Fault Refusal := .next (s.hostPut .dissolve v)
def execTrclostClear (die : Fin 8) (x : Fin 128) (s : State) : Host.Outcome State Fault Refusal := .next (s.hostPut (.trclost die x) 0)
def execErrlostClear (s : State) : Host.Outcome State Fault Refusal := .next (s.hostPut .errlost 0)
def execCevalClear (die : Fin 8) (s : State) : Host.Outcome State Fault Refusal := .next (s.hostPut (.ceval die) 0)
def execCapwWrite (v : BitVec 64) (s : State) : Host.Outcome State Fault Refusal := .next (s.hostPut .capw v)
def execModuleReset (v : BitVec 64) (s : State) : Host.Outcome State Fault Refusal := .next (s.hostPut .reset v)
def execImageLoad (v : BitVec 64) (good : Bool) (s : State) : Host.Outcome State Fault Refusal :=
  .next (if s.hub.reaches .imgctl then s.imgctl v good else s)
def execAttnonceWrite (k : Fin 4) (v : BitVec 64) (s : State) : Host.Outcome State Fault Refusal := .next (s.hostPut (.attnonce k) v)
def execAttokWrite (v : BitVec 64) (s : State) : Host.Outcome State Fault Refusal := .next (s.hostPut .attok v)

/-- The offset in the staging window of a physical address (R396). -/
def stagingOff (pa : Nat) : Option Nat :=
  if 0x130010000000 ≤ pa ∧ pa < 0x130014000000 then some (pa - 0x130010000000) else none

/-- A write of the control node to the staging window: outside recovery mode the window does not exist, and the write is
refused and counted (R396). -/
def State.stagingPut (s : State) (off : Nat) (data : List Byte) : State :=
  if s.hub.recov then { s with hub := { s.hub with staging := memWrite s.hub.staging off (data.take (2 ^ 26 - off)) } } else s.countLost

/-- DCR_WRITE: a store by the control node to the register at a physical address, or to the staging window; elsewhere it is
ignored and counted. -/
def execDcrWrite (pa : BitVec 48) (v : BitVec 64) (s : State) : Host.Outcome State Fault Refusal :=
  .next (if s.hub.step < 6 && !s.hub.recov then s
    else match stagingOff pa.toNat with
    | some off => s.stagingPut off (bytesOf 8 v.toNat)
    | none => match s.place pa.toNat with
      | .device off => (match dcrAt off with
        | none => s.countLost
        | some r => s.hostPut r v)
      | .dram => s.countLost
      | .qspm _ _ _ => s.countLost
      | .evu _ _ _ => s.countLost
      | .hole => s.countLost)

/-- SEALED_APPLY (R323). -/
def execSealedApply (s : State) : Host.Outcome State Fault Refusal := .next (s.applySeal dev).leaveHold

/-- DOMAIN_ROLLBACK (R329 steps 1 to 7): a rollback that this package has raised, or that the leader of other packages
orders. Another error during the rollback starts it again. -/
def execDomainRollback (s : State) : Host.Outcome State Fault Refusal :=
  .next (match s.domain with
    | none => s
    | some x => if decide (x.phase ≠ .fatal) && (x.wanted || !x.sole s.pkg) then s.rollback dev else s)

/-- UNCORRECTABLE_ERROR (R332, R419). -/
def execUncorrectableError (e : ErrorSite) (s : State) : Host.Outcome State Fault Refusal := .next (s.uncorrectable dev e)

/-- A threshold record of R390. -/
def State.threshold (s : State) (path : Word) : State := s.writeError ⟨path, 0, 7, 3, 0, 0, 0⟩

/-- Counting a corrected error where the path names an SRAM bank of a compute die, a DRAM pseudo-channel or an optical
lane, with the record of R390 when a bank first reaches its threshold. Which receive lane a fibre and a wavelength name is the
model's choice (log 97). -/
def State.countCorrected (s : State) (path : Word) : State :=
  let die := field path 42 4
  let array := field path 28 6
  let bank := field path 18 10
  if die < 8 then
    let d := mkFin8 die
    let x := s.die d
    if array = 0x20 then
      (if bank < 384 then
        let v := Table.getD x.pseudo bank pseudoReset
        s.setDie d { x with pseudo := Table.put x.pseudo bank (setField v 0 32 (field v 0 32 + 1)) } else s)
    else
      let k := bankKey path
      let n := Table.getD x.ceval k 0 + 1
      let s1 := s.setDie d { x with ceval := Table.put x.ceval k n }
      if decide (field x.pthr 0 32 ≠ 0) && decide (n = field x.pthr 0 32) then s1.threshold path else s1
  else if 12 ≤ die && decide (array = 0x28) then
    let k := 512 * (die - 12) + (4 * bank + field path 0 18) % 512
    let v := Table.getD s.hub.lanes k (0, 0)
    { s with hub := { s.hub with lanes := Table.put s.hub.lanes k (v.1 + 1, v.2) } }
  else s

/-- The threshold of lane error rates: the least that a compute die's PTHR names, 0 where none does (log 97). -/
def State.laneLimit (s : State) : Nat :=
  (s.dies.toList.map (fun d => field d.pthr 32 32)).foldl (fun m t => if m = 0 then t else if t = 0 then m else min m t) 0

/-- A receive lane's pre-FEC error rate, saturating in its 32 bits, with the record of R390 when it first reaches the
threshold. -/
def State.laneRate (s : State) (die : Fin 4) (n : Fin 512) (v : BitVec 32) : State :=
  let k := 512 * die.val + n.val
  let old := Table.getD s.hub.lanes k (0, 0)
  let s1 := { s with hub := { s.hub with lanes := Table.put s.hub.lanes k (old.1, v.setWidth 64) } }
  if decide (s.laneLimit ≠ 0) && decide (s.laneLimit ≤ v.toNat) && !s.hub.laneHits.contains k then
    { s1 with hub := { s1.hub with laneHits := k :: s1.hub.laneHits } }.threshold
      (unitPath s.pkg.toNat (12 + die.val) 0 6 0x28 (n.val / 4) (n.val % 4))
  else s1

/-- A DRAM row replaced by a spare, with the record of R390 when none is left. -/
def State.rowRepair (s : State) (d : Fin 8) (p : Fin 384) : State :=
  let x := s.die d
  let v := Table.getD x.pseudo p.val pseudoReset
  let spares := field v 48 16
  if spares = 0 then s
  else
    let w := setField (setField v 32 16 (field v 32 16 + 1)) 48 16 (spares - 1)
    let s1 := s.setDie d { x with pseudo := Table.put x.pseudo p.val w }
    if spares = 1 then s1.threshold (unitPath s.pkg.toNat d.val 0 6 0x20 p.val 0) else s1

/-- A transmit lane that fails to lock at step 5 is disabled (R395). -/
def State.laneLost (s : State) (die : Fin 4) (lane : Fin 512) : State :=
  if decide (5 ≤ s.hub.step) || s.hub.lanesOff.contains (die.val, lane.val) then s
  else { s with hub := { s.hub with lanesOff := (die.val, lane.val) :: s.hub.lanesOff } }

/-- CORRECTED_ERROR: a record of class 1, action 0; counters and thresholds. -/
def execCorrectedError (e : ErrorSite) (s : State) : Host.Outcome State Fault Refusal :=
  .next ((s.writeError ⟨e.path, 0, 1, 0, e.synd, 0, 0⟩).countCorrected e.path)

end Sys2Proof.Machine
end

