-- ==== Sys2Proof/Machine/LoadStore.lean ====
section
/-! DEFINITION. Scalar loads and stores, majors 0x14 and 0x15 (05_memory_access.md R108-R111), to normal memory and to pages
of device kind, device control registers among them (14_system_traps.md R373, R418, 12_recovery.md R325). -/

namespace Sys2Proof.Machine

/-- The device register that an access of `n` bytes reaches, after the checks that device registers add to R109. -/
def State.deviceReg (s : State) (ea : Word) (n off : Nat) (f : Dcr → State → State) : State :=
  if 0x1000000 ≤ off then s.raise causeRange ea
  else if n ≠ 8 then s.raise causePermission ea
  else match dcrAt off with
    | none => s.raise causeRange ea
    | some r => f r s

/-- Memory read by a scalar load: `f` gets the bytes' value. -/
def State.loadMem (s : State) (ea : Word) (pa n : Nat) (f : Nat → State → State) : State :=
  (s.readPa pa n).finish fun bs s => f (ofBytes bs) ((s.noteLoad ea pa).countQspm pa)

/-- A load of device kind is irrevocable (R111), and begins once the context's device stores that the egress hold keeps are
performed (R108). -/
def State.deviceLoad (s : State) (f : State → State) : State :=
  s.irrevocably fun s => if !(s.heldStores s.cur).isEmpty then s.hold .poll else f s

/-- A scalar load of `n` bytes; `ext` makes the register's value. -/
def State.load (s : State) (d base : BitVec 5) (off : BitVec 13) (n : Nat) (ext : Nat → Word) : State :=
  let ea := s.x base + sext off
  (s.checkMine .load true ea n).finish fun m s =>
    match s.place m.pa with
    | .device o => s.deviceReg ea n o fun r s => s.deviceLoad fun s => s.retire d (ext (s.dcrGet r).toNat)
    | .dram =>
      if m.kind = 1 then s.deviceLoad fun s => s.loadMem ea m.pa n fun v s => s.retire d (ext v)
      else s.loadMem ea m.pa n fun v s => s.retire d (ext v)
    | .qspm _ _ _ =>
      if m.kind = 1 then s.deviceLoad fun s => s.loadMem ea m.pa n fun v s => s.retire d (ext v)
      else s.loadMem ea m.pa n fun v s => s.retire d (ext v)
    | .evu _ _ _ => s.raise causePermission ea
    | .hole => s.raise causeRange ea

/-- A store of device kind by a domain context goes into the egress hold of its die once there is room (R325). -/
def State.holdStore (s : State) (va : Word) (pa n : Nat) (v : Word) : State :=
  let d := s.cur.die
  if s.storeCount s.cur ≥ classLimit || decide (s.holdFree d < 1) then s.hold .poll
  else
    let h : HeldStore := {
      src := s.cur
      who := .here s.cur
      rin := s.me.rin
      pa := pa
      size := n
      val := v
      seq := s.seq
      via := s.entriesFor (s.viewer s.cur) [va] }
    ({ s.setDie d { s.die d with holds := (s.die d).holds ++ [h] } with seq := s.seq + 1 }).advance

/-- A store to a device control register, checked at issue (R418). -/
def State.storeReg (s : State) (i : Instr) (ea : Word) (pa : Nat) (r : Dcr) (v : Word) : State :=
  match s.advance.dcrPut r v with
  | .error .privileged => s.privileged i
  | .error .illegal => s.raise causeIllegalOperand ea
  | .ok t => if s.me.dom then s.holdStore ea pa 8 v else if s.storeCount s.cur ≥ classLimit then s.hold .poll else t

/-- A store to memory of `n` bytes, of normal kind, or of device kind outside a domain. -/
def State.storeMem (s : State) (pa n : Nat) (v : Word) : State :=
  if s.storeCount s.cur ≥ classLimit then s.hold .poll
  else (s.writePa pa (bytesOf n v.toNat)).finish fun _ s =>
    ((s.noteStore pa).countQspm pa).upd (fun c => (c.addStore 0).advance)

/-- A store of device kind to memory. -/
def State.storeUncached (s : State) (va : Word) (pa n : Nat) (v : Word) : State :=
  s.irrevocably fun s => if s.me.dom then s.holdStore va pa n v else s.storeMem pa n v

/-- A scalar store of `n` bytes of s[d] (R110). -/
def State.storeScalar (s : State) (i : Instr) (d base : BitVec 5) (off : BitVec 13) (n : Nat) : State :=
  s.sealGate fun s =>
    let ea := s.x base + sext off
    let v := s.x d
    (s.checkMine .store true ea n).finish fun m s =>
      match s.place m.pa with
      | .device o => s.deviceReg ea n o fun r s => s.irrevocably fun s => s.storeReg i ea m.pa r v
      | .dram => if m.kind = 1 then s.storeUncached ea m.pa n v else s.storeMem m.pa n v
      | .qspm _ _ _ => if m.kind = 1 then s.storeUncached ea m.pa n v else s.storeMem m.pa n v
      | .evu _ _ _ => s.raise causePermission ea
      | .hole => s.raise causeRange ea

def execLdb (d base : BitVec 5) (off : BitVec 13) (s : State) : Host.Outcome State Fault Refusal :=
  .next (s.load d base off 1 (signExtend64 8))

def execLdbu (d base : BitVec 5) (off : BitVec 13) (s : State) : Host.Outcome State Fault Refusal :=
  .next (s.load d base off 1 (BitVec.ofNat 64))

def execLdh (d base : BitVec 5) (off : BitVec 13) (s : State) : Host.Outcome State Fault Refusal :=
  .next (s.load d base off 2 (signExtend64 16))

def execLdhu (d base : BitVec 5) (off : BitVec 13) (s : State) : Host.Outcome State Fault Refusal :=
  .next (s.load d base off 2 (BitVec.ofNat 64))

def execLdw (d base : BitVec 5) (off : BitVec 13) (s : State) : Host.Outcome State Fault Refusal :=
  .next (s.load d base off 4 (signExtend64 32))

def execLdwu (d base : BitVec 5) (off : BitVec 13) (s : State) : Host.Outcome State Fault Refusal :=
  .next (s.load d base off 4 (BitVec.ofNat 64))

def execLdd (d base : BitVec 5) (off : BitVec 13) (s : State) : Host.Outcome State Fault Refusal :=
  .next (s.load d base off 8 (BitVec.ofNat 64))

def execStb (d base : BitVec 5) (off : BitVec 13) (s : State) : Host.Outcome State Fault Refusal :=
  .next (s.storeScalar (.stb d base off) d base off 1)

def execSth (d base : BitVec 5) (off : BitVec 13) (s : State) : Host.Outcome State Fault Refusal :=
  .next (s.storeScalar (.sth d base off) d base off 2)

def execStw (d base : BitVec 5) (off : BitVec 13) (s : State) : Host.Outcome State Fault Refusal :=
  .next (s.storeScalar (.stw d base off) d base off 4)

def execStd (d base : BitVec 5) (off : BitVec 13) (s : State) : Host.Outcome State Fault Refusal :=
  .next (s.storeScalar (.std d base off) d base off 8)

/-- ACCESS_PERFORMED: the oldest issued store or atomic of a context is acknowledged by its coherence point, and an atomic's
flags reach FFLG (R117, R235, R283). -/
def execAccessPerformed (u : CtxId) (s : State) : Host.Outcome State Fault Refusal :=
  .next (match (s.ctx u).accs with
    | [] => s
    | a :: rest => s.updCtx u (fun c => { (c.orF a.flags) with accs := rest }))

end Sys2Proof.Machine
end

