-- ==== Sys2Proof/Machine/System.lean ====
section
/-! DEFINITION. System instructions, major 0x2E (14_system_traps.md R358-R366, 05_memory_access.md R125-R127,
15_debug_test.md R382-R386), interrupt entry, and the trace entries and pipe events of completed vector instructions
(R377, R379). -/

namespace Sys2Proof.Machine

/-! ## ECALL, BRK, ERET, illegal words -/

def execEcall (csr : BitVec 12) (s : State) : Host.Outcome State Fault Refusal := .next (s.raise causeEcall (csr.setWidth 64))

def execBrk (csr : BitVec 12) (s : State) : Host.Outcome State Fault Refusal := .next (s.raise causeBreakpoint (csr.setWidth 64))

def execEret (s : State) : Host.Outcome State Fault Refusal :=
  .next (s.atS .eret fun s => s.irrevocably fun s => s.eret (s.patternAt s.cur s.me.csr.xpc s.me.epx))

/-- ILLEGAL_INSTRUCTION: the issuing context's word is no instruction (R40). -/
def execIllegalInstruction (w : BitVec 32) (s : State) : Host.Outcome State Fault Refusal :=
  .next (s.raise causeIllegalInstruction (w.setWidth 64))

/-! ## Interrupts (R359, R360) -/

/-- The interrupt that a context accepts before its next instruction: cause and TVAL. -/
def State.interruptDue (s : State) (u : CtxId) : Option (BitVec 8 × Word) :=
  let c := s.ctx u
  if c.status ≠ .live || c.csr.exl || s.basted u || s.hub.powerOff then none
  else match c.gswDue with
    | some w => some (causeGangSwitch, w.setWidth 64)
    | none => if c.csr.ipend && c.csr.ie && !c.sealing then some (causePressure, s.ulogLevel) else none

/-- An asynchronous stop and entry at the interrupt vector: a waiting instruction is withdrawn, EPX records the restart
pattern of the instruction at the resume point. -/
def State.takeInterrupt (s : State) (u : CtxId) (cause : BitVec 8) (val : Word) : State :=
  let s1 := (s.withdraw u).updCtx u (fun c =>
    if cause = causeGangSwitch then { c with gswDue := none } else { c with csr := { c.csr with ipend := false } })
  s1.enter u true false cause val (s.ctx u).pc (s.ctx u).rst

/-- INTERRUPT_ENTRY. -/
def execInterruptEntry (u : CtxId) (s : State) : Host.Outcome State Fault Refusal :=
  .next (match s.interruptDue u with
    | none => s
    | some p => s.takeInterrupt u p.1 p.2)

/-! ## CSR access (R364, R365) -/

inductive CsrMode where
  | read | write | set | clear
deriving DecidableEq, Repr

/-- The value that an access leaves in a CSR, field by field. -/
def csrNew (m : CsrMode) (i : CsrId) (old a : Word) : Word :=
  let w := match m with
    | .read => old
    | .write => a
    | .set => old ||| a
    | .clear => old &&& ~~~a
  if i.access = .w1c then
    (match m with
     | .read => old
     | .write => old &&& ~~~(a &&& i.mask)
     | .set => old &&& ~~~(a &&& i.mask)
     | .clear => old)
  else (old &&& ~~~i.mask) ||| (w &&& i.mask)

/-- Whether a CSR access waits for no earlier work of its context (R133, R211, R235). -/
def Ctx.csrReady (c : Ctx) (i : CsrId) (writes : Bool) : Bool :=
  if i.chunkOwn then c.vecs.isEmpty
  else if i = .fflg then c.accs.all (·.isStore)
  else if i = .tfmt || i = .scla || i = .sclb || i = .apitch then !writes || c.tile.queue.all (·.started)
  else true

/-- Writing a CSR of the issuing context, or one that is held elsewhere; none where its own rule refuses the value. -/
def State.csrStore (s : State) (i : CsrId) (v : Word) : Option State :=
  match i with
  | .rwin n => s.rwinPut s.cur.die s.cur.quad n v
  | .rngb n => some { s with pendB := s.pendB.set n.val v n.isLt }
  | .rngl n => some { s with pendL := s.pendL.set n.val v n.isLt }
  | .ulogth => some { s with hub := { s.hub with ulogth := v.setWidth 34 } }
  | .gswt => s.gswtWrite v
  | .fflg | .frm | .vflg | .vl | .vtagl | .vtagh | .epx | .vhwm _ | .pol _ | .cpydim | .trb | .fkliv | .fkvec | .fkcfg | .sqcnt
  | .tfmt | .scla | .sclb | .apitch | .tln | .alw _ | .dslot _ | .slotcfg | .owntbl | .rin | .sealrin | .uloglvl | .holdlvl
  | .rollcnt | .ealw | .ecls | .thpri | .desched | .trapv | .tcause | .tval | .xpc | .xstat | .ptroot | .self | .xscr | .time
  | .scopechk | .trcctl | .pmc _ => (s.me.csrPut s.cur.isQcc i v).map (fun c => s.setCtx s.cur c)

/-- Flags that the commit token carries after a write of FFLG or VFLG (R71, R189): a flag that the write clears is gone. -/
def tokenFlags (m : CsrMode) (old : Flags) (a : Word) : Flags :=
  match m with
  | .read => old
  | .write => 0
  | .set => old
  | .clear => old &&& ~~~(a.setWidth 6)

/-- The fork image takes an irrevocable CSR write as well, and every younger chunk starts again from it (R189). -/
def State.imageCsr (s : State) (m : CsrMode) (i : CsrId) (v a : Word) : State :=
  match s.me.chunk, s.fork (s.forkIdOf s.cur) with
  | some _, some x =>
    (s.setFork (s.forkIdOf s.cur) { x with
      image := (x.image.csrPut false i v).getD x.image
      flags := (if i = .fflg then tokenFlags m x.flags.1 a else x.flags.1, if i = .vflg then tokenFlags m x.flags.2 a else x.flags.2)
    }).unpickYounger s.cur .oth
  | _, _ => s

/-- Irrevocable unless it changes the chunk's own state only (R188). -/
def State.csrGate (s : State) (i : CsrId) (f : State → State) : State := if i.chunkOwn then f s else s.irrevocably f

def State.csrOp (s : State) (i : Instr) (m : CsrMode) (d a : BitVec 5) (csr : BitVec 12) : State :=
  let writes := match m with
    | .read => false
    | .write => true
    | .set => decide (a ≠ 0)
    | .clear => decide (a ≠ 0)
  match csrAt s.cur.isQcc csr.toNat with
  | none => s.illegal i
  | some id =>
    if !id.access.allows s.me.sup writes then s.privileged i
    else if !writes then (if s.me.csrReady id false then s.retire d (s.csrRead s.cur id) else s.hold .poll)
    else s.csrGate id fun s =>
      if !s.me.csrReady id true then s.hold .poll
      else
        let old := s.csrRead s.cur id
        let v := csrNew m id old (s.x a)
        if id = .gswt && decide (s.me.wait ≠ some .hub) then s.hold .hub
        else match s.csrStore id v with
        | none => s.illegalOperand
        | some t => (if id.chunkOwn then t else t.imageCsr m id v (s.x a)).retire d old

def execCsrr (d : BitVec 5) (csr : BitVec 12) (s : State) : Host.Outcome State Fault Refusal :=
  .next (s.csrOp (.csrr d csr) .read d 0 csr)

def execCsrw (d a : BitVec 5) (csr : BitVec 12) (s : State) : Host.Outcome State Fault Refusal :=
  .next (s.csrOp (.csrw d a csr) .write d a csr)

def execCsrs (d a : BitVec 5) (csr : BitVec 12) (s : State) : Host.Outcome State Fault Refusal :=
  .next (s.csrOp (.csrs d a csr) .set d a csr)

def execCsrc (d a : BitVec 5) (csr : BitVec 12) (s : State) : Host.Outcome State Fault Refusal :=
  .next (s.csrOp (.csrc d a csr) .clear d a csr)

/-- RANGE_PENDING_WRITE (R125): RNGB0-15, then RNGL0-15. -/
def execRangePendingWrite (n : Fin 32) (v : BitVec 64) (s : State) : Host.Outcome State Fault Refusal :=
  .next (if n.val < 16 then { s with pendB := s.pendB.set (n.val % 16) (v &&& (CsrId.rngb 0).mask) (Nat.mod_lt _ (by decide)) }
    else { s with pendL := s.pendL.set (n.val % 16) v (Nat.mod_lt _ (by decide)) })

/-- VHWM_WRITE (R133); a mark above 16 granules changes nothing. -/
def execVhwmWrite (u : CtxId) (r : BitVec 5) (v : BitVec 64) (s : State) : Host.Outcome State Fault Refusal :=
  .next (if u.isQcc then s else match (s.ctx u).csrPut false (.vhwm ⟨r.toNat, r.isLt⟩) v with
    | none => s
    | some c => s.setCtx u c)

/-! ## TLBI and RCOMMIT (R126, R127) -/

/-- Memory that a request still in flight will write locally, under the translation of its issue. -/
def Req.landing (r : Req) : List (Nat × Nat) :=
  match r.kind with
  | .get _ _ dst => dst
  | .put _ _ => []
  | .send _ => []
  | .ramo _ _ _ _ _ _ => []
  | .pairs _ => []
  | .flush => []
  | .start _ _ => []

/-- A request issued under a translation of the physical frame `[pa, pa + n)` is not yet performed, or a device store there is
still held. -/
def State.landsIn (s : State) (pa n : Nat) : Bool :=
  s.net.any (fun r => r.src.isSome && r.issued && r.landing.any (fun p => decide (pa < p.1 + p.2) && decide (p.1 < pa + n))) ||
  s.dies.toList.any (fun d => d.holds.any (fun h => decide (pa < h.pa + h.size) && decide (h.pa < pa + n)))

/-- Whether a request translated under a page-table entry that `p` names is still to be performed (R127). -/
def State.usesEntry (s : State) (p : TlbEntry → Bool) : Bool :=
  s.net.any (fun r => r.src.isSome && r.issued && !r.landing.isEmpty && r.via.any p) ||
  s.dies.toList.any (fun d => d.holds.any (fun h => h.via.any p))

/-- Dropping entries from every first level and every slice; the translation generation advances. -/
def State.dropTlb (s : State) (p : TlbEntry → Bool) : State :=
  { s with
    cores := s.cores.map (fun kc => (kc.1, { kc.2 with tlb := kc.2.tlb.filter (fun e => !p e) }))
    dies := s.dies.map (fun d => { d with slice := d.slice.filter (fun e => !p e) })
    tgen := s.tgen + 1 }

/-- TLBI waits for the requests translated under the entries that it invalidates. -/
def State.invalidate (s : State) (p : TlbEntry → Bool) : State :=
  if s.usesEntry p then s.hold .poll else (s.dropTlb p).advance

def execTlbi (a : BitVec 5) (s : State) : Host.Outcome State Fault Refusal :=
  .next (s.atS (.tlbi a) fun s => s.irrevocably fun s =>
    s.invalidate (fun e => e.hits (field s.me.csr.ptroot 48 16) ((s.x a).toNat % 2 ^ 57)))

def execTlbiAll (s : State) : Host.Outcome State Fault Refusal :=
  .next (s.atS .tlbiAll fun s => s.irrevocably fun s => s.invalidate (fun _ => true))

/-- Whether a request translated by an active range is still to be performed. -/
def State.rangeBusy (s : State) : Bool :=
  (List.range 16).any (fun i =>
    let b := s.rngb[i % 16]'(Nat.mod_lt _ (by decide))
    let l := s.rngl[i % 16]'(Nat.mod_lt _ (by decide))
    bitOf b 0 && s.landsIn (field l 32 32 * 2 ^ 16) (field l 0 32 * 2 ^ 16))

/-- RCOMMIT arrives at the hub, where RCOMMITs are served one at a time in the order of their arrival; while one waits, new
translations through ranges stall. -/
def execRcommit (s : State) : Host.Outcome State Fault Refusal :=
  .next (s.atS .rcommit fun s => s.irrevocably fun s =>
    let others := s.committing.filter (fun u => decide (u ≠ s.cur))
    let first := if s.me.wait = some .commit then decide (s.committing.head? = some s.cur) else others.isEmpty
    if first && !s.rangeBusy then { s with rngb := s.pendB, rngl := s.pendL, commits := others }.advance
    else if s.me.wait = some .commit then s
    else { s with commits := others ++ [s.cur] }.hold .commit)

/-! ## Self-test (R385, R386) -/

/-- The quad that BIST's operand names. -/
def State.bistQuad (s : State) (p : Word) : Option (Fin 8 × Nat) :=
  if field p 46 18 = s.pkg.toNat && decide (field p 42 4 < 8) && decide (field p 34 3 = 7) && decide (field p 0 34 = 0) then
    some (mkFin8 (field p 42 4), field p 37 5) else none

/-- No context of the quad holds a thread or a reserved slot. -/
def State.quadIdle (s : State) (d : Fin 8) (q : Nat) : Bool :=
  (List.range 4).all (fun i => (List.range 4).all (fun k => decide ((s.ctx (mkCtxId d.val (4 * q + i) k)).status = .free))) &&
  (List.range 2).all (fun k => decide ((s.ctx (mkCtxId d.val (128 + q) k)).status = .free))

def execBist (a : BitVec 5) (s : State) : Host.Outcome State Fault Refusal :=
  .next (s.atS (.bist a) fun s => s.irrevocably fun s =>
    match s.bistQuad (s.x a) with
    | none => s.illegalOperand
    | some (d, q) =>
      if !s.quadIdle d q || s.testing d q then s.illegalOperand
      else (s.setQuad d q { s.quad d q with bist := setField (s.quad d q).bist 0 2 1 }).advance)

/-- Memory with the bytes of a range at zero. -/
def memClear (m : List Host.Cell) (lo n : Nat) : List Host.Cell := m.filter (fun c => decide (c.1 < lo) || decide (lo + n ≤ c.1))

/-- Error records of a test, one per failing row; which row failed is a free value below the quad of the path. -/
def State.bistRecords (s : State) (d : Fin 8) (q action : Nat) : Nat → State
  | 0 => s
  | n + 1 =>
    let f := s.fresh
    let path := unitPath s.pkg.toNat d.val q 0 0 0 0 ||| (f.1 &&& 0x1FFFFFFFFF)
    State.bistRecords (f.2.writeError ⟨path, 0, 4, action, 0, 0, 0⟩) d q action n

/-- The quad after its test: ISTOREs, QSPM, accumulators and latches zero, CODEIDs 0 (R385 step 3). -/
def State.zeroQuad (s : State) (d : Fin 8) (q : Nat) : State :=
  let lo := qspmBase d.val q
  let s1 := { s with
    mem := memClear s.mem lo 0x400000
    poison := s.poison.filter (fun x => decide (64 * x < lo) || decide (lo + 0x400000 ≤ 64 * x)) }
  let s2 := [4 * q, 4 * q + 1, 4 * q + 2, 4 * q + 3, 128 + q].foldl (fun t x =>
    t.setCore d x { t.core d x with istore := [], bad := [] }) s1
  let s3 := (List.range 2).foldl (fun t k =>
    t.updCtx (mkCtxId d.val (128 + q) k) (fun c => { c with tile := Tile.start c.tile.tln c.tile.issue })) s2
  let s4 := if s3.ringFirst d q = q then s3.setRing d q { s3.ring d q with codeid := 0 } else s3
  s4.setQuad d q { s4.quad d q with codeid := 0 }

/-- Of `nfail` failing rows those that found no spare, when there was not one for each: how many is a free value (log 98). -/
def State.unspared (s : State) (nfail : BitVec 8) (spares : Bool) : Nat × State :=
  if spares || decide (nfail = 0) then (0, s)
  else
    let f := s.fresh
    (f.1.toNat % nfail.toNat + 1, f.2)

/-- BIST_COMPLETE: `nfail` failing rows were found; `spares` when each found a spare. -/
def execBistComplete (die : Fin 8) (q : Fin 32) (nfail : BitVec 8) (spares : Bool) (s : State) : Host.Outcome State Fault Refusal :=
  .next (
    if !s.testing die q.val then s
    else
      let lost := s.unspared nfail spares
      let k := lost.1
      let bad := decide (k ≠ 0)
      let first := if nfail = 0 then 0 else s.hub.errhead.toNat
      let s1 := lost.2.zeroQuad die q.val
      let s2 := State.bistRecords (State.bistRecords s1 die q.val 4 (nfail.toNat - k)) die q.val 5 k
      s2.setQuad die q.val { s2.quad die q.val with
        bist := Machine.place 0 2 (if bad then 3 else 2) ||| boolBit 2 (bad || bitOf (s.quad die q.val).bist 2) |||
          Machine.place 8 8 nfail.toNat ||| Machine.place 32 32 first })

/-! ## Capture marks (R382) -/

def State.mark (s : State) (a : BitVec 5) (stop : Bool) : State :=
  (s.pushOther s.cur 2 (Machine.place 32 17 s.me.pc.toNat) (Machine.place 32 17 0x1FFFF) (s.x a) (BitVec.ofNat 64 s.time) (if stop then 1 else 0) 1).advance

def execTrcmkStart (a : BitVec 5) (s : State) : Host.Outcome State Fault Refusal :=
  .next (s.irrevocably fun s =>
    if bitOf s.me.csr.trcctl 4 then s.illegalOperand
    else (s.upd (fun c => { c with csr := { c.csr with
      pmc := if bitOf c.csr.trcctl 5 then Vector.replicate 15 0 else c.csr.pmc
      trcctl := c.csr.trcctl ||| 0x10 } })).mark a false)

def execTrcmkStop (a : BitVec 5) (s : State) : Host.Outcome State Fault Refusal :=
  .next (s.irrevocably fun s =>
    if !bitOf s.me.csr.trcctl 4 then s.illegalOperand
    else (s.upd (fun c => { c with csr := { c.csr with trcctl := c.csr.trcctl &&& ~~~(0x10#6) } })).mark a true)

/-! ## Completion of a vector instruction (R142, R377, R379) -/

/-- VECTOR_INSTRUCTION_COMPLETE: the oldest unfinished vector instruction of a context is complete in every cluster; a VAMO that has
passes left makes the next one. -/
def execVectorInstructionComplete (u : CtxId) (s : State) : Host.Outcome State Fault Refusal :=
  .next (match (s.ctx u).vecs with
    | [] => s
    | v :: rest =>
      match v.rest with
      | some r => s.vamoPass u v rest r
      | none =>
        let s1 := s.updCtx u (fun c => { c with vecs := rest })
        let s2 := match v.entry with
          | none => s1
          | some e => s1.pushEntry u.die u.unit.val e
        v.ends.foldl (State.emitEvents u.die u.unit.val) s2)

end Sys2Proof.Machine
end

