-- ==== Sys2Proof/Machine/Module.lean ====
section
/-! DEFINITION. What the module does of itself and at its host port: the power manager at frame boundaries and temperature
(13_threads_energy.md R348-R351, 16_host_bringup.md R391, R392), the region sweep (05_memory_access.md R107), trace drains
(15_debug_test.md R380), bring-up and recovery mode (R395, R396), accesses of the control node (R304, R305). -/

namespace Sys2Proof.Machine

/-! ## The power manager (R348, R351) -/

/-- QCORE x L x F. -/
def quantum (qcore len therm : Nat) : Nat := if therm = 0 then qcore * len else if therm = 1 then qcore * len / 2 else qcore * len / 4

/-- ELIM as it is adjusted before the refill. -/
def adjustElim (elim : Nat) (ealw : Int) (quant therm : Nat) : Nat :=
  let e := if ealw ≤ 0 then max 2 (elim - 4) else if (quant : Int) ≤ 2 * ealw then min 16 (elim + 1) else elim
  if therm = 2 then min e 4 else e

/-- A configured ring at a frame boundary. -/
def Ring.refill (r : Ring) (qcore len therm : Nat) : Ring :=
  let q := quantum qcore len therm
  { r with
    elim := adjustElim r.elim r.ealw r.quant therm
    quant := q
    ealw := min (r.ealw + q) q }

def State.refillRing (s : State) (d : Fin 8) (q : Nat) : State :=
  if s.ringFirst d q ≠ q then s
  else
    let r := s.ring d q
    let t := r.refill s.hub.qcore (s.ringLen d q) (s.ringTherm d q)
    if t = r then s else s.setRing d q t

/-- Every configured ring of the module at a frame boundary. -/
def State.refillAll (s : State) : State :=
  (List.range 256).foldl (fun t i => t.refillRing (mkFin8 (i / 32)) (i % 32)) s

/-- FRAME_BOUNDARY: once for each frame that has begun (R20, R348). -/
def execFrameBoundary (s : State) : Host.Outcome State Fault Refusal :=
  .next (if s.frames < s.time / 1024 then { s.refillAll with frames := s.frames + 1 } else s)

/-! ## Temperature and power (R350, R351, R391, R392) -/

/-- THERM_CHANGE: 0 normal, 1 warm, 2 hot. A hot ring's ELIM is at most 4. -/
def execThermChange (die : Fin 8) (q : Fin 32) (level : BitVec 2) (s : State) : Host.Outcome State Fault Refusal :=
  .next (
    if level = 3 then s
    else
      let s1 := s.setQuad die q.val { s.quad die q.val with therm := level }
      let first := s.ringFirst die q.val
      if level = 2 then s1.setRing die first { s1.ring die first with elim := min (s1.ring die first).elim 4 } else s1)

/-- COOLANT_FAULT: every quad is at least warm. -/
def execCoolantFault (s : State) : Host.Outcome State Fault Refusal :=
  .next ((List.range 256).foldl (fun t i =>
    let d := mkFin8 (i / 32)
    let q := t.quad d (i % 32)
    if q.therm = 0 then t.setQuad d (i % 32) { q with therm := 1 } else t) s)

/-- POWER_OVER_CAP: a record of the hub. -/
def execPowerOverCap (s : State) : Host.Outcome State Fault Refusal :=
  .next (s.writeError ⟨unitPath s.pkg.toNat 8 0 6 0x3F 0 0, 0, 7, 3, 0, 0, 0⟩)

/-- Whether a thermal trip recurs within 1 s of the last. -/
def State.recurs (s : State) (again : Bool) : Bool :=
  match s.hub.tripped with
  | none => again
  | some t => decide (s.time ≤ t + 10 ^ 9)

/-- THERMAL_TRIP: every context stops, as in step 2 of a rollback those outside the domain; the rollback domain is rolled back,
or stopped for good where the trip recurs; the power stages stay off until RESET. -/
def execThermalTrip (again : Bool) (s : State) : Host.Outcome State Fault Refusal :=
  .next (
    let s1 := State.stopWhere (fun c => !c.dom) { s with hub := { s.hub with tripped := some s.time, powerOff := true } }
    if s.recurs again then
      let f := s1.fresh
      f.2.domainFatal dev (unitPath s.pkg.toNat (f.1.toNat % 8) 0 6 0x3F 0 0) 0
    else s1.wantRollback)

/-! ## The region sweep (R107) -/

/-- A region after a sweep; which of its dies still cache lines of it is a free value. -/
def Region.swept (r : Region) (cached : BitVec 8) : Option Region :=
  match r.kind with
  | .priv => some r
  | .shared => some r
  | .fine =>
    let dies := r.dies &&& cached
    if dies = 0 then none
    else if dies &&& (dies - 1) = 0 then some ⟨.priv, dies, r.dirty⟩
    else some ⟨.fine, dies, r.dirty⟩

def State.sweepRegion (s : State) (kr : Nat × Region) : State :=
  let f := s.fresh
  match kr.2.swept (f.1.setWidth 8) with
  | none => { f.2 with regions := Table.drop f.2.regions kr.1 }
  | some r => { f.2 with regions := Table.put f.2.regions kr.1 r }

/-- REGION_SWEEP: once for each 1,048,576 cycles. -/
def execRegionSweep (s : State) : Host.Outcome State Fault Refusal :=
  .next (if s.sweeps < s.time / 1048576 then { s.regions.foldl State.sweepRegion s with sweeps := s.time / 1048576 } else s)

/-! ## Trace drains (R380) -/

/-- A drain write lies in DRAM or QSPM. -/
def State.isStorage (s : State) (pa : Nat) : Bool :=
  match s.place pa with
  | .dram => true
  | .qspm _ _ _ => true
  | .evu _ _ _ => false
  | .device _ => false
  | .hole => false

/-- What one core drains in a frame: 32 entries at most, and events in the room that is left of 1 KiB. -/
def drainCounts (entries events : Nat) : Nat × Nat :=
  let m := min entries 32
  (m, min events (128 - 4 * m))

/-- The entries of a core that stand at their positions: none with an earlier number is still to come (R377). -/
def State.settledEntries (s : State) (d : Fin 8) (x : Nat) : List (BitVec 256) :=
  let coming := (List.range 4).flatMap (fun k => (s.ctx (mkCtxId d.val x k)).vecs.filterMap (·.entry))
  (s.core d x).entries.takeWhile (fun e => coming.all (fun y => !entryReached e y))

def State.drainDue (s : State) (d : Fin 8) (x : Nat) : Bool :=
  let c := s.core d x
  bitOf (s.die d).trcbase 0 && decide (s.time / 16 % 64 = 60) && decide (c.drained ≤ s.time / 1024) &&
  !((s.settledEntries d x).isEmpty && c.events.isEmpty) && s.isStorage (field (s.die d).trcbase 21 27 * 2 ^ 21)

def State.drainCore (s : State) (d : Fin 8) (x : Nat) : State :=
  let c := s.core d x
  let base := field (s.die d).trcbase 21 27 * 2 ^ 21 + x * 0x4000
  let n := drainCounts (s.settledEntries d x).length c.events.length
  let m0 := field c.head 0 32
  let j0 := field c.head 32 32
  let s1 := ((c.entries.take n.1).zipIdx).foldl (fun t ei => t.storeRaw none 0 (base + 32 * ((m0 + ei.2) % 256)) (bytesOf 32 ei.1.toNat)) s
  let s2 := ((c.events.take n.2).zipIdx).foldl (fun t ei => t.storeRaw none 0 (base + 0x2000 + 8 * ((j0 + ei.2) % 1024)) (bytesOf 8 ei.1.toNat)) s1
  s2.setCore d x { c with
    entries := c.entries.drop n.1
    events := c.events.drop n.2
    head := Machine.place 0 32 (m0 + n.1) ||| Machine.place 32 32 (j0 + n.2)
    drained := s.time / 1024 + 1 }

/-- TRACE_DRAIN: in slot 60 of a frame, once for a core. -/
def execTraceDrain (die : Fin 8) (x : Fin 128) (s : State) : Host.Outcome State Fault Refusal :=
  .next (if s.drainDue die x.val then s.drainCore die x.val else s)

/-! ## Bring-up (R395, R396) -/

/-- FCODE of a failing step. -/
def failCode (step : Nat) : Nat :=
  if step = 2 then 1 else if step = 3 then 2 else if step = 4 then 3 else if step = 5 then 4 else if step = 7 then 5 else if step = 8 then 6 else 0

/-- Bring-up fails at a step; a failed Camell training is tried again. -/
def Hub.failAt (h : Hub) (k : Nat) : Hub :=
  if k = 1 then { h with dark := true }
  else if k = 2 then { h with step := 1, failed := true, recov := true, fcode := 1 }
  else if k = 6 then { h with step := 5 }
  else if 9 ≤ k then h
  else { h with step := k - 1, failed := true, fcode := BitVec.ofNat 8 (failCode k) }

/-- Whether step 5 fails: more than 32 transmit lanes of some optical die are lost. -/
def Hub.lockFails (h : Hub) : Bool :=
  (List.range 4).any (fun d => decide (32 < (h.lanesOff.filter (fun x => decide (x.1 = d))).length))

/-- Step 8 is completed; step 9 begins at once where the nonce is there already. -/
def State.trained (s : State) : State :=
  let s1 := { s with hub := { s.hub with step := 8 } }
  if s1.hub.asked then s1.report else s1

/-- Bring-up as far as step `k`, which fails, or through step 8 for `none`. Step 5 stands or falls with the lanes that are lost,
and step 8 is skipped when UELANES = 0. -/
def State.bringUp (s : State) (k : Option Nat) : State :=
  let h := s.hub
  let past (n : Nat) : Bool := match k with
    | none => true
    | some m => decide (n < m)
  if h.step < 5 && (past 5 || decide (k = some 5)) && h.lockFails then { s with hub := h.failAt 5 }
  else match k with
    | none => s.trained
    | some m =>
      if m ≤ h.step || m = 5 then s
      else if m = 8 && decide (h.uelanes = 0) then s.trained
      else { s with hub := h.failAt m }

/-- POWER_ON: the steps that are left of bring-up, up to step 8, or to the one that fails. -/
def execPowerOn (o : BootOutcome) (s : State) : Host.Outcome State Fault Refusal :=
  .next (
    let h := s.hub
    if h.dark || h.failed || h.recov || h.powerOff || decide (8 ≤ h.step) then s
    else match o with
      | .romDead => s.bringUp (some 1)
      | .badImage => s.bringUp (some 2)
      | .fails k => s.bringUp (some k.val)
      | .trained => s.bringUp none)

/-- CAMELL_RETRY: step 6 is tried again. -/
def execCamellRetry (ok : Bool) (s : State) : Host.Outcome State Fault Refusal :=
  .next (if s.hub.step = 5 && !s.hub.failed && ok then { s with hub := { s.hub with step := 6 } } else s)

/-- STAGING_WRITE: outside recovery mode the window does not exist, and the write is refused and counted. -/
def execStagingWrite (off : BitVec 26) (data : BitVec 64) (s : State) : Host.Outcome State Fault Refusal :=
  .next (s.stagingPut off.toNat (bytesOf 8 data.toNat))

/-! ## The control node's reads and writes (R304, R305) -/

/-- What the control node is given. -/
def State.answerHost (s : State) (data : List Byte) : State := { s with hub := { s.hub with hostData := data } }

/-- HOST_READ: served from step 6 on, with the current value of memory (R304) or of a device control register; bytes of which
one is poisoned read as ones, with a record (R419). In recovery mode BOOTST alone is read (R396). -/
def execHostRead (pa : BitVec 48) (n : Nat) (s : State) : Host.Outcome State Fault Refusal :=
  .next (
    let a := pa.toNat
    let read (s : State) : State :=
      if s.isPoisoned a n then
        (s.writeError ⟨unitPath s.pkg.toNat 8 0 6 0x3F 0 0, 0, 2, 3, 0, 0, 0⟩).answerHost (List.replicate n 0xFF)
      else s.answerHost (memRead s.mem a n)
    if n = 0 then s
    else match s.place a with
      | .device off =>
        (match dcrAt off with
         | none => s
         | some r => if n = 8 && (decide (6 ≤ s.hub.step) || (s.hub.recov && decide (r = .bootst))) then
             s.answerHost (bytesOf 8 (s.dcrGet r).toNat) else s)
      | .dram => if decide (6 ≤ s.hub.step) && s.isStorage (a + n - 1) then read s else s
      | .qspm _ _ _ => if decide (6 ≤ s.hub.step) && s.isStorage (a + n - 1) then read s else s
      | .evu _ _ _ => s
      | .hole => s)

/-- HOST_WRITE: performed in DRAM or QSPM as a write that is not tagged or logged, in a device control register as its
store, and in recovery mode in the staging window; elsewhere it is refused and counted. -/
def execHostWrite (pa : BitVec 48) (data : List (BitVec 8)) (s : State) : Host.Outcome State Fault Refusal :=
  .next (
    let a := pa.toNat
    let n := data.length
    if s.hub.step < 6 && !s.hub.recov then s
    else if n = 0 then s
    else match stagingOff a with
    | some off => s.stagingPut off data
    | none => match s.place a with
      | .device off => (match dcrAt off with
        | none => s.countLost
        | some r => if n = 8 then s.hostPut r (BitVec.ofNat 64 (ofBytes data)) else s.countLost)
      | .dram => if decide (6 ≤ s.hub.step) && s.isStorage (a + n - 1) then s.store none 0 a data else s.countLost
      | .qspm _ _ _ => if decide (6 ≤ s.hub.step) && s.isStorage (a + n - 1) then s.store none 0 a data else s.countLost
      | .evu _ _ _ => s.countLost
      | .hole => s.countLost)

end Sys2Proof.Machine
end

