-- ==== Sys2Proof/Machine/Issue.lean ====
section
/-! DEFINITION. Issue: what an instruction needs before it issues, whether a context fits the energy allowance, the choice
among ready contexts, fetching and decoding, and counting and debiting (01_machine.md R25-R32, 04_scalar.md R88-R91,
07_speculative_loops.md R173, 13_threads_energy.md R345-R349, 02_encoding.md R37, R40). -/

namespace Sys2Proof.Machine

/-! ## Scalar registers read and written -/

/-- The scalar registers that an instruction reads (R88). -/
def scalarReads (i : Instr) : List (BitVec 5) :=
  match i with
  | .add _ a b => [a, b]
  | .sub _ a b => [a, b]
  | .andR _ a b => [a, b]
  | .orR _ a b => [a, b]
  | .xorR _ a b => [a, b]
  | .andn _ a b => [a, b]
  | .sll _ a b => [a, b]
  | .srl _ a b => [a, b]
  | .sra _ a b => [a, b]
  | .slt _ a b => [a, b]
  | .sltu _ a b => [a, b]
  | .minS _ a b => [a, b]
  | .maxS _ a b => [a, b]
  | .minu _ a b => [a, b]
  | .maxu _ a b => [a, b]
  | .mul _ a b => [a, b]
  | .mulh _ a b => [a, b]
  | .mulhu _ a b => [a, b]
  | .div _ a b => [a, b]
  | .divu _ a b => [a, b]
  | .rem _ a b => [a, b]
  | .remu _ a b => [a, b]
  | .clz _ a => [a]
  | .ctz _ a => [a]
  | .popc _ a => [a]
  | .sxb _ a => [a]
  | .sxh _ a => [a]
  | .sxw _ a => [a]
  | .zxw _ a => [a]
  | .sel _ a b c => [a, b, c]
  | .addi _ a _ => [a]
  | .andi _ a _ => [a]
  | .ori _ a _ => [a]
  | .xori _ a _ => [a]
  | .slti _ a _ => [a]
  | .sltiu _ a _ => [a]
  | .slli _ a _ => [a]
  | .srli _ a _ => [a]
  | .srai _ a _ => [a]
  | .lik d _ _ => [d]
  | .beq a b _ => [a, b]
  | .bne a b _ => [a, b]
  | .blt a b _ => [a, b]
  | .bge a b _ => [a, b]
  | .bltu a b _ => [a, b]
  | .bgeu a b _ => [a, b]
  | .jalr _ a _ => [a]
  | .ldb _ base _ => [base]
  | .ldbu _ base _ => [base]
  | .ldh _ base _ => [base]
  | .ldhu _ base _ => [base]
  | .ldw _ base _ => [base]
  | .ldwu _ base _ => [base]
  | .ldd _ base _ => [base]
  | .stb d base _ => [base, d]
  | .sth d base _ => [base, d]
  | .stw d base _ => [base, d]
  | .std d base _ => [base, d]
  | .amoadd _ a b _ _ _ => [a, b]
  | .amoand _ a b _ _ _ => [a, b]
  | .amoor _ a b _ _ _ => [a, b]
  | .amoxor _ a b _ _ _ => [a, b]
  | .amomin _ a b _ _ _ => [a, b]
  | .amomax _ a b _ _ _ => [a, b]
  | .amominu _ a b _ _ _ => [a, b]
  | .amomaxu _ a b _ _ _ => [a, b]
  | .amoswap _ a b _ _ _ => [a, b]
  | .amocas d a b _ _ _ => [a, b, d]
  | .famoFadd _ a b _ _ => [a, b]
  | .famoFmin _ a b _ _ => [a, b]
  | .famoFmax _ a b _ _ => [a, b]
  | .vsetl _ a => [a]
  | .vadd _ _ b _ sv => if sv = 1 then [b] else []
  | .vsub _ _ b _ sv => if sv = 1 then [b] else []
  | .vmul _ _ b _ sv => if sv = 1 then [b] else []
  | .vfma _ _ b _ sv => if sv = 1 then [b] else []
  | .vmulh _ _ b _ sv => if sv = 1 then [b] else []
  | .vadds _ _ b _ sv => if sv = 1 then [b] else []
  | .vsubs _ _ b _ sv => if sv = 1 then [b] else []
  | .vmin _ _ b _ sv => if sv = 1 then [b] else []
  | .vmax _ _ b _ sv => if sv = 1 then [b] else []
  | .vand _ _ b _ sv => if sv = 1 then [b] else []
  | .vor _ _ b _ sv => if sv = 1 then [b] else []
  | .vxor _ _ b _ sv => if sv = 1 then [b] else []
  | .vshl _ _ b _ sv => if sv = 1 then [b] else []
  | .vshr _ _ b _ sv => if sv = 1 then [b] else []
  | .vceq _ _ b _ sv => if sv = 1 then [b] else []
  | .vcne _ _ b _ sv => if sv = 1 then [b] else []
  | .vclt _ _ b _ sv => if sv = 1 then [b] else []
  | .vcle _ _ b _ sv => if sv = 1 then [b] else []
  | .vslide1 _ b _ => [b]
  | .vslidedn _ _ b _ sv => if sv = 1 then [b] else []
  | .vslideup _ _ b _ sv => if sv = 1 then [b] else []
  | .vsplat _ _ b _ => [b]
  | .vins _ a b => [a, b]
  | .vext _ _ b => [b]
  | .vld _ base _ _ _ _ _ => [base]
  | .vlds _ base c _ _ _ _ _ => [base, c]
  | .vldx _ base _ _ _ _ _ _ => [base]
  | .vst _ base _ _ _ _ _ => [base]
  | .vsts _ base c _ _ _ _ _ => [base, c]
  | .vstx _ base _ _ _ _ _ _ => [base]
  | .vamoAdd _ base _ _ _ _ _ => [base]
  | .vamoMin _ base _ _ _ _ _ => [base]
  | .vamoMax _ base _ _ _ _ _ => [base]
  | .vamoFadd _ base _ _ _ _ => [base]
  | .fork _ a b _ => [a, b]
  | .fwd a => [a]
  | .cpy _ a b c => [a, b, c]
  | .cpy2 _ a b => [a, b]
  | .wtany a => [a]
  | .wtall a => [a]
  | .ffrdy a _ => [a]
  | .trbclr a => [a]
  | .wtml a b => [a, b]
  | .tgath a b => [a, b]
  | .tldk _ a => [a]
  | .tst _ a _ => [a]
  | .trd _ _ b => [b]
  | .taccr _ a => [a]
  | .tmma _ _ a b => [a, b]
  | .bararr _ a _ _ => [a]
  | .barwt d a _ => [a, d]
  | .evld _ a => [a]
  | .evsig d a => [a, d]
  | .dsbind _ a b => [a, b]
  | .sendMsg _ a b _ _ => [a, b]
  | .sendt _ a b _ => [a, b]
  | .putMsg _ a b c _ _ => [a, b, c]
  | .getMsg _ a b c _ => [a, b, c]
  | .ramo _ a b c _ _ _ => [a, b, c]
  | .balw _ a _ => [a]
  | .spawn a => [a]
  | .start d a => [a, d]
  | .wfe a => [a]
  | .csrw _ a _ => [a]
  | .csrs _ a _ => [a]
  | .csrc _ a _ => [a]
  | .tlbi a => [a]
  | .bist a => [a]
  | .trcmkStart a => [a]
  | .trcmkStop a => [a]
  | .liz _ _ _ _ | .addpc _ _ | .jal _ _ | .vcfg _ _ | .vsync | .vabs _ _ _ | .vneg _ _ _ | .vrcp _ _ _ | .vrsq _ _ _
  | .vexp2 _ _ _ | .vlog2 _ _ _ | .vperm _ _ _ _ | .vcmpr _ _ _ | .vexpd _ _ _ | .vsel _ _ _ _ | .vrsum _ _ _ | .vrmax _ _ _
  | .vrmin _ _ _ | .vscan _ _ _ | .vscanx _ _ _ | .vcvt _ _ _ _ | .vmv _ _ _ | .viota _ _ | .kand _ _ _ | .kor _ _ _
  | .kxor _ _ _ | .knot _ _ | .kpop _ _ | .kff _ _ | .kmv _ _ | .gcslp _ _ _ _ _ | .chend | .join | .nspec | .chidx _
  | .waitc _ _ _ _ | .tzero _ | .tseq _ | .fence _ _ | .vscacc _ _ _ | .vscfl | .seala | .sealw | .endThread | .yield
  | .ecall _ | .eret | .csrr _ _ | .tlbiAll | .rcommit | .brk _ | .interruptEntry _ | .ageBoost _ | .copyComplete _ _
  | .chunkStart _ _ | .versionRequest _ _ | .storeNotice _ | .forwardArrival _ | .conflictingWrite _ _ | .unpick _ _ _
  | .l1WayReclaim _ _ | .chunkOldest _ | .tileOpStart _ | .tileOpComplete _ | .taccrReadServe _ | .evuWait _ | .evuTake _
  | .evuDrain _ | .evuPeek _ | .evuClear _ | .evuArrive _ | .evuBarrierWait _ | .evuPoll _ | .evuSet _ | .evuLock _ | .evuTry _
  | .evuUnlock _ | .evuOwner _ | .evsigDeliver _ | .evuWaitSatisfied _ | .barrierPhaseComplete _ | .gcslpWake _
  | .bindReply _ _ | .ingressPut _ | .ingressSend _ | .ingressGet _ | .ingressRamo _ | .combiningPair _ | .combiningFlush _
  | .staleIncarnationDrop _ | .resetNotice _ _ | .demand _ _ | .grant _ _ _ | .acknowledgement _ _
  | .negativeAcknowledgement _ _ | .getResponse _ _ | .retransmissionTimeout _ | .creditReturn _ _ | .portXoff _ | .portXon _
  | .sendtLaunch _ | .startArrival _ | .dispatchPlace _ | .deschedule _ | .parkedRequeue _ _ | .frameBoundary | .regionSweep
  | .undoDrain _ | .traceDrain _ _ | .tagScrub | .sealArrive _ | .sealedDeclare _ | .sealedApply | .sealwRelease _
  | .undoPressure _ | .uncorrectableError _ | .correctedError _ | .poisonRead _ _ | .domainRollback | .rollbackResume _
  | .gangSwitchBegin _ | .gangSwitchRestore _ | .gangSwitchResume _ | .bistComplete _ _ _ _ | .thermalTrip _ | .powerOverCap
  | .coolantFault | .powerOn _ | .camellRetry _ | .hostRead _ _ | .hostWrite _ _ | .stagingWrite _ _ | .rcfgWrite _ _ _
  | .rwinWrite _ _ _ _ | .incAdvance _ _ | .haltFree _ _ _ | .reload _ _ | .barrierDomainConfig _ _ _ | .domcfgWrite _
  | .rollreq _ | .dissolve _ | .go _ | .gswtArm _ _ | .gswtCancel _ _ | .rangePendingWrite _ _ | .vhwmWrite _ _ _
  | .trclostClear _ _ | .errlostClear | .cevalClear _ | .capwWrite _ | .moduleReset _ | .imageLoad _ _ | .attnonceWrite _ _
  | .attokWrite _ | .dcrWrite _ _ | .illegalInstruction _ | .accessPerformed _ | .vectorInstructionComplete _
  | .thermChange _ _ _ => []

/-- The scalar registers that an instruction writes. -/
def scalarWrites (i : Instr) : List (BitVec 5) :=
  match i with
  | .add d _ _ => [d]
  | .sub d _ _ => [d]
  | .andR d _ _ => [d]
  | .orR d _ _ => [d]
  | .xorR d _ _ => [d]
  | .andn d _ _ => [d]
  | .sll d _ _ => [d]
  | .srl d _ _ => [d]
  | .sra d _ _ => [d]
  | .slt d _ _ => [d]
  | .sltu d _ _ => [d]
  | .minS d _ _ => [d]
  | .maxS d _ _ => [d]
  | .minu d _ _ => [d]
  | .maxu d _ _ => [d]
  | .mul d _ _ => [d]
  | .mulh d _ _ => [d]
  | .mulhu d _ _ => [d]
  | .div d _ _ => [d]
  | .divu d _ _ => [d]
  | .rem d _ _ => [d]
  | .remu d _ _ => [d]
  | .clz d _ => [d]
  | .ctz d _ => [d]
  | .popc d _ => [d]
  | .sxb d _ => [d]
  | .sxh d _ => [d]
  | .sxw d _ => [d]
  | .zxw d _ => [d]
  | .sel d _ _ _ => [d]
  | .addi d _ _ => [d]
  | .andi d _ _ => [d]
  | .ori d _ _ => [d]
  | .xori d _ _ => [d]
  | .slti d _ _ => [d]
  | .sltiu d _ _ => [d]
  | .slli d _ _ => [d]
  | .srli d _ _ => [d]
  | .srai d _ _ => [d]
  | .liz d _ _ _ => [d]
  | .lik d _ _ => [d]
  | .addpc d _ => [d]
  | .jal d _ => [d]
  | .jalr d _ _ => [d]
  | .ldb d _ _ => [d]
  | .ldbu d _ _ => [d]
  | .ldh d _ _ => [d]
  | .ldhu d _ _ => [d]
  | .ldw d _ _ => [d]
  | .ldwu d _ _ => [d]
  | .ldd d _ _ => [d]
  | .amoadd d _ _ _ _ _ => [d]
  | .amoand d _ _ _ _ _ => [d]
  | .amoor d _ _ _ _ _ => [d]
  | .amoxor d _ _ _ _ _ => [d]
  | .amomin d _ _ _ _ _ => [d]
  | .amomax d _ _ _ _ _ => [d]
  | .amominu d _ _ _ _ _ => [d]
  | .amomaxu d _ _ _ _ _ => [d]
  | .amoswap d _ _ _ _ _ => [d]
  | .amocas d _ _ _ _ _ => [d]
  | .famoFadd d _ _ _ _ => [d]
  | .famoFmin d _ _ _ _ => [d]
  | .famoFmax d _ _ _ _ => [d]
  | .vsetl d _ => [d]
  | .vext d _ _ => [d]
  | .kpop d _ => [d]
  | .kff d _ => [d]
  | .chidx d => [d]
  | .ffrdy _ c => [c]
  | .trd _ a _ => [a]
  | .tseq a => [a]
  | .bararr d _ _ _ => [d]
  | .evld d _ => [d]
  | .ramo _ _ _ c _ _ _ => [c]
  | .csrr d _ => [d]
  | .csrw d _ _ => [d]
  | .csrs d _ _ => [d]
  | .csrc d _ _ => [d]
  | .fork d _ _ _ => [d]
  | .beq _ _ _ | .bne _ _ _ | .blt _ _ _ | .bge _ _ _ | .bltu _ _ _ | .bgeu _ _ _ | .stb _ _ _ | .sth _ _ _ | .stw _ _ _
  | .std _ _ _ | .vcfg _ _ | .vsync | .vadd _ _ _ _ _ | .vsub _ _ _ _ _ | .vmul _ _ _ _ _ | .vfma _ _ _ _ _ | .vmulh _ _ _ _ _
  | .vadds _ _ _ _ _ | .vsubs _ _ _ _ _ | .vmin _ _ _ _ _ | .vmax _ _ _ _ _ | .vabs _ _ _ | .vneg _ _ _ | .vrcp _ _ _
  | .vrsq _ _ _ | .vexp2 _ _ _ | .vlog2 _ _ _ | .vand _ _ _ _ _ | .vor _ _ _ _ _ | .vxor _ _ _ _ _ | .vshl _ _ _ _ _
  | .vshr _ _ _ _ _ | .vceq _ _ _ _ _ | .vcne _ _ _ _ _ | .vclt _ _ _ _ _ | .vcle _ _ _ _ _ | .vslide1 _ _ _
  | .vslidedn _ _ _ _ _ | .vslideup _ _ _ _ _ | .vperm _ _ _ _ | .vcmpr _ _ _ | .vexpd _ _ _ | .vsel _ _ _ _ | .vrsum _ _ _
  | .vrmax _ _ _ | .vrmin _ _ _ | .vscan _ _ _ | .vscanx _ _ _ | .vcvt _ _ _ _ | .vsplat _ _ _ _ | .vins _ _ _ | .vmv _ _ _
  | .viota _ _ | .kand _ _ _ | .kor _ _ _ | .kxor _ _ _ | .knot _ _ | .kmv _ _ | .vld _ _ _ _ _ _ _ | .vlds _ _ _ _ _ _ _ _
  | .vldx _ _ _ _ _ _ _ _ | .vst _ _ _ _ _ _ _ | .vsts _ _ _ _ _ _ _ _ | .vstx _ _ _ _ _ _ _ _ | .vamoAdd _ _ _ _ _ _ _
  | .vamoMin _ _ _ _ _ _ _ | .vamoMax _ _ _ _ _ _ _ | .vamoFadd _ _ _ _ _ _ | .gcslp _ _ _ _ _ | .fwd _
  | .chend | .join | .nspec | .cpy _ _ _ _ | .cpy2 _ _ _ | .wtany _ | .wtall _ | .trbclr _ | .waitc _ _ _ _ | .wtml _ _
  | .tgath _ _ | .tldk _ _ | .tzero _ | .tst _ _ _ | .taccr _ _ | .tmma _ _ _ _ | .fence _ _ | .barwt _ _ _ | .evsig _ _
  | .dsbind _ _ _ | .sendMsg _ _ _ _ _ | .sendt _ _ _ _ | .putMsg _ _ _ _ _ _ | .getMsg _ _ _ _ _ | .vscacc _ _ _ | .vscfl
  | .balw _ _ _ | .seala | .sealw | .spawn _ | .start _ _ | .endThread | .yield | .wfe _ | .ecall _ | .eret | .tlbi _
  | .tlbiAll | .rcommit | .bist _ | .brk _ | .trcmkStart _ | .trcmkStop _ | .interruptEntry _ | .ageBoost _ | .copyComplete _ _
  | .chunkStart _ _ | .versionRequest _ _ | .storeNotice _ | .forwardArrival _ | .conflictingWrite _ _ | .unpick _ _ _
  | .l1WayReclaim _ _ | .chunkOldest _ | .tileOpStart _ | .tileOpComplete _ | .taccrReadServe _ | .evuWait _ | .evuTake _
  | .evuDrain _ | .evuPeek _ | .evuClear _ | .evuArrive _ | .evuBarrierWait _ | .evuPoll _ | .evuSet _ | .evuLock _ | .evuTry _
  | .evuUnlock _ | .evuOwner _ | .evsigDeliver _ | .evuWaitSatisfied _ | .barrierPhaseComplete _ | .gcslpWake _
  | .bindReply _ _ | .ingressPut _ | .ingressSend _ | .ingressGet _ | .ingressRamo _ | .combiningPair _ | .combiningFlush _
  | .staleIncarnationDrop _ | .resetNotice _ _ | .demand _ _ | .grant _ _ _ | .acknowledgement _ _
  | .negativeAcknowledgement _ _ | .getResponse _ _ | .retransmissionTimeout _ | .creditReturn _ _ | .portXoff _ | .portXon _
  | .sendtLaunch _ | .startArrival _ | .dispatchPlace _ | .deschedule _ | .parkedRequeue _ _ | .frameBoundary | .regionSweep
  | .undoDrain _ | .traceDrain _ _ | .tagScrub | .sealArrive _ | .sealedDeclare _ | .sealedApply | .sealwRelease _
  | .undoPressure _ | .uncorrectableError _ | .correctedError _ | .poisonRead _ _ | .domainRollback | .rollbackResume _
  | .gangSwitchBegin _ | .gangSwitchRestore _ | .gangSwitchResume _ | .bistComplete _ _ _ _ | .thermalTrip _ | .powerOverCap
  | .coolantFault | .powerOn _ | .camellRetry _ | .hostRead _ _ | .hostWrite _ _ | .stagingWrite _ _ | .rcfgWrite _ _ _
  | .rwinWrite _ _ _ _ | .incAdvance _ _ | .haltFree _ _ _ | .reload _ _ | .barrierDomainConfig _ _ _ | .domcfgWrite _
  | .rollreq _ | .dissolve _ | .go _ | .gswtArm _ _ | .gswtCancel _ _ | .rangePendingWrite _ _ | .vhwmWrite _ _ _
  | .trclostClear _ _ | .errlostClear | .cevalClear _ | .capwWrite _ | .moduleReset _ | .imageLoad _ _ | .attnonceWrite _ _
  | .attokWrite _ | .dcrWrite _ _ | .illegalInstruction _ | .accessPerformed _ | .vectorInstructionComplete _
  | .thermChange _ _ _ => []

/-- A carried register for which no value has arrived and which the chunk has not written (R173). -/
def Chunk.awaits (ch : Chunk) (r : BitVec 5) : Bool :=
  !bitOf ch.written r.toNat && ch.incoming.any (fun p => decide (p.1 = r) && decide (p.2 = .await))

/-- A register that a RAMO still under way writes (R90, R273). -/
def Req.writesReg (r : Req) (d : BitVec 5) : Bool :=
  match r.kind with
  | .ramo _ _ _ _ _ x => decide (x = d) && decide (d ≠ 0)
  | .put _ _ => false
  | .send _ => false
  | .get _ _ _ => false
  | .pairs _ => false
  | .flush => false
  | .start _ _ => false

def State.regPending (s : State) (u : CtxId) (d : BitVec 5) : Bool := (s.mine u).any (fun r => r.writesReg d)

def isFork (i : Instr) : Bool :=
  match i with
  | .fork _ _ _ _ => true
  | _ => false

/-- What an instruction reads in this context: CHEND sends every carried register, once (R184); a ring-level FORK copies
every register into the fork image (R169). -/
def State.readsOf (s : State) (u : CtxId) (i : Instr) : List (BitVec 5) :=
  match (s.ctx u).chunk, s.fork (s.forkIdOf u) with
  | some ch, some x =>
    if i = .chend && (s.ctx u).inner.isNone && !ch.sent && decide (ch.number + 1 < x.info.count) then livRegs x.info.fkliv
    else scalarReads i
  | _, _ => if isFork i && (s.ctx u).chunk.isNone then (List.range 32).map (BitVec.ofNat 5) else scalarReads i

/-- What an instruction writes in this context: an inner CHEND writes the destination of its local fork (R195). -/
def Ctx.writesOf (c : Ctx) (i : Instr) : List (BitVec 5) :=
  match c.inner with
  | some f => if i = .chend then [f.d] else scalarWrites i
  | none => scalarWrites i

/-- Every register that the instruction reads or writes is available. -/
def State.operandsReady (s : State) (u : CtxId) (i : Instr) : Bool :=
  (s.readsOf u i).all (fun r => !s.regPending u r && (match (s.ctx u).chunk with
    | none => true
    | some ch => !ch.awaits r)) &&
  ((s.ctx u).writesOf i).all (fun r => !s.regPending u r)

/-! ## Memory requests of a core (R34) -/

/-- Whether an instruction sends memory requests of its core: majors 0x14 to 0x17 and 0x20 to 0x23. -/
def isMemory (i : Instr) : Bool :=
  let m := field (wordOf i) 26 6
  (decide (0x14 ≤ m) && decide (m ≤ 0x17)) || (decide (0x20 ≤ m) && decide (m ≤ 0x23))

/-- Outstanding memory requests of the core of a context: scalar stores and atomics, and vector memory instructions, of all
its contexts (R34). -/
def State.requestsOut (s : State) (u : CtxId) : Nat :=
  ((List.range 4).map (fun k =>
    let c := s.ctx (mkCtxId u.die.val u.unit.val k)
    c.accs.length + (c.vecs.filter (fun v => v.isLoad || v.isStore)).length)).sum

/-- A core has up to 16 of them outstanding; a request beyond that stalls at issue (log 102). -/
def State.memoryRoom (s : State) (u : CtxId) (i : Instr) : Bool := u.isQcc || !isMemory i || decide (s.requestsOut u < 16)

/-! ## Energy (R345, R349) -/

/-- The major opcode of an instruction with a word. -/
def majorOf (i : Instr) : Nat := field (wordOf i) 26 6

/-- The energy class of an instruction. -/
def energyClass (i : Instr) : Nat :=
  let m := majorOf i
  if m = 0x27 || m = 0x28 then 2
  else if (0x18 ≤ m && m ≤ 0x25) || m = 0x2A then 1
  else 0

def Ring.fits (r : Ring) (c : Nat) : Bool :=
  if c = 0 then true else if c = 1 then decide (0 < r.ealw) else decide ((r.quant : Int) ≤ 4 * r.ealw)

/-- The units that an instruction debits as it issues, beside those that vector instructions, copies, message requests and
tile operations debit by their own operations (R349): 8 for START (log 129), 1 for what R349 does not list (log 68). -/
def baseUnits (i : Instr) : Nat :=
  let m := majorOf i
  if 0x14 ≤ m ∧ m ≤ 0x17 then 2
  else if 0x19 ≤ m ∧ m ≤ 0x23 then 0
  else if m = 0x25 then 0
  else match i with
    | .start _ _ => 8
    | .tgath _ _ => 0
    | .tzero _ => 0
    | .tmma _ _ _ _ => 0
    | .tst _ _ _ => 0
    | .taccr _ _ => 0
    | .sendMsg _ _ _ _ _ => 0
    | .sendt _ _ _ _ => 0
    | .putMsg _ _ _ _ _ _ => 0
    | .getMsg _ _ _ _ _ => 0
    | .ramo _ _ _ _ _ _ _ => 0
    | .vscacc _ _ _ => 0
    | .vscfl => 0
    | _ => 1

/-- The debit of an instruction at its issue; class 0 debits only while the allowance is positive. -/
def State.issueDebit (s : State) (u : CtxId) (i : Instr) : State :=
  if energyClass i = 0 && decide ((s.ringOf u).ealw ≤ 0) then s else s.debit u (baseUnits i)

/-! ## Fetching (R37, R419) -/

/-- What stands at a context's PC. -/
inductive Fetched where
  | past                       -- the PC has run past the end of the ISTORE
  | bad                        -- a word with an uncorrectable error
  | word (w : BitVec 32)       -- no instruction
  | instr (i : Instr)
deriving DecidableEq, Repr

def State.fetch (s : State) (u : CtxId) : Fetched :=
  let pc := (s.ctx u).pc.toNat
  if istoreSize u.unit.val ≤ pc then .past
  else if (s.core u.die u.unit.val).bad.contains (pc / 4) then .bad
  else
    let w := BitVec.ofNat 32 (s.iword u pc)
    match decode w with
    | .ok i => .instr i
    | .error _ => .word w

/-- A fetch of a lost ISTORE word halts the thread (R419). -/
def State.haltFetch (s : State) (u : CtxId) : State :=
  s.haltUncorrectable u (fun pc => ⟨unitPath s.pkg.toNat u.die.val u.quad (unitInQuad u.unit.val) 0x01 0 0, (s.ctx u).rin, 3, 6,
    causeUncorrectable.setWidth 64, 0, pc⟩)

/-! ## One context (R88, R145, R359) -/

/-- A chunk that issues nothing more: it has recorded a trap, or an unpick of it is due (R175, R191). -/
def State.chunkStopped (s : State) (u : CtxId) : Bool :=
  match (s.ctx u).chunk, s.fork (s.forkIdOf u) with
  | some ch, some x => ch.trap.isSome || x.stopped ch.number
  | _, _ => false

/-- Waits that only an event ends. -/
def WaitKind.eventOnly (k : WaitKind) : Bool :=
  match k with
  | .poll => false
  | .allowance => false
  | .energy => false
  | .eventUnit => true
  | .barrier => true
  | .sleep => true
  | .bind => true
  | .hub => false
  | .commit => false
  | .sealing => false
  | .covers _ _ _ => false

/-- Waits of an instruction that has issued. -/
def WaitKind.hasIssued (k : WaitKind) : Bool :=
  match k with
  | .poll => false
  | .allowance => false
  | .energy => false
  | .eventUnit => true
  | .barrier => true
  | .sleep => true
  | .bind => true
  | .hub => true
  | .commit => true
  | .sealing => false
  | .covers _ _ _ => true

def waitHasIssued (w : Option WaitKind) : Bool :=
  match w with
  | none => false
  | some k => k.hasIssued

/-- A context that may go on: it is live, its power is on, and no event is awaited. -/
def State.mayRun (s : State) (u : CtxId) : Bool :=
  let c := s.ctx u
  decide (c.status = .live) && !s.hub.powerOff && !s.chunkStopped u &&
  (match c.wait with
   | none => true
   | some k => !k.eventOnly)

/-- Whether an attempt left the instruction unissued: the context still waits at it, and has recorded no trap. -/
def Ctx.unissued (old new : Ctx) : Bool :=
  decide (new.status = .live) && decide (new.pc = old.pc) &&
  (match new.wait with
   | none => false
   | some k => !k.hasIssued || waitHasIssued old.wait) &&
  (match new.chunk with
   | none => true
   | some ch => ch.trap.isNone)

/-- An attempt's result, and whether the context got on by it. -/
structure Attempt where
  state  : State
  issued : Bool

/-- Counters of time and of the caches advance by free amounts (R381; log 16): this model has neither pipelines nor caches. -/
def State.elapsed (s : State) (u : CtxId) (n : Nat) : State :=
  let f := s.fresh
  f.2.updCtx u (fun c => c.count n f.1.toNat)

/-- Those of them that may have advanced by the time an instruction of `u` issues. -/
def Ctx.clocked (c : Ctx) (u : CtxId) : List Nat :=
  if !c.counting then []
  else [2, 3, 4, 7] ++ (if u.isQcc then [] else [6]) ++ (if c.wait = some .allowance then [10] else []) ++ (if c.sealing then [14] else [])

/-- Counting the issue and debiting it, once for an instruction that waits after it has issued (R349, R381). A WFE is debited
when its wait is over (R344). The instruction still finds BOOST as it stands (R346). -/
def State.accounted (s : State) (u : CtxId) (i : Instr) : State :=
  let s1 := s.updCtx u (fun c => { (c.count 1 1) with
    last := s.time
    passed := 0
    joinFirst := c.joinFirst && decide (i = .join) })
  let s2 := ((s.ctx u).clocked u).foldl (fun t n => t.elapsed u n) s1
  match i with
  | .wfe _ => s2
  | _ => s2.issueDebit u i

/-- Whether an instruction has trapped: its context is halted, has entered its handler, or has recorded the trap. -/
def Ctx.trapped (old new : Ctx) : Bool :=
  decide (new.status = .halted) || (new.csr.exl && !old.csr.exl) ||
  (match new.chunk with
   | none => false
   | some ch => ch.trap.isSome)

/-- A trap is taken only once every older vector instruction of the context is complete (R145, log 106). -/
def State.trapWaits (s : State) (u : CtxId) (t : State) : Bool := !(s.ctx u).vecs.isEmpty && (s.ctx u).trapped (t.ctx u)

/-- An instruction that has issued leaves its context at its own priority (R32); a YIELD may have given the slot to another
thread, and sees to it itself. -/
def State.issuedBy (t : State) (u : CtxId) (i : Instr) : State :=
  if i = .yield then t else t.updCtx u (fun c => { c with boost := false })

/-- Running instruction `i` of context `u` by the executor `ex`: an instruction that does not issue leaves no account. -/
def State.runInstr (ex : Instr → State → Host.Outcome State Fault Refusal) (u : CtxId) (i : Instr) (s : State) :
    Host.Outcome Attempt Fault Refusal :=
  let s0 := { s with cur := u }
  match ex i s0 with
  | .fault f => .fault f
  | .refused r => .refused r
  | .next t =>
    if s.trapWaits u t then .next ⟨s0.hold .poll, false⟩
    else if (s.ctx u).unissued (t.ctx u) then .next ⟨t, false⟩
    else if waitHasIssued (s.ctx u).wait then .next ⟨t, true⟩
    else match ex i (s0.accounted u i) with
      | .fault f => .fault f
      | .refused r => .refused r
      | .next t => .next ⟨(match i with
        | .wfe _ => t.issueDebit u i
        | _ => t).issuedBy u i, true⟩

/-- A trap of the context itself, at its issue: it waits for older vector instructions as well (R145). -/
def State.trapNow (s : State) (u : CtxId) (f : State → State) : Attempt :=
  let s0 := { s with cur := u }
  if s.trapWaits u (f s0) then ⟨s0.hold .poll, false⟩ else ⟨f s0, true⟩

/-- The context with its clusters about to run the next instruction of its program, as far as a pattern says (R146, R148). -/
def State.nextUpTo (s : State) (u : CtxId) (p : Word) : State :=
  { s with cur := u }.updCtx u (fun c => { c with
    pc := c.pc + 4
    rst := nextRst c.rst
    upto := some (p, none)
    wait := none })

/-- Whether the instruction after `i`, the one at the PC, fails the checks of R135 to R137, found by performing no element of
either: `i` has set the tag and the mark of its destination by then (R138, log 121). -/
def State.nextFails (ex : Instr → State → Host.Outcome State Fault Refusal) (u : CtxId) (i : Instr) (s : State) : Bool :=
  match ex i ({ s with cur := u }.updCtx u (fun c => { c with upto := some (0, none) })) with
  | .fault _ => false
  | .refused _ => false
  | .next t =>
    let s0 := (t.updCtx u (fun c => { c with rst := (s.ctx u).rst })).nextUpTo u 0
    !(s.ctx u).trapped (t.ctx u) &&
    (match s0.fetch u with
     | .past => false
     | .bad => false
     | .word _ => false
     | .instr j =>
       match ex j s0 with
       | .next t => (s0.ctx u).trapped (t.ctx u)
       | .fault _ => false
       | .refused _ => false)

/-- At a restart with a cluster ahead, both instructions are checked before any element is performed: a failure of the second
traps at the first, and EPX stays as recorded (R148). -/
def State.restartFails (ex : Instr → State → Host.Outcome State Fault Refusal) (u : CtxId) (i : Instr) (s : State) : Bool :=
  rstAnyAhead (s.ctx u).rst && isElement i && s.nextFails ex u i

/-- One attempt of a context: a gang switch stops it before anything else, and the passes of a VAMO come to their end (R238); an
interrupt is accepted next; then fetch, decode, operands and the energy
allowance, and the instruction. -/
def State.attempt (ex : Instr → State → Host.Outcome State Fault Refusal) (u : CtxId) (s : State) : Host.Outcome Attempt Fault Refusal :=
  if s.switchDue u || (s.ctx u).vecs.any (·.rest.isSome) then .next ⟨s, false⟩ else match s.interruptDue u with
  | some _ =>
    (match ex (.interruptEntry u) s with
     | .fault f => .fault f
     | .refused r => .refused r
     | .next t => .next ⟨t, true⟩)
  | none =>
    if !s.mayRun u then .next ⟨s, false⟩
    else match s.fetch u with
      | .past => .next (s.trapNow u (fun s => s.raise causeRange (BitVec.ofNat 64 (istoreSize u.unit.val))))
      | .bad => .next ⟨s.haltFetch u, true⟩
      | .word w => s.runInstr ex u (.illegalInstruction w)
      | .instr i =>
        if s.operandsReady u i && s.memoryRoom u i && (s.ringOf u).fits (max (s.ctx u).csr.ecls (energyClass i)) then
          (if s.restartFails ex u i then .next (s.trapNow u State.vIllegal) else s.runInstr ex u i)
        else .next ⟨s, false⟩

/-! ## The choice (R25, R32, R345) -/

/-- Whether context `a` is preferred to `b` of the same unit: raised ones first, the longest passed over among them, then
the lower slot; else by priority, by the time since the last issue, by the lower slot. -/
def prefers (ca cb : Ctx) (a b : CtxId) : Bool :=
  if ca.boost ≠ cb.boost then ca.boost
  else if ca.boost then (if ca.passed ≠ cb.passed then decide (cb.passed < ca.passed) else decide (a.slot.val < b.slot.val))
  else if ca.csr.pri ≠ cb.csr.pri then decide (cb.csr.pri.toNat < ca.csr.pri.toNat)
  else if ca.last ≠ cb.last then decide (ca.last < cb.last)
  else decide (a.slot.val < b.slot.val)

/-- A context that yielded stands back while another of its unit is ready (R342). -/
def State.prefersOf (s : State) (a b : CtxId) : Bool :=
  if (s.ctx a).yielded ≠ (s.ctx b).yielded then (s.ctx b).yielded else prefers (s.ctx a) (s.ctx b) a b

/-- The contexts of a unit that could issue now, with what comes of it. -/
def State.readyOf (ex : Instr → State → Host.Outcome State Fault Refusal) (s : State) (us : List CtxId) :
    List (CtxId × Host.Outcome State Fault Refusal) :=
  us.filterMap (fun u => match s.attempt ex u with
    | .fault f => some (u, .fault f)
    | .refused r => some (u, .refused r)
    | .next a => if a.issued then some (u, .next a.state) else none)

def State.pickOf (s : State) : List (CtxId × Host.Outcome State Fault Refusal) → Option (CtxId × Host.Outcome State Fault Refusal)
  | [] => none
  | x :: xs =>
    match s.pickOf xs with
    | none => some x
    | some y => some (if s.prefersOf x.1 y.1 then x else y)

/-- Contexts of a unit that could not issue in a cycle are passed over no longer: R32 counts consecutive cycles. -/
def State.notPassed (s : State) (us : List CtxId) : State :=
  us.foldl (fun t v => if (t.ctx v).passed = 0 then t else t.updCtx v (fun c => { c with passed := 0 })) s

/-- Ready contexts that another was chosen before are passed over for one cycle more (R32). -/
def State.passOver (s : State) (ready : List CtxId) (chosen : CtxId) : State :=
  ready.foldl (fun t v =>
    if v = chosen || decide ((t.ctx v).status ≠ .live) then t
    else t.updCtx v (fun c => { c with
      passed := c.passed + 1
      boost := c.boost || decide (c.csr.age ≤ c.passed + 1) })) s

/-- The contexts of a unit among those of the table. -/
def State.unitCtxs (s : State) (k : Nat) : List CtxId :=
  (s.ctxs.filter (fun kc => decide (kc.1 / 4 = k))).map (fun kc => ctxOfKey kc.1)

/-- The units that have a context, from the one whose turn it is on. -/
def State.unitOrder (s : State) : List Nat :=
  let ks := (s.ctxs.map (fun kc => kc.1 / 4)).eraseDups
  ks.filter (fun k => decide (s.turn ≤ k)) ++ ks.filter (fun k => decide (k < s.turn))

/-- The contexts of a unit without the marks of their yields. -/
def State.unyielded (s : State) (us : List CtxId) : State :=
  us.foldl (fun t v => if (t.ctx v).yielded then t.updCtx v (fun c => { c with yielded := false }) else t) s

/-- One unit's cycle: the context chosen issues. A yield has its effect in the next cycle in which another context of the unit is
ready, and only in it (R342). -/
def State.unitCycle (ex : Instr → State → Host.Outcome State Fault Refusal) (s : State) (k : Nat) :
    Option (Host.Outcome State Fault Refusal) :=
  let ready := (s.unyielded (s.unitCtxs k)).readyOf ex (s.unitCtxs k)
  match s.pickOf ready with
  | none => none
  | some (u, .next t0) =>
    let t := if (s.ctx u).yielded && decide (ready.length = 1) then t0.updCtx u (fun c => { c with yielded := true }) else t0
    let idle := (s.unitCtxs k).filter (fun v => !(ready.map (·.1)).contains v)
    some (.next { ((t.passOver (ready.map (·.1)) u).notPassed idle).elapse 1 with turn := k + 1 })
  | some (_, .fault f) => some (.fault f)
  | some (_, .refused r) => some (.refused r)

/-- The cycle of the first unit of a list in which a context can issue; else the state in which none of them was passed over. -/
def State.cycleOf (ex : Instr → State → Host.Outcome State Fault Refusal) :
    List Nat → State → Option (Host.Outcome State Fault Refusal) × State
  | [], s => (none, s)
  | k :: ks, s =>
    match s.unitCycle ex k with
    | some r => (some r, s)
    | none => State.cycleOf ex ks (s.notPassed (s.unitCtxs k))

/-- A context whose instruction does not issue but asks for what it needs: a version, a demand, a watch. -/
def State.ask (ex : Instr → State → Host.Outcome State Fault Refusal) (s : State) (u : CtxId) : Option (Host.Outcome State Fault Refusal) :=
  match s.attempt ex u with
  | .fault f => some (.fault f)
  | .refused r => some (.refused r)
  | .next a => if !a.issued && decide (a.state.ctx u ≠ s.ctx u) then some (.next a.state) else none

/-- An issue that the schedule names: of a context, whatever the others do. -/
def State.issueOf (ex : Instr → State → Host.Outcome State Fault Refusal) (s : State) (u : CtxId) : Host.Outcome State Fault Refusal :=
  match s.attempt ex u with
  | .fault f => .fault f
  | .refused r => .refused r
  | .next a => .next (if a.issued then a.state.elapse 1 else a.state)

end Sys2Proof.Machine
end

