-- ==== Sys2Proof/Machine/Auto.lean ====
section
/-! DEFINITION. What comes about by itself: the events that the state of the module makes due. Each is looked at in turn,
and the first that changes something comes about (INVENTORY.md, Agents; log 2). -/

namespace Sys2Proof.Machine

/-- The event by which an EVLD on its way reaches its EVU. -/
def EvuOp.arrival (op : EvuOp) (u : CtxId) : Instr :=
  match op with
  | .wait _ => .evuWait u
  | .take _ => .evuTake u
  | .drain _ => .evuDrain u
  | .peek _ => .evuPeek u
  | .clear _ => .evuClear u
  | .arrive _ => .evuArrive u
  | .barWait _ => .evuBarrierWait u
  | .poll _ => .evuPoll u
  | .set _ _ => .evuSet u
  | .lock _ => .evuLock u
  | .try1 _ => .evuTry u
  | .unlock _ => .evuUnlock u
  | .owner _ => .evuOwner u

/-- The answer that stands for none where a bind's target lies in the module. -/
def noReply : BindReply where
  refused := none
  inc := 0
  outDomain := false
  credit := 0

/-- Whether an endpoint lies in this package. -/
def State.inPackage (s : State) (ep : BitVec 32) : Bool := decide (field ep 14 18 = s.pkg.toNat)

def State.barriersOf (s : State) (u : CtxId) (c : Ctx) : List BarKey :=
  if c.wait ≠ some .barrier then []
  else match s.instrAt u with
    | some (.barwt _ a sc) => [s.barKey u sc.toNat (field (c.x a) 0 4)]
    | _ => []

/-- Events of one context. -/
def State.ctxEvents (s : State) (u : CtxId) (c : Ctx) : List Instr :=
  (if c.accs.isEmpty then [] else [.accessPerformed u]) ++
  (if c.vecs.isEmpty then [] else [.vectorInstructionComplete u]) ++
  (match c.evuOp with
   | none => []
   | some op => [op.arrival u, .evuWaitSatisfied u]) ++
  (if c.woken then [.gcslpWake u] else []) ++
  (match c.binding with
   | none => []
   | some b => if s.inPackage b.ep then [.bindReply u noReply] else []) ++
  (match c.chunk with
   | none => []
   | some ch => (match ch.request with
     | none => []
     | some q => [.versionRequest u (BitVec.ofNat 48 (64 * q.1)), .l1WayReclaim u (setOf q.1)])) ++
  (s.barriersOf u c).map (fun b => .barrierPhaseComplete b) ++
  (if c.wait = some .sealing then [.sealwRelease u] else []) ++
  (if c.wait = some .allowance then [.deschedule u] else [])

/-- Events of a context's copy engine and tile queue. -/
def engineEvents (u : CtxId) (c : Ctx) : List Instr :=
  (List.range c.copies.length).map (fun n => .copyComplete u n) ++
  (if c.tile.queue.isEmpty then [] else [.taccrReadServe u, .tileOpStart u, .tileOpComplete u])

/-- Events between the chunks of a fork. -/
def Fork.events (x : Fork) (f : ForkId) : List Instr :=
  (match x.due with
   | none => []
   | some d => [.unpick f d.1 d.2.1]) ++
  x.conflict.map (fun sec => .conflictingWrite f (BitVec.ofNat 48 (64 * sec))) ++
  (if x.notices.isEmpty then [] else [.storeNotice f]) ++
  (if x.forwards.isEmpty then [] else [.forwardArrival f]) ++
  (if x.token.isSome then [.chunkOldest f] else []) ++
  [.chunkStart f x.started]

/-- The event by which a request goes on that waits for a party of this module. -/
def reqEvents (n : Nat) (r : Req) : List Instr :=
  match r.stage with
  | .timed _ => []
  | .held _ => [.sealedApply]
  | .flying =>
    (match r.kind with
     | .put _ _ => [.ingressPut n]
     | .send _ => [.ingressSend n]
     | .get _ _ _ => [.ingressGet n]
     | .ramo _ _ _ _ _ _ => [.ingressRamo n]
     | .pairs _ => [.combiningPair n]
     | .flush => [.combiningFlush n]
     | .start _ _ => [.startArrival n]) ++ [.staleIncarnationDrop n]
  | .performed => [.acknowledgement n false]
  | .answered _ _ _ => if r.isLoad then [.getResponse n []] else [.acknowledgement n false]
  | .refused _ => [.negativeAcknowledgement n 0]
  | .stale => (match r.src with
    | none => []
    | some h => [.resetNotice h r.ds])

def dsOf (i : Nat) : BitVec 4 := BitVec.ofNat 4 i

/-- Events of a thread's slots. -/
def State.slotEvents (s : State) (h : Holder) (x : DSlot) (i : Nat) : List Instr :=
  if !x.bnd then []
  else
    (if s.inPackage x.ep then
      (match x.demand with
       | none => []
       | some d => if d.answer.isNone then [.demand h (dsOf i), .resetNotice h (dsOf i)] else [.grant h (dsOf i) (.credit 0)])
     else []) ++
    (if x.wc = 0 then [] else [.creditReturn h (dsOf i)])

def State.threadEvents (s : State) : List Instr :=
  s.senders.flatMap (fun hc => hc.2.slots.toList.zipIdx.flatMap (fun xi => s.slotEvents hc.1 xi.1 xi.2)) ++
  (List.range s.outs.length).map (fun n => .demand (.outside n) 0)

/-- Events of a die. -/
def State.dieEvents (s : State) (i : Nat) : List Instr :=
  let d := mkFin8 i
  let x := s.die d
  (if x.undoBuf.isEmpty then [] else [.undoDrain d]) ++
  (if x.queue.isEmpty then [] else [.dispatchPlace d]) ++
  x.swaps.map (fun w => .parkedRequeue d w.entry) ++
  (if s.domain.isSome then [.sealArrive d] else [])

/-- Trace drains that are due. -/
def State.drainEvents (s : State) : List Instr :=
  s.cores.filterMap (fun kc =>
    let d := mkFin8 (kc.1 / 160)
    let x := kc.1 % 160
    if x < 128 && s.drainDue d x then some (.traceDrain d ⟨x % 128, Nat.mod_lt _ (by decide)⟩) else none)

/-- Events of the domain: a seal only follows an arrival that a context has made. -/
def State.domainEvents (s : State) : List Instr :=
  match s.domain with
  | none => []
  | some x =>
    let n := nextRin x.declared
    (if x.wanted then [.domainRollback] else []) ++
    [.undoPressure false, .sealedApply] ++
    (if x.sole s.pkg && s.ctxs.any (fun kc => kc.2.dom && decide (kc.2.arrived = n)) then [.sealedDeclare n] else []) ++
    (if x.sole s.pkg && decide (x.phase = .rolling) then [.rollbackResume (BitVec.ofNat 64 s.time)] else [])

def State.switchEvents (s : State) : List Instr :=
  (List.range 16).flatMap (fun p =>
    if s.part p = Part.reset then [] else [.gangSwitchBegin (mkFin16 p), .gangSwitchResume (mkFin16 p)])

/-- The saving and restoring of partitions in a switch. -/
def State.switchStages (s : State) : List Instr :=
  (List.range 16).flatMap (fun p => if s.part p = Part.reset then [] else [.gangSwitchRestore (mkFin16 p)])

def State.signalEvents (s : State) : List Instr :=
  s.quads.filterMap (fun kq => if kq.2.evu.signals.isEmpty then none else some (.evsigDeliver kq.1))

/-- Events that are looked at in every cycle, in the order in which they are looked at. -/
def State.dueEvents (s : State) : List Instr :=
  (if s.frames < s.time / 1024 then [.frameBoundary] else []) ++
  (if s.sweeps < s.time / 1048576 then [.regionSweep] else []) ++
  (if s.tags.isEmpty then [] else [.tagScrub]) ++
  s.domainEvents ++ s.switchEvents ++ s.drainEvents ++
  s.forks.flatMap (fun kf => kf.2.events ⟨mkFin8 (kf.1 / 128), mkFin32 (kf.1 / 4), mkFin4 kf.1⟩) ++
  s.ctxs.flatMap (fun kc => s.ctxEvents (ctxOfKey kc.1) kc.2) ++
  s.signalEvents ++
  (List.range 8).flatMap s.dieEvents

/-- Events of the engines, of the fabric and of gang switches, which take their time: they are looked at in one cycle of 64, and whenever no
context can issue. -/
def State.lateEvents (s : State) : List Instr :=
  s.switchStages ++
  s.ctxs.flatMap (fun kc => engineEvents (ctxOfKey kc.1) kc.2) ++
  s.net.zipIdx.flatMap (fun ri => reqEvents ri.2 ri.1) ++
  s.threadEvents

/-- The first event of a list that changes the state or stops the machine. -/
def State.firstEvent (ex : Instr → State → Host.Outcome State Fault Refusal) (s : State) :
    List Instr → Option (Host.Outcome State Fault Refusal)
  | [] => none
  | i :: is =>
    match ex i s with
    | .next t => if t = s then s.firstEvent ex is else some (.next t)
    | .fault f => some (.fault f)
    | .refused r => some (.refused r)

/-- The event that comes about by itself, if one is due. -/
def State.autoEvent (ex : Instr → State → Host.Outcome State Fault Refusal) (s : State) : Option (Host.Outcome State Fault Refusal) :=
  s.firstEvent ex (s.dueEvents ++ if s.time % 64 = 63 then s.lateEvents else [])

/-! ## Time -/

/-- Moments for which a schedule must not pass over time: SENDT launches, deschedules, drains, scrubs, gang switches, 65,536
cycles of unused credit; the next frame boundary bounds them all (R20). -/
def State.nextTimes (s : State) : List Nat :=
  [(s.time / 1024 + 1) * 1024] ++
  [896, 960, 992].map (fun t => s.time / 1024 * 1024 + t) ++
  s.net.filterMap (fun r => match r.stage with
    | .timed due => some due
    | .held _ => none
    | .flying => none
    | .performed => none
    | .answered _ _ _ => none
    | .refused _ => none
    | .stale => none) ++
  s.parts.toList.filterMap (fun p => p.armed.map (fun g =>
    s.time + (field g 0 48 + 2 ^ 48 - s.time % 2 ^ 48) % 2 ^ 48)) ++
  s.ctxs.filterMap (fun kc => if kc.2.wait = some .allowance then some (kc.2.blocked + kc.2.csr.desched.toNat) else none)

/-- Passing up to `n` cycles, not beyond the next moment at which something comes about. -/
def State.pass (s : State) (n : Nat) : State :=
  let t := ((s.nextTimes.filter (fun t => decide (s.time < t))).foldl min (s.time + n))
  s.elapse (t - s.time)

/-- With nothing due and no context ready, time passes to the next such moment. -/
def State.idle (s : State) : State := s.pass 1024

/-- A request from outside the module enters the network (R255). -/
def State.arrival (s : State) (r : Req) : State :=
  match r.src with
  | none => { s with net := s.net ++ [{ r with stage := .flying }] }
  | some _ => s

/-- TLB entries used by a die are replaced (R124). -/
def State.evict (s : State) (d : Fin 8) : State :=
  let clear (kc : Nat × Core) : Nat × Core := if kc.1 / 160 = d.val then (kc.1, { kc.2 with tlb := [] }) else kc
  { s with cores := s.cores.map clear }.setDie d { s.die d with slice := [] }

/-- What step does when its surroundings name nothing: an event that is due, else a context that asks for something, else a
unit's cycle, else one of the late events, else time. -/
def State.runFree (ex : Instr → State → Host.Outcome State Fault Refusal) (s : State) : Host.Outcome State Fault Refusal :=
  match s.autoEvent ex with
  | some r => r
  | none =>
    match (s.ctxs.map (fun kc => ctxOfKey kc.1)).findSome? (s.ask ex) with
    | some r => r
    | none =>
      match State.cycleOf ex s.unitOrder s with
      | (some r, _) => r
      | (none, s) =>
        match s.firstEvent ex s.lateEvents with
        | some r => r
        | none => .next s.idle

/-! ## Progress inside element instructions (R142, R146, R147) -/

/-- The mask operations whose groups are quarters of a mask (R160). -/
def isQuarters (i : Instr) : Bool :=
  match i with
  | .kand _ _ _ => true
  | .kor _ _ _ => true
  | .kxor _ _ _ => true
  | .knot _ _ => true
  | .kmv _ _ => true
  | _ => false

/-- Whether a cluster may stop before element `e` of an instruction of group width `W`: nothing of it is left to the cluster,
or a group of the cluster begins there, of a mask operation its quarter. -/
def stopsAt (i : Instr) (W vl c e : Nat) : Bool :=
  decide (e = 1024) || (if isQuarters i then decide (e = 256 * c) else decide (e < vl) && decide (W * e % 64 = 0) && decide (clusterOf W e = c))

/-- A cluster that is ahead has entered a group of the second instruction, or has none of it left (R142, R146). -/
def startedAt (i : Instr) (W e : Nat) : Bool := decide (e = 1024) || (!isQuarters i && decide (4 ≤ W * e / 64))

/-- Whether a pattern may follow another, and leaves something of the first instruction (R142). -/
def follows (old p : Word) : Bool :=
  (List.range 4).all (fun c => if rstAhead old c then rstAhead p c && decide (rstIdx old c ≤ rstIdx p c)
    else rstAhead p c || decide (rstIdx old c ≤ rstIdx p c)) &&
  (List.range 4).any (fun c => !rstAhead p c && decide (rstIdx p c ≠ 1024)) && decide (p &&& 0x7800780078007800 = 0)

/-- Whether a cluster stands in a pattern where it stood in another. -/
def standsStill (old p : Word) (c : Nat) : Bool := decide (rstAhead old c = rstAhead p c) && decide (rstIdx old c = rstIdx p c)

/-- Vector and mask registers that an element instruction reads, numbered 0 to 31 and 32 to 39, and those that it writes. -/
def vectorSources (i : Instr) : List Nat :=
  let v (r : BitVec 5) : Nat := r.toNat
  let k (r : BitVec 3) : Nat := 32 + r.toNat
  let two (a b : BitVec 5) (m : BitVec 3) (sv : BitVec 1) : List Nat := [v a, k m] ++ (if sv = 0 then [v b] else [])
  match i with
  | .vadd _ a b m sv => two a b m sv
  | .vsub _ a b m sv => two a b m sv
  | .vmul _ a b m sv => two a b m sv
  | .vfma d a b m sv => v d :: two a b m sv
  | .vmulh _ a b m sv => two a b m sv
  | .vadds _ a b m sv => two a b m sv
  | .vsubs _ a b m sv => two a b m sv
  | .vmin _ a b m sv => two a b m sv
  | .vmax _ a b m sv => two a b m sv
  | .vand _ a b m sv => two a b m sv
  | .vor _ a b m sv => two a b m sv
  | .vxor _ a b m sv => two a b m sv
  | .vshl _ a b m sv => two a b m sv
  | .vshr _ a b m sv => two a b m sv
  | .vceq _ a b m sv => two a b m sv
  | .vcne _ a b m sv => two a b m sv
  | .vclt _ a b m sv => two a b m sv
  | .vcle _ a b m sv => two a b m sv
  | .vabs _ a m => [v a, k m]
  | .vneg _ a m => [v a, k m]
  | .vrcp _ a m => [v a, k m]
  | .vrsq _ a m => [v a, k m]
  | .vexp2 _ a m => [v a, k m]
  | .vlog2 _ a m => [v a, k m]
  | .vsel _ a b m => [v a, v b, k m]
  | .vcvt _ a m _ => [v a, k m]
  | .vsplat _ _ _ m => [k m]
  | .vmv _ a m => [v a, k m]
  | .vins d _ _ => [v d]
  | .kand _ a b => [k a, k b]
  | .kor _ a b => [k a, k b]
  | .kxor _ a b => [k a, k b]
  | .knot _ a => [k a]
  | .kmv _ a => [k a]
  | .vld _ _ m _ _ _ _ => [k m]
  | .vlds _ _ _ m _ _ _ _ => [k m]
  | .vldx _ _ c m _ _ _ _ => [v c, k m]
  | .vst d _ m _ _ _ _ => [v d, k m]
  | .vsts d _ _ m _ _ _ _ => [v d, k m]
  | .vstx d _ c m _ _ _ _ => [v d, v c, k m]
  | _ => []

def vectorDests (i : Instr) : List Nat :=
  match i with
  | .vceq d _ _ _ _ => [32 + d.toNat]
  | .vcne d _ _ _ _ => [32 + d.toNat]
  | .vclt d _ _ _ _ => [32 + d.toNat]
  | .vcle d _ _ _ _ => [32 + d.toNat]
  | .kand d _ _ => [32 + d.toNat]
  | .kor d _ _ => [32 + d.toNat]
  | .kxor d _ _ => [32 + d.toNat]
  | .knot d _ => [32 + d.toNat]
  | .kmv d _ => [32 + d.toNat]
  | .vst _ _ _ _ _ _ _ => []
  | .vsts _ _ _ _ _ _ _ _ => []
  | .vstx _ _ _ _ _ _ _ _ => []
  | _ => if isElement i then [field (wordOf i) 21 5] else []

/-- Whether an instruction reads what another writes; k0 is written by none. -/
def dependsOn (i2 i1 : Instr) : Bool := (vectorDests i1).any (fun r => decide (r ≠ 32) && (vectorSources i2).contains r)

/-- Chaining needs equal group widths: groups that hold the same elements (R144). -/
def sameGroups (i1 i2 : Instr) (W1 W2 : Nat) : Bool := decide (isQuarters i1 = isQuarters i2) && (isQuarters i1 || decide (W1 = W2))

/-- A unit-stride load or store checks every element as it starts (R143). -/
def isUnitStride (i : Instr) : Bool :=
  match i with
  | .vld _ _ _ _ _ _ _ => true
  | .vst _ _ _ _ _ _ _ => true
  | _ => false

/-- One element instruction performed up to a pattern: what it leaves, and its group width; none where it traps or waits, or is
no element instruction. -/
def State.runUpTo (ex : Instr → State → Host.Outcome State Fault Refusal) (u : CtxId) (s : State) : Option (Instr × Nat × State) :=
  match s.fetch u with
  | .past => none
  | .bad => none
  | .word _ => none
  | .instr i =>
    if !isElement i || !s.operandsReady u i || !s.memoryRoom u i then none
    else match ex i (s.accounted u i) with
      | .next t => ((t.ctx u).upto.bind (·.2)).map (fun W => (i, W, t))
      | .fault _ => none
      | .refused _ => none

/-- The instruction at the PC performed whole; none where it does not go on to the next. -/
def State.runWhole (ex : Instr → State → Host.Outcome State Fault Refusal) (u : CtxId) (s : State) : Option State :=
  match s.fetch u with
  | .past => none
  | .bad => none
  | .word _ => none
  | .instr i =>
    match ex i { s with cur := u } with
    | .next t => if (t.ctx u).pc = (s.ctx u).pc + 4 && !(s.ctx u).trapped (t.ctx u) then some t else none
    | .fault _ => none
    | .refused _ => none

/-- What a run of the two instructions leaves: vector registers, masks and memory. -/
def State.afterBoth (ex : Instr → State → Host.Outcome State Fault Refusal) (u : CtxId) (s : State) :
    Option (Vector VReg 32 × Vector (BitVec 1024) 8 × List Host.Cell) :=
  ((s.runWhole ex u).bind (State.runWhole ex u)).map (fun t => ((t.ctx u).vregs, (t.ctx u).masks, t.mem))

/-- Whether an asynchronous stop of a context is due: an interrupt, or a gang switch. -/
def State.stopDue (s : State) (u : CtxId) : Bool := (s.interruptDue u).isSome || s.switchDue u

/-- Before an asynchronous stop that is due, the clusters of a context have come to the points of a pattern in the instruction
at its PC and in the one after it (R142 to R146). None where they cannot have come there: a unit-stride access, or an access
with a cluster ahead of it, has passed all its checks; an instruction that reads the one before in other groups waits for it in
every cluster; and the rest, run later, leaves what both leave without the stop (log 133). -/
def State.progress (ex : Instr → State → Host.Outcome State Fault Refusal) (s : State) (u : CtxId) (p : Word) : Option State :=
  let c := s.ctx u
  if !s.stopDue u || !s.mayRun u || c.wait.isSome || !follows c.rst p then none
  else
    match State.runUpTo ex u ({ s with cur := u }.updCtx u (fun c => { c with upto := some (p, none) })) with
    | none => none
    | some (i, W, t) =>
      let stop (t : State) : State := t.updCtx u (fun d => { d with
        pc := c.pc
        rst := p
        prior := 0
        upto := none })
      if !(List.range 4).all (fun k => rstAhead p k || standsStill c.rst p k || stopsAt i W c.csr.vl k (rstIdx p k)) then none
      else if !rstAnyAhead p then (if isUnitStride i && ((stop t).runWhole ex u).isNone then none else some (stop t))
      else
        match State.runUpTo ex u ((t.updCtx u (fun d => { d with rst := c.rst })).nextUpTo u (nextRst p)) with
        | none => none
        | some (i2, W2, t2) =>
          let ahead (k : Nat) : Bool := stopsAt i2 W2 c.csr.vl k (rstIdx p k) && startedAt i2 W2 (rstIdx p k)
          if (List.range 4).all (fun k => !rstAhead p k || standsStill c.rst p k || ahead k) &&
            (sameGroups i i2 W W2 || !dependsOn i2 i) && ((stop t2).runWhole ex u).isSome &&
            decide ((stop t2).afterBoth ex u = s.afterBoth ex u) then some (stop t2) else none

/-- A VAMO issues and makes its first passes; atomics of other parties fall after them (R237, log 138). -/
def State.splitVamo (ex : Instr → State → Host.Outcome State Fault Refusal) (s : State) (u : CtxId) (n : Nat) : Host.Outcome State Fault Refusal :=
  match s.fetch u with
  | .past => .next s
  | .bad => .next s
  | .word _ => .next s
  | .instr i =>
    if majorOf i ≠ 0x22 then .next s
    else match (s.updCtx u (fun c => { c with upto := some (BitVec.ofNat 64 n, none) })).issueOf ex u with
      | .next t => .next (t.updCtx u (fun c => { c with upto := none }))
      | .fault f => .fault f
      | .refused r => .refused r

/-- An event that the clock itself brings about, before anything else of its cycle: a frame boundary (R348), or the launch of a
SENDT in the cycle of its PHASE (R268). -/
def State.overdue (s : State) : Option Instr :=
  if s.frames < s.time / 1024 then some .frameBoundary
  else s.net.findSome? (fun r => match r.stage, r.src with
    | .timed due, some (.here u) => if due = s.time then some (.sendtLaunch u) else none
    | _, _ => none)

/-- One act of the module's surroundings; `ex` executes an instruction or an event. -/
def State.perform (ex : Instr → State → Host.Outcome State Fault Refusal) (s : State) (a : Act) : Host.Outcome State Fault Refusal :=
  match a with
  | .issue u => s.issueOf ex u
  | .event i => if i.hasWord then .fault .notAnEvent else ex i s
  | .pass n => .next (s.pass n)
  | .evictTlb d => .next (s.evict d)
  | .arrive r => .next (s.arrival r)
  | .progress u p => .next ((s.progress ex u p).getD s)
  | .podArrive b pos rin dom => .next (s.podArrive b pos.val rin dom)
  | .lateUnit d x => .next (s.lateUnit (d, x))
  | .memberRin r => .next { s with hub := { s.hub with others := BitVec.ofNat 32 (max s.hub.others.toNat r.toNat) } }
  | .bindOut ep win src dom =>
    .next (if s.inPackage src then s else if s.absent ep then s.countDrop src else (s.initialGrant ep win src dom).2)
  | .demandOut x => .next (if s.inPackage x.src then s else s.demandOut x)
  | .creditBack ep win n => .next (s.returnTo ep win n)
  | .laneLost d l => .next (s.laneLost d l)
  | .laneRate d l v => .next (s.laneRate d l v)
  | .rowRepair d p => .next (s.rowRepair d p)
  | .congest n => .next (s.congest n)
  | .passes u n => s.splitVamo ex u n
  | .lineLost line => .next { s with lines := Table.drop s.lines line }

/-- The next moment of the machine: what the clock brings about, what its surroundings name next, or what comes about by
itself. -/
def State.advanceBy (ex : Instr → State → Host.Outcome State Fault Refusal) (s : State) : Host.Outcome State Fault Refusal :=
  match s.overdue, s.agenda with
  | some i, _ => ex i s
  | none, [] => s.runFree ex
  | none, a :: rest => { s with agenda := rest }.perform ex a

end Sys2Proof.Machine
end

