-- ==== Sys2Proof/Machine/Dispatch.lean ====
section
/-! DEFINITION. exec: one arm per instruction and per event, each one call of its meaning. -/

namespace Sys2Proof.Machine

def exec (i : Instr) (s : State) : Host.Outcome State Fault Refusal :=
  match i with
  | .add d a b => Sys2Proof.Machine.execAdd d a b s
  | .sub d a b => Sys2Proof.Machine.execSub d a b s
  | .andR d a b => Sys2Proof.Machine.execAndR d a b s
  | .orR d a b => Sys2Proof.Machine.execOrR d a b s
  | .xorR d a b => Sys2Proof.Machine.execXorR d a b s
  | .andn d a b => Sys2Proof.Machine.execAndn d a b s
  | .sll d a b => Sys2Proof.Machine.execSll d a b s
  | .srl d a b => Sys2Proof.Machine.execSrl d a b s
  | .sra d a b => Sys2Proof.Machine.execSra d a b s
  | .slt d a b => Sys2Proof.Machine.execSlt d a b s
  | .sltu d a b => Sys2Proof.Machine.execSltu d a b s
  | .minS d a b => Sys2Proof.Machine.execMinS d a b s
  | .maxS d a b => Sys2Proof.Machine.execMaxS d a b s
  | .minu d a b => Sys2Proof.Machine.execMinu d a b s
  | .maxu d a b => Sys2Proof.Machine.execMaxu d a b s
  | .mul d a b => Sys2Proof.Machine.execMul d a b s
  | .mulh d a b => Sys2Proof.Machine.execMulh d a b s
  | .mulhu d a b => Sys2Proof.Machine.execMulhu d a b s
  | .div d a b => Sys2Proof.Machine.execDiv d a b s
  | .divu d a b => Sys2Proof.Machine.execDivu d a b s
  | .rem d a b => Sys2Proof.Machine.execRem d a b s
  | .remu d a b => Sys2Proof.Machine.execRemu d a b s
  | .clz d a => Sys2Proof.Machine.execClz d a s
  | .ctz d a => Sys2Proof.Machine.execCtz d a s
  | .popc d a => Sys2Proof.Machine.execPopc d a s
  | .sxb d a => Sys2Proof.Machine.execSxb d a s
  | .sxh d a => Sys2Proof.Machine.execSxh d a s
  | .sxw d a => Sys2Proof.Machine.execSxw d a s
  | .zxw d a => Sys2Proof.Machine.execZxw d a s
  | .sel d a b c => Sys2Proof.Machine.execSel d a b c s
  | .addi d a imm => Sys2Proof.Machine.execAddi d a imm s
  | .andi d a imm => Sys2Proof.Machine.execAndi d a imm s
  | .ori d a imm => Sys2Proof.Machine.execOri d a imm s
  | .xori d a imm => Sys2Proof.Machine.execXori d a imm s
  | .slti d a imm => Sys2Proof.Machine.execSlti d a imm s
  | .sltiu d a imm => Sys2Proof.Machine.execSltiu d a imm s
  | .slli d a n => Sys2Proof.Machine.execSlli d a n s
  | .srli d a n => Sys2Proof.Machine.execSrli d a n s
  | .srai d a n => Sys2Proof.Machine.execSrai d a n s
  | .liz d hw sx imm => Sys2Proof.Machine.execLiz d hw sx imm s
  | .lik d hw imm => Sys2Proof.Machine.execLik d hw imm s
  | .addpc d off => Sys2Proof.Machine.execAddpc d off s
  | .beq a b off => Sys2Proof.Machine.execBeq a b off s
  | .bne a b off => Sys2Proof.Machine.execBne a b off s
  | .blt a b off => Sys2Proof.Machine.execBlt a b off s
  | .bge a b off => Sys2Proof.Machine.execBge a b off s
  | .bltu a b off => Sys2Proof.Machine.execBltu a b off s
  | .bgeu a b off => Sys2Proof.Machine.execBgeu a b off s
  | .jal d off => Sys2Proof.Machine.execJal d off s
  | .jalr d a imm => Sys2Proof.Machine.execJalr d a imm s
  | .ldb d base off => Sys2Proof.Machine.execLdb d base off s
  | .ldbu d base off => Sys2Proof.Machine.execLdbu d base off s
  | .ldh d base off => Sys2Proof.Machine.execLdh d base off s
  | .ldhu d base off => Sys2Proof.Machine.execLdhu d base off s
  | .ldw d base off => Sys2Proof.Machine.execLdw d base off s
  | .ldwu d base off => Sys2Proof.Machine.execLdwu d base off s
  | .ldd d base off => Sys2Proof.Machine.execLdd d base off s
  | .stb d base off => Sys2Proof.Machine.execStb d base off s
  | .sth d base off => Sys2Proof.Machine.execSth d base off s
  | .stw d base off => Sys2Proof.Machine.execStw d base off s
  | .std d base off => Sys2Proof.Machine.execStd d base off s
  | .amoadd d a b sc ord w => Sys2Proof.Machine.execAmoadd d a b sc ord w s
  | .amoand d a b sc ord w => Sys2Proof.Machine.execAmoand d a b sc ord w s
  | .amoor d a b sc ord w => Sys2Proof.Machine.execAmoor d a b sc ord w s
  | .amoxor d a b sc ord w => Sys2Proof.Machine.execAmoxor d a b sc ord w s
  | .amomin d a b sc ord w => Sys2Proof.Machine.execAmomin d a b sc ord w s
  | .amomax d a b sc ord w => Sys2Proof.Machine.execAmomax d a b sc ord w s
  | .amominu d a b sc ord w => Sys2Proof.Machine.execAmominu d a b sc ord w s
  | .amomaxu d a b sc ord w => Sys2Proof.Machine.execAmomaxu d a b sc ord w s
  | .amoswap d a b sc ord w => Sys2Proof.Machine.execAmoswap d a b sc ord w s
  | .amocas d a b sc ord w => Sys2Proof.Machine.execAmocas d a b sc ord w s
  | .famoFadd d a b sc ord => Sys2Proof.Machine.execFamoFadd d a b sc ord s
  | .famoFmin d a b sc ord => Sys2Proof.Machine.execFamoFmin d a b sc ord s
  | .famoFmax d a b sc ord => Sys2Proof.Machine.execFamoFmax d a b sc ord s
  | .vsetl d a => Sys2Proof.Machine.execVsetl d a s
  | .vcfg d tag => Sys2Proof.Machine.execVcfg d tag s
  | .vsync => Sys2Proof.Machine.execVsync s
  | .vadd d a b km sv => Sys2Proof.Machine.execVadd d a b km sv s
  | .vsub d a b km sv => Sys2Proof.Machine.execVsub d a b km sv s
  | .vmul d a b km sv => Sys2Proof.Machine.execVmul d a b km sv s
  | .vfma d a b km sv => Sys2Proof.Machine.execVfma d a b km sv s
  | .vmulh d a b km sv => Sys2Proof.Machine.execVmulh d a b km sv s
  | .vadds d a b km sv => Sys2Proof.Machine.execVadds d a b km sv s
  | .vsubs d a b km sv => Sys2Proof.Machine.execVsubs d a b km sv s
  | .vmin d a b km sv => Sys2Proof.Machine.execVmin d a b km sv s
  | .vmax d a b km sv => Sys2Proof.Machine.execVmax d a b km sv s
  | .vabs d a km => Sys2Proof.Machine.execVabs d a km s
  | .vneg d a km => Sys2Proof.Machine.execVneg d a km s
  | .vrcp d a km => Sys2Proof.Machine.execVrcp d a km s
  | .vrsq d a km => Sys2Proof.Machine.execVrsq d a km s
  | .vexp2 d a km => Sys2Proof.Machine.execVexp2 d a km s
  | .vlog2 d a km => Sys2Proof.Machine.execVlog2 d a km s
  | .vand d a b km sv => Sys2Proof.Machine.execVand d a b km sv s
  | .vor d a b km sv => Sys2Proof.Machine.execVor d a b km sv s
  | .vxor d a b km sv => Sys2Proof.Machine.execVxor d a b km sv s
  | .vshl d a b km sv => Sys2Proof.Machine.execVshl d a b km sv s
  | .vshr d a b km sv => Sys2Proof.Machine.execVshr d a b km sv s
  | .vceq d a b km sv => Sys2Proof.Machine.execVceq d a b km sv s
  | .vcne d a b km sv => Sys2Proof.Machine.execVcne d a b km sv s
  | .vclt d a b km sv => Sys2Proof.Machine.execVclt d a b km sv s
  | .vcle d a b km sv => Sys2Proof.Machine.execVcle d a b km sv s
  | .vslide1 d b km => Sys2Proof.Machine.execVslide1 d b km s
  | .vslidedn d a b km sv => Sys2Proof.Machine.execVslidedn d a b km sv s
  | .vslideup d a b km sv => Sys2Proof.Machine.execVslideup d a b km sv s
  | .vperm d a b km => Sys2Proof.Machine.execVperm d a b km s
  | .vcmpr d a km => Sys2Proof.Machine.execVcmpr d a km s
  | .vexpd d a km => Sys2Proof.Machine.execVexpd d a km s
  | .vsel d a b km => Sys2Proof.Machine.execVsel d a b km s
  | .vrsum d a km => Sys2Proof.Machine.execVrsum d a km s
  | .vrmax d a km => Sys2Proof.Machine.execVrmax d a km s
  | .vrmin d a km => Sys2Proof.Machine.execVrmin d a km s
  | .vscan d a km => Sys2Proof.Machine.execVscan d a km s
  | .vscanx d a km => Sys2Proof.Machine.execVscanx d a km s
  | .vcvt d a km tag => Sys2Proof.Machine.execVcvt d a km tag s
  | .vsplat d tag b km => Sys2Proof.Machine.execVsplat d tag b km s
  | .vins d a b => Sys2Proof.Machine.execVins d a b s
  | .vext d a b => Sys2Proof.Machine.execVext d a b s
  | .vmv d a km => Sys2Proof.Machine.execVmv d a km s
  | .viota d km => Sys2Proof.Machine.execViota d km s
  | .kand d a b => Sys2Proof.Machine.execKand d a b s
  | .kor d a b => Sys2Proof.Machine.execKor d a b s
  | .kxor d a b => Sys2Proof.Machine.execKxor d a b s
  | .knot d a => Sys2Proof.Machine.execKnot d a s
  | .kpop d a => Sys2Proof.Machine.execKpop d a s
  | .kff d a => Sys2Proof.Machine.execKff d a s
  | .kmv d a => Sys2Proof.Machine.execKmv d a s
  | .vld d base km oo y pol w => Sys2Proof.Machine.execVld d base km oo y pol w s
  | .vlds d base c km oo y pol w => Sys2Proof.Machine.execVlds d base c km oo y pol w s
  | .vldx d base c km oo y pol w => Sys2Proof.Machine.execVldx d base c km oo y pol w s
  | .vst d base km oo y pol w => Sys2Proof.Machine.execVst d base km oo y pol w s
  | .vsts d base c km oo y pol w => Sys2Proof.Machine.execVsts d base c km oo y pol w s
  | .vstx d base c km oo y pol w => Sys2Proof.Machine.execVstx d base c km oo y pol w s
  | .vamoAdd d base c km y pol w => Sys2Proof.Machine.execVamoAdd d base c km y pol w s
  | .vamoMin d base c km y pol w => Sys2Proof.Machine.execVamoMin d base c km y pol w s
  | .vamoMax d base c km y pol w => Sys2Proof.Machine.execVamoMax d base c km y pol w s
  | .vamoFadd d base c km y pol => Sys2Proof.Machine.execVamoFadd d base c km y pol s
  | .gcslp d a b km all => Sys2Proof.Machine.execGcslp d a b km all s
  | .fork d a b off => Sys2Proof.Machine.execFork d a b off s
  | .fwd a => Sys2Proof.Machine.execFwd a s
  | .chend => Sys2Proof.Machine.execChend s
  | .join => Sys2Proof.Machine.execJoin s
  | .nspec => Sys2Proof.Machine.execNspec s
  | .chidx d => Sys2Proof.Machine.execChidx d s
  | .cpy tag a b c => Sys2Proof.Machine.execCpy tag a b c s
  | .cpy2 tag a b => Sys2Proof.Machine.execCpy2 tag a b s
  | .wtany a => Sys2Proof.Machine.execWtany a s
  | .wtall a => Sys2Proof.Machine.execWtall a s
  | .ffrdy a c => Sys2Proof.Machine.execFfrdy a c s
  | .trbclr a => Sys2Proof.Machine.execTrbclr a s
  | .waitc nl ns nc nt => Sys2Proof.Machine.execWaitc nl ns nc nt s
  | .wtml a b => Sys2Proof.Machine.execWtml a b s
  | .tgath a b => Sys2Proof.Machine.execTgath a b s
  | .tldk km a => Sys2Proof.Machine.execTldk km a s
  | .tzero acc => Sys2Proof.Machine.execTzero acc s
  | .tst acc a tag => Sys2Proof.Machine.execTst acc a tag s
  | .trd acc a b => Sys2Proof.Machine.execTrd acc a b s
  | .taccr acc a => Sys2Proof.Machine.execTaccr acc a s
  | .tseq a => Sys2Proof.Machine.execTseq a s
  | .tmma acc km a b => Sys2Proof.Machine.execTmma acc km a b s
  | .fence sc ord => Sys2Proof.Machine.execFence sc ord s
  | .bararr d a sc rel => Sys2Proof.Machine.execBararr d a sc rel s
  | .barwt d a sc => Sys2Proof.Machine.execBarwt d a sc s
  | .evld d a => Sys2Proof.Machine.execEvld d a s
  | .evsig d a => Sys2Proof.Machine.execEvsig d a s
  | .dsbind ds a b => Sys2Proof.Machine.execDsbind ds a b s
  | .sendMsg ds a b im rel => Sys2Proof.Machine.execSendMsg ds a b im rel s
  | .sendt ds a b rel => Sys2Proof.Machine.execSendt ds a b rel s
  | .putMsg ds a b c im rel => Sys2Proof.Machine.execPutMsg ds a b c im rel s
  | .getMsg ds a b c im => Sys2Proof.Machine.execGetMsg ds a b c im s
  | .ramo ds a b c op im rel => Sys2Proof.Machine.execRamo ds a b c op im rel s
  | .vscacc a b km => Sys2Proof.Machine.execVscacc a b km s
  | .vscfl => Sys2Proof.Machine.execVscfl s
  | .balw ds a off => Sys2Proof.Machine.execBalw ds a off s
  | .seala => Sys2Proof.Machine.execSeala s
  | .sealw => Sys2Proof.Machine.execSealw s
  | .spawn a => Sys2Proof.Machine.execSpawn a s
  | .start d a => Sys2Proof.Machine.execStart d a s
  | .endThread => Sys2Proof.Machine.execEndThread s
  | .yield => Sys2Proof.Machine.execYield s
  | .wfe a => Sys2Proof.Machine.execWfe a s
  | .ecall csr => Sys2Proof.Machine.execEcall csr s
  | .eret => Sys2Proof.Machine.execEret s
  | .csrr d csr => Sys2Proof.Machine.execCsrr d csr s
  | .csrw d a csr => Sys2Proof.Machine.execCsrw d a csr s
  | .csrs d a csr => Sys2Proof.Machine.execCsrs d a csr s
  | .csrc d a csr => Sys2Proof.Machine.execCsrc d a csr s
  | .tlbi a => Sys2Proof.Machine.execTlbi a s
  | .tlbiAll => Sys2Proof.Machine.execTlbiAll s
  | .rcommit => Sys2Proof.Machine.execRcommit s
  | .bist a => Sys2Proof.Machine.execBist a s
  | .brk csr => Sys2Proof.Machine.execBrk csr s
  | .trcmkStart a => Sys2Proof.Machine.execTrcmkStart a s
  | .trcmkStop a => Sys2Proof.Machine.execTrcmkStop a s
  | .interruptEntry u => Sys2Proof.Machine.execInterruptEntry u s
  | .ageBoost u => Sys2Proof.Machine.execAgeBoost u s
  | .copyComplete u n => Sys2Proof.Machine.execCopyComplete u n s
  | .chunkStart f k => Sys2Proof.Machine.execChunkStart f k s
  | .versionRequest u pa => Sys2Proof.Machine.execVersionRequest u pa s
  | .storeNotice f => Sys2Proof.Machine.execStoreNotice f s
  | .forwardArrival f => Sys2Proof.Machine.execForwardArrival f s
  | .conflictingWrite f pa => Sys2Proof.Machine.execConflictingWrite f pa s
  | .unpick f k cause => Sys2Proof.Machine.execUnpick f k cause s
  | .l1WayReclaim u set => Sys2Proof.Machine.execL1WayReclaim u set s
  | .chunkOldest f => Sys2Proof.Machine.execChunkOldest f s
  | .tileOpStart u => Sys2Proof.Machine.execTileOpStart u s
  | .tileOpComplete u => Sys2Proof.Machine.execTileOpComplete u s
  | .taccrReadServe u => Sys2Proof.Machine.execTaccrReadServe u s
  | .evuWait u => Sys2Proof.Machine.execEvuWait u s
  | .evuTake u => Sys2Proof.Machine.execEvuTake u s
  | .evuDrain u => Sys2Proof.Machine.execEvuDrain u s
  | .evuPeek u => Sys2Proof.Machine.execEvuPeek u s
  | .evuClear u => Sys2Proof.Machine.execEvuClear u s
  | .evuArrive u => Sys2Proof.Machine.execEvuArrive u s
  | .evuBarrierWait u => Sys2Proof.Machine.execEvuBarrierWait u s
  | .evuPoll u => Sys2Proof.Machine.execEvuPoll u s
  | .evuSet u => Sys2Proof.Machine.execEvuSet u s
  | .evuLock u => Sys2Proof.Machine.execEvuLock u s
  | .evuTry u => Sys2Proof.Machine.execEvuTry u s
  | .evuUnlock u => Sys2Proof.Machine.execEvuUnlock u s
  | .evuOwner u => Sys2Proof.Machine.execEvuOwner u s
  | .evsigDeliver n => Sys2Proof.Machine.execEvsigDeliver n s
  | .evuWaitSatisfied u => Sys2Proof.Machine.execEvuWaitSatisfied u s
  | .barrierPhaseComplete b => Sys2Proof.Machine.execBarrierPhaseComplete b s
  | .gcslpWake u => Sys2Proof.Machine.execGcslpWake u s
  | .bindReply u r => Sys2Proof.Machine.execBindReply u r s
  | .ingressPut n => Sys2Proof.Machine.execIngressPut n s
  | .ingressSend n => Sys2Proof.Machine.execIngressSend n s
  | .ingressGet n => Sys2Proof.Machine.execIngressGet n s
  | .ingressRamo n => Sys2Proof.Machine.execIngressRamo n s
  | .combiningPair n => Sys2Proof.Machine.execCombiningPair n s
  | .combiningFlush n => Sys2Proof.Machine.execCombiningFlush n s
  | .staleIncarnationDrop n => Sys2Proof.Machine.execStaleIncarnationDrop n s
  | .resetNotice h ds => Sys2Proof.Machine.execResetNotice h ds s
  | .demand h ds => Sys2Proof.Machine.execDemand h ds s
  | .grant h ds g => Sys2Proof.Machine.execGrant h ds g s
  | .acknowledgement n mark => Sys2Proof.Machine.execAcknowledgement n mark s
  | .negativeAcknowledgement n reason => Sys2Proof.Machine.execNegativeAcknowledgement n reason s
  | .getResponse n data => Sys2Proof.Machine.execGetResponse n data s
  | .retransmissionTimeout n => Sys2Proof.Machine.execRetransmissionTimeout n s
  | .creditReturn h ds => Sys2Proof.Machine.execCreditReturn h ds s
  | .portXoff pkg => Sys2Proof.Machine.execPortXoff pkg s
  | .portXon pkg => Sys2Proof.Machine.execPortXon pkg s
  | .sendtLaunch u => Sys2Proof.Machine.execSendtLaunch u s
  | .startArrival n => Sys2Proof.Machine.execStartArrival n s
  | .dispatchPlace die => Sys2Proof.Machine.execDispatchPlace die s
  | .deschedule u => Sys2Proof.Machine.execDeschedule u s
  | .parkedRequeue die e => Sys2Proof.Machine.execParkedRequeue die e s
  | .frameBoundary => Sys2Proof.Machine.execFrameBoundary s
  | .regionSweep => Sys2Proof.Machine.execRegionSweep s
  | .undoDrain die => Sys2Proof.Machine.execUndoDrain die s
  | .traceDrain die x => Sys2Proof.Machine.execTraceDrain die x s
  | .tagScrub => Sys2Proof.Machine.execTagScrub s
  | .sealArrive die => Sys2Proof.Machine.execSealArrive die s
  | .sealedDeclare n => Sys2Proof.Machine.execSealedDeclare n s
  | .sealedApply => Sys2Proof.Machine.execSealedApply s
  | .sealwRelease u => Sys2Proof.Machine.execSealwRelease u s
  | .undoPressure elsewhere => Sys2Proof.Machine.execUndoPressure elsewhere s
  | .uncorrectableError e => Sys2Proof.Machine.execUncorrectableError e s
  | .correctedError e => Sys2Proof.Machine.execCorrectedError e s
  | .poisonRead u pa => Sys2Proof.Machine.execPoisonRead u pa s
  | .domainRollback => Sys2Proof.Machine.execDomainRollback s
  | .rollbackResume t => Sys2Proof.Machine.execRollbackResume t s
  | .gangSwitchBegin p => Sys2Proof.Machine.execGangSwitchBegin p s
  | .gangSwitchRestore p => Sys2Proof.Machine.execGangSwitchRestore p s
  | .gangSwitchResume p => Sys2Proof.Machine.execGangSwitchResume p s
  | .bistComplete die q nfail spares => Sys2Proof.Machine.execBistComplete die q nfail spares s
  | .thermalTrip again => Sys2Proof.Machine.execThermalTrip again s
  | .powerOverCap => Sys2Proof.Machine.execPowerOverCap s
  | .coolantFault => Sys2Proof.Machine.execCoolantFault s
  | .powerOn o => Sys2Proof.Machine.execPowerOn o s
  | .camellRetry ok => Sys2Proof.Machine.execCamellRetry ok s
  | .hostRead pa n => Sys2Proof.Machine.execHostRead pa n s
  | .hostWrite pa data => Sys2Proof.Machine.execHostWrite pa data s
  | .stagingWrite off data => Sys2Proof.Machine.execStagingWrite off data s
  | .rcfgWrite die n v => Sys2Proof.Machine.execRcfgWrite die n v s
  | .rwinWrite die q n v => Sys2Proof.Machine.execRwinWrite die q n v s
  | .incAdvance die x => Sys2Proof.Machine.execIncAdvance die x s
  | .haltFree die x v => Sys2Proof.Machine.execHaltFree die x v s
  | .reload die v => Sys2Proof.Machine.execReload die v s
  | .barrierDomainConfig b off v => Sys2Proof.Machine.execBarrierDomainConfig b off v s
  | .domcfgWrite v => Sys2Proof.Machine.execDomcfgWrite v s
  | .rollreq v => Sys2Proof.Machine.execRollreq v s
  | .dissolve v => Sys2Proof.Machine.execDissolve v s
  | .go p => Sys2Proof.Machine.execGo p s
  | .gswtArm u v => Sys2Proof.Machine.execGswtArm u v s
  | .gswtCancel u v => Sys2Proof.Machine.execGswtCancel u v s
  | .rangePendingWrite n v => Sys2Proof.Machine.execRangePendingWrite n v s
  | .vhwmWrite u r v => Sys2Proof.Machine.execVhwmWrite u r v s
  | .trclostClear die x => Sys2Proof.Machine.execTrclostClear die x s
  | .errlostClear => Sys2Proof.Machine.execErrlostClear s
  | .cevalClear die => Sys2Proof.Machine.execCevalClear die s
  | .capwWrite v => Sys2Proof.Machine.execCapwWrite v s
  | .moduleReset v => Sys2Proof.Machine.execModuleReset v s
  | .imageLoad v good => Sys2Proof.Machine.execImageLoad v good s
  | .attnonceWrite k v => Sys2Proof.Machine.execAttnonceWrite k v s
  | .attokWrite v => Sys2Proof.Machine.execAttokWrite v s
  | .dcrWrite pa v => Sys2Proof.Machine.execDcrWrite pa v s
  | .illegalInstruction w => Sys2Proof.Machine.execIllegalInstruction w s
  | .accessPerformed u => Sys2Proof.Machine.execAccessPerformed u s
  | .vectorInstructionComplete u => Sys2Proof.Machine.execVectorInstructionComplete u s
  | .thermChange die q level => Sys2Proof.Machine.execThermChange die q level s

end Sys2Proof.Machine
end

