-- ==== Sys2Proof/Machine/Step.lean ====
section
/-! DEFINITION. One step of the module, and placing an instruction where the next step fetches it. -/

namespace Sys2Proof.Machine

/-- One step: what the schedule names next, or what comes about by itself (INVENTORY.md, Agents; log 2). -/
def step (s : State) : Host.Outcome State Fault Refusal := s.advanceBy exec

/-- The context whose instruction the next step runs: context 0 of core 0 of die 0, of QCC 0 for a tile instruction. -/
def fetchCtx (w : Nat) : CtxId :=
  if w / 2 ^ 26 % 64 = 0x27 ∨ w / 2 ^ 26 % 64 = 0x28 then mkCtxId 0 128 0 else mkCtxId 0 0 0

/-- `s` with the instruction of word `w` in the ISTORE at the PC of that context, which holds a thread at level S and is next
on the schedule; no frame boundary and no launch of a SENDT comes first (log 7). -/
def State.withFetchWord (s : State) (_nbits w : Nat) : State :=
  let u := fetchCtx w
  let c := s.ctx u
  let live := if c.status = .live then { c with wait := none } else { c with status := .live, sup := true, pc := 0, wait := none }
  let core := s.core u.die u.unit.val
  let s1 := s.setCtx u live
  let s2 := s1.setCore u.die u.unit.val { core with istore := memWrite core.istore live.pc.toNat (bytesOf 4 w) }
  { s2 with
    agenda := [.issue u]
    frames := s.time / 1024
    net := s2.net.filter Req.issued }

end Sys2Proof.Machine
end

