-- ==== Sys2Proof/Safety.lean ====
section
/-! DEFINITION. What the claims call safe: memories in their canonical form, and steps and runs that do not stop. -/

namespace Sys2Proof.Machine

/-- Every memory that State holds is in its canonical form: physical memory, the ISTOREs, the staging window. -/
def State.memsWf (s : State) : Bool :=
  Memory.wf s.mem && s.cores.all (fun kc => Memory.wf kc.2.istore) && Memory.wf s.hub.staging

/-- A step that answers a next state. -/
def goesOn (o : Host.Outcome State Fault Refusal) : Bool :=
  match o with
  | .next _ => true
  | .fault _ => false
  | .refused _ => false

/-- No act of the agenda names an instruction that has a word as an event. -/
def State.agendaOk (s : State) : Bool :=
  s.agenda.all (fun a => match a with
    | .issue _ => true
    | .event i => !i.hasWord
    | .pass _ => true
    | .evictTlb _ => true
    | .arrive _ => true
    | .progress _ _ => true
    | .podArrive _ _ _ _ => true
    | .lateUnit _ _ => true
    | .memberRin _ => true
    | .bindOut _ _ _ _ => true
    | .demandOut _ => true
    | .creditBack _ _ _ => true
    | .laneLost _ _ => true
    | .laneRate _ _ _ => true
    | .rowRepair _ _ => true
    | .congest _ => true
    | .passes _ _ => true
    | .lineLost _ => true)

/-- What a run of `n` steps comes to when it never stops. -/
def runsTo (s : State) (n : Nat) (t : State) : Prop := Host.Core.run Sys2Proof.core n s = .next t

end Sys2Proof.Machine
end

