-- ==== Sys2Proof/Certificates/Slice0/Obligations.lean ====
section
/-! DEFINITION. The statements for the provers. Each `Obligations.X` is a Prop about the model; the helpers before it,
in namespace `Sys2Proof.Claims`, say in the spec's words what the statement compares the model with. -/

namespace Sys2Proof.Claims

open Sys2Proof.Machine

/-! ## How an instruction leaves its context -/

/-- `c'` is the context `c` after it has written `v` to s[d] and gone on at `pc` (R85): s0 reads as zero and a write to it is
discarded, every other register keeps its value, a chunk remembers which registers it has written (R173), and every other
piece of the context is as it was. -/
def Wrote (c c' : Ctx) (d : BitVec 5) (v pc : Word) : Prop :=
  c' = { c with
    regs := c'.regs
    chunk := c'.chunk
    pc := pc
    wait := none } ∧
  (∀ r : BitVec 5, c'.x r = if r ≠ 0 ∧ r = d then v else c.x r) ∧
  (c.chunk = none → c'.chunk = none) ∧
  (∀ ch, c.chunk = some ch → ∃ w, c'.chunk = some { ch with written := w } ∧
    ∀ r : BitVec 5, bitOf w r.toNat = (bitOf ch.written r.toNat || decide (r ≠ 0 ∧ r = d)))

/-- `exec i s` goes on, and the issuing context has written `v` to s[d] and stands at `pc`; nothing else has changed. -/
def Writes (i : Instr) (s : State) (d : BitVec 5) (v pc : Word) : Prop :=
  ∃ c', exec i s = .next (s.setCtx s.cur c') ∧ Wrote s.me c' d v pc

/-! ## Majors 0x01 to 0x13 -/

/-- 1 or 0. -/
def oneIf (p : Prop) [Decidable p] : Word := if p then 1 else 0

/-- The word whose bit `n` is `f n`. -/
def fromBits (f : Nat → Bool) : Word := (BitVec.ofBoolListLE ((List.range 64).map f)).setWidth 64

/-- Bit `n` of the result is bit `n + k` of `x`, and `top` beyond it. -/
def shiftedRight (x : Word) (k : Nat) (top : Bool) : Word :=
  fromBits fun n => if n + k < 64 then x.getLsbD (n + k) else top

/-- How many of the numbers below `n` have a property. -/
def howMany (n : Nat) (p : Nat → Bool) : Nat := (List.range n).countP p

/-- The quotient of R93 and its remainder, signed. -/
def quotRem (X Y : Int) : Int × Int :=
  if Y = 0 then (-1, X) else if X = -(2 ^ 63) ∧ Y = -1 then (-(2 ^ 63), 0) else (X.tdiv Y, X - X.tdiv Y * Y)

def quotRemU (X Y : Nat) : Nat × Nat := if Y = 0 then (2 ^ 64 - 1, X) else (X / Y, X - X / Y * Y)

/-- A 16-bit immediate as the integer that its sign extension holds. -/
def immInt (i : BitVec 16) : Int := if i.toNat < 2 ^ 15 then i.toNat else (i.toNat : Int) - 2 ^ 16

/-- The immediate as a 64-bit word. -/
def immWord (i : BitVec 16) : Word := BitVec.ofInt 64 (immInt i)

/-- The scalar result of each instruction of majors 0x01 to 0x0B, from the registers `x` and the address `pc` of the
instruction (R92 to R97): destination and value. -/
def scalarResult (x : BitVec 5 → Word) (pc : Word) : Instr → Option (BitVec 5 × Word)
  | .add d a b => some (d, BitVec.ofNat 64 ((x a).toNat + (x b).toNat))
  | .sub d a b => some (d, BitVec.ofInt 64 ((x a).toNat - (x b).toNat))
  | .andR d a b => some (d, fromBits fun n => (x a).getLsbD n && (x b).getLsbD n)
  | .orR d a b => some (d, fromBits fun n => (x a).getLsbD n || (x b).getLsbD n)
  | .xorR d a b => some (d, fromBits fun n => (x a).getLsbD n != (x b).getLsbD n)
  | .andn d a b => some (d, fromBits fun n => (x a).getLsbD n && !(x b).getLsbD n)
  | .sll d a b => some (d, BitVec.ofNat 64 ((x a).toNat * 2 ^ ((x b).toNat % 64)))
  | .srl d a b => some (d, BitVec.ofNat 64 ((x a).toNat / 2 ^ ((x b).toNat % 64)))
  | .sra d a b => some (d, shiftedRight (x a) ((x b).toNat % 64) ((x a).getLsbD 63))
  | .slt d a b => some (d, oneIf ((x a).toInt < (x b).toInt))
  | .sltu d a b => some (d, oneIf ((x a).toNat < (x b).toNat))
  | .minS d a b => some (d, BitVec.ofInt 64 (min (x a).toInt (x b).toInt))
  | .maxS d a b => some (d, BitVec.ofInt 64 (max (x a).toInt (x b).toInt))
  | .minu d a b => some (d, BitVec.ofNat 64 (min (x a).toNat (x b).toNat))
  | .maxu d a b => some (d, BitVec.ofNat 64 (max (x a).toNat (x b).toNat))
  | .mul d a b => some (d, BitVec.ofNat 64 ((x a).toNat * (x b).toNat))
  | .mulh d a b => some (d, BitVec.ofInt 64 (((x a).toInt * (x b).toInt).fdiv (2 ^ 64)))
  | .mulhu d a b => some (d, BitVec.ofNat 64 ((x a).toNat * (x b).toNat / 2 ^ 64))
  | .clz d a => some (d, BitVec.ofNat 64 (howMany 64 fun n => (x a).toNat < 2 ^ n))
  | .ctz d a => some (d, BitVec.ofNat 64 (howMany 64 fun n => (x a).toNat % 2 ^ (n + 1) = 0))
  | .popc d a => some (d, BitVec.ofNat 64 (howMany 64 fun n => (x a).getLsbD n))
  | .sxb d a => some (d, BitVec.ofInt 64 (Int.bmod (x a).toNat (2 ^ 8)))
  | .sxh d a => some (d, BitVec.ofInt 64 (Int.bmod (x a).toNat (2 ^ 16)))
  | .sxw d a => some (d, BitVec.ofInt 64 (Int.bmod (x a).toNat (2 ^ 32)))
  | .zxw d a => some (d, BitVec.ofNat 64 ((x a).toNat % 2 ^ 32))
  | .sel d a b c => some (d, if x c = 0 then x b else x a)
  | .addi d a i => some (d, BitVec.ofInt 64 ((x a).toNat + immInt i))
  | .andi d a i => some (d, fromBits fun n => (x a).getLsbD n && i.getLsbD (min n 15))
  | .ori d a i => some (d, fromBits fun n => (x a).getLsbD n || i.getLsbD (min n 15))
  | .xori d a i => some (d, fromBits fun n => (x a).getLsbD n != i.getLsbD (min n 15))
  | .slti d a i => some (d, oneIf ((x a).toInt < immInt i))
  | .sltiu d a i => some (d, oneIf ((x a).toNat < (immWord i).toNat))
  | .slli d a k => some (d, BitVec.ofNat 64 ((x a).toNat * 2 ^ k.toNat))
  | .srli d a k => some (d, BitVec.ofNat 64 ((x a).toNat / 2 ^ k.toNat))
  | .srai d a k => some (d, shiftedRight (x a) k.toNat ((x a).getLsbD 63))
  | .liz d q z i => some (d, BitVec.ofInt 64 ((if z = 1 then immInt i else (i.toNat : Int)) * 2 ^ (16 * q.toNat)))
  | .lik d q i => some (d, fromBits fun n =>
      if n / 16 = q.toNat then i.getLsbD (n % 16) else (x d).getLsbD n)
  | .addpc d o => some (d, BitVec.ofInt 64 (pc.toNat + 4 * Int.bmod o.toNat (2 ^ 21)))
  | _ => none

end Sys2Proof.Claims

open Sys2Proof Sys2Proof.Machine Sys2Proof.Claims

/-- Majors 0x01 to 0x0B but for division (R92, R94 to R97): each instruction completes, writes its result to s[d] and
goes on at PC + 4. -/
def Obligations.ScalarResults : Prop :=
  ∀ (s : State) (i : Instr) (d : BitVec 5) (v : Word),
    scalarResult s.me.x s.me.pc i = some (d, v) → Writes i s d v (s.me.pc + 4)

/-- R93: DIV, DIVU, REM and REMU complete with the quotient or the remainder that the rule's text computes, by zero and on
overflow too; with the rule's worked cases. -/
def Obligations.DivisionRule : Prop :=
  (∀ (s : State) (d a b : BitVec 5),
    Writes (.div d a b) s d (BitVec.ofInt 64 (quotRem (s.me.x a).toInt (s.me.x b).toInt).1) (s.me.pc + 4) ∧
    Writes (.rem d a b) s d (BitVec.ofInt 64 (quotRem (s.me.x a).toInt (s.me.x b).toInt).2) (s.me.pc + 4) ∧
    Writes (.divu d a b) s d (BitVec.ofNat 64 (quotRemU (s.me.x a).toNat (s.me.x b).toNat).1) (s.me.pc + 4) ∧
    Writes (.remu d a b) s d (BitVec.ofNat 64 (quotRemU (s.me.x a).toNat (s.me.x b).toNat).2) (s.me.pc + 4)) ∧
  quotRem (-7) 2 = (-3, -1) ∧ quotRem (-7) 0 = (-1, -7) ∧ decode 0x05095014 = .ok (.divu 8 9 10)

namespace Sys2Proof.Claims

open Sys2Proof.Machine

/-! ## Control transfers -/

/-- Bytes of a unit's ISTORE (R37, R101). -/
def limit (u : CtxId) : Nat := if u.unit.val < 128 then 0x20000 else 0x10000

/-- The context goes on at `pc` and is otherwise as it was. -/
def gone (c : Ctx) (pc : Word) : Ctx :=
  { c with
    pc := pc
    wait := none }

/-- `exec i s` goes on with the issuing context at `pc`, and nothing else has changed. -/
def GoesTo (i : Instr) (s : State) (pc : Word) : Prop := exec i s = .next (s.setCtx s.cur (gone s.me pc))

/-- A PC-relative target of an `n`-bit word offset (R39). -/
def relative (pc : Word) {n : Nat} (off : BitVec n) : Word := BitVec.ofInt 64 (pc.toNat + 4 * Int.bmod off.toNat (2 ^ n))

/-- The condition and the offset of each conditional branch (R98). -/
def branchOf (x : BitVec 5 → Word) : Instr → Option (Bool × BitVec 16)
  | .beq a b o => some (decide ((x a).toNat = (x b).toNat), o)
  | .bne a b o => some (decide ((x a).toNat ≠ (x b).toNat), o)
  | .blt a b o => some (decide ((x a).toInt < (x b).toInt), o)
  | .bge a b o => some (decide ((x a).toInt ≥ (x b).toInt), o)
  | .bltu a b o => some (decide ((x a).toNat < (x b).toNat), o)
  | .bgeu a b o => some (decide ((x a).toNat ≥ (x b).toNat), o)
  | _ => none

/-! ## Traps -/

/-- PMC1 to PMC15 after `n` occurrences of what PMC`k` counts: only while TRCCTL.CEN is 1, and with CAPQ only inside a
capture (R376, R381). -/
def counted (c : Ctx) (k : Fin 15) (n : Nat) : Vector Word 15 :=
  if c.csr.trcctl.getLsbD 2 = true ∧ (c.csr.trcctl.getLsbD 3 = true → c.csr.trcctl.getLsbD 4 = true) then
    c.csr.pmc.set k.val (c.csr.pmc[k] + BitVec.ofNat 64 n) k.isLt
  else c.csr.pmc

/-- The handler's address (R360). -/
def handler (c : Ctx) (int : Bool) : Word := BitVec.ofNat 64 (c.csr.trapv.toNat * 256 + if int then 256 else 0)

/-- The context after trap entry (R360): XPC, TCAUSE, TVAL and EPX written, PLVL and PIE saved, IE cleared, EXL set, level S,
PC at the handler; a waiting instruction is withdrawn. -/
def entered (c : Ctx) (int : Bool) (cause : BitVec 8) (val xpc epx : Word) : Ctx :=
  { c with
    sup := true
    pc := handler c int
    epx := epx
    rst := 0
    joinFirst := false
    prior := 0
    wait := none
    evld := none
    watch := []
    woken := false
    csr := { c.csr with
      pmc := counted c 14 1
      xpc := xpc
      tcause := BitVec.ofNat 10 (cause.toNat + if int then 256 else 0)
      tval := val
      plvl := c.sup
      pie := c.csr.ie
      ie := false
      exl := true } }

/-- The context may take a trap into its handler: it is no chunk of a fork, EXL is 0, and the entry lies in the ISTORE. -/
def MayTrap (s : State) : Prop :=
  s.me.chunk = none ∧ s.me.csr.exl = false ∧ (handler s.me false).toNat < limit s.cur

/-- `exec i s` takes a synchronous trap: the issuing context enters its handler with XPC the address of `i` and EPX 0, and
nothing else has changed. -/
def Traps (i : Instr) (s : State) (cause : BitVec 8) (val : Word) : Prop :=
  exec i s = .next (s.setCtx s.cur (entered s.me false cause val s.me.pc 0))

/-- The label at which a JOIN of the context is legal after a return to it: of a local fork in its join phase, else of the
fork in its join phase (R201). -/
def JoinsAt (s : State) (a : Word) : Prop :=
  (∃ i, s.me.inner = some i ∧ i.joining = true ∧ i.join = a) ∨
  (s.me.inner = none ∧ s.me.joinPhase = true ∧ ∃ x, s.fork (s.forkIdOf s.cur) = some x ∧ x.info.join = a)

/-- The word of an instruction, as TVAL shows it. -/
def wordVal (i : Instr) : Word := BitVec.ofNat 64 ((encode i).getD 0).toNat

/-! ## CSRs -/

/-- A word from its fields: the lowest bit, the width and the value of each. -/
def fieldsOf (l : List (Nat × Nat × Nat)) : Word :=
  l.foldr (fun f w => BitVec.ofNat 64 (f.2.2 % 2 ^ f.2.1 * 2 ^ f.1) ||| w) 0

def flag (b : Bool) : Nat := if b then 1 else 0

/-- The context that holds the thread of a context: of a forked thread, the oldest chunk's (R169). -/
def threadUnit (s : State) (u : CtxId) : CtxId :=
  match (s.ctx u).chunk, s.fork (s.forkIdOf u) with
  | some _, some x => s.chunkCtx (s.forkIdOf u) x x.info.oldest
  | _, _ => u

/-- Its state, which travels with the commit token. -/
def threadPart (s : State) (u : CtxId) : Ctx :=
  match (s.ctx u).chunk, s.fork (s.forkIdOf u) with
  | some _, some x => x.handover.getD (s.ctx (threadUnit s u))
  | _, _ => s.ctx u

/-- The codes of the type tags (R134). -/
def tagCode : Tag → Nat
  | .untagged => 0 | .i8 => 1 | .i16 => 2 | .i32 => 3 | .i64 => 4 | .n8 => 5 | .n16 => 6 | .n32 => 7 | .n64 => 8
  | .fp16 => 9 | .bf16 => 10 | .fp32 => 11 | .lns8 => 12

/-- The tags of sixteen registers (R133). -/
def tagWord (v : Vector VReg 32) (base : Nat) : Word :=
  fieldsOf ((List.range 16).map fun i => (4 * i, 4, tagCode (v[(base + i) % 32]'(Nat.mod_lt _ (by decide))).tag))

/-- The beats of held requests, and the held device stores, in a die's egress hold of 65,536 beats (R312, R325). -/
def inHold (s : State) (d : Fin 8) : Nat :=
  ((s.net.filter (·.fromDie d)).map fun r => match r.stage with
    | .held _ => r.beats
    | _ => 0).sum + (s.die d).holds.length

def freeHold (s : State) (d : Fin 8) : Nat := 65536 - inHold s d

/-- PATH of a slot (R263). -/
def pathOf (s : State) (x : DSlot) : Nat :=
  if s.xoff.contains (BitVec.ofNat 18 (x.ep.toNat / 2 ^ 14)) then 0 else if x.infl = 0 then 256 else x.pmax - x.infl

/-- ALWn (R262). -/
def alwWord (s : State) (d : Fin 8) (x : DSlot) : Word :=
  fieldsOf [(0, 16, if x.bnd then (if x.out then min (min x.wc (pathOf s x)) (freeHold s d) else min x.wc (pathOf s x)) else 0),
    (16, 16, x.wc), (32, 16, if x.bnd then pathOf s x else 0), (48, 16, min (freeHold s d) 0xFFFF)]

/-- DSLOTn (R261); OUTST counts the slot's requests that have issued and not completed. -/
def dslotWord (s : State) (u : CtxId) (n : Nat) (x : DSlot) : Word :=
  fieldsOf [(0, 32, x.ep.toNat), (32, 2, x.win.toNat), (34, 1, flag x.bnd), (35, 1, flag x.out), (36, 1, flag x.rst), (37, 1, flag x.pfl),
    (40, 8, x.inc.toNat), (48, 6, (s.net.filter fun r =>
      decide (r.src = some (.here (threadUnit s u))) && r.issued && decide (r.ds = BitVec.ofNat 4 n) && !r.isStart).length)]

/-- ULOGLVL (R311): the bytes of undo records in the fullest stack, and the lowest stack that is so full. -/
def ulogWord (s : State) : Word :=
  let used (k : Nat) : Nat := 80 * (s.undo.toList.getD k []).length
  let top := ((List.range 8).map used).foldl max 0
  fieldsOf [(0, 34, top), (34, 3, ((List.range 8).find? fun k => used k = top).getD 0)]

/-- The CSRs that every unit has, with the value that a read by the context `u` gives, from the field maps (R375). -/
def commonCsr (s : State) (u : CtxId) (n : Nat) : Option Word :=
  let c := s.ctx u
  let r := s.ringOf u
  let first := s.ringFirst u.die u.quad
  let inDomain (w : Word) : Word := if c.dom then w else 0
  if n = 0x001 then some (fieldsOf [(0, 6, c.csr.fflg.toNat)]) else if n = 0x002 then some (fieldsOf [(0, 3, c.csr.frm.toNat)])
  else if 0x060 ≤ n ∧ n ≤ 0x063 then some (c.csr.pol[(n - 0x060) % 4]'(Nat.mod_lt _ (by decide)))
  else if n = 0x070 then some c.csr.cpydim else if n = 0x080 then some c.trb
  else if 0x0B0 ≤ n ∧ n ≤ 0x0BF then some (alwWord s u.die ((threadPart s u).slots[(n - 0x0B0) % 16]'(Nat.mod_lt _ (by decide))))
  else if 0x0C0 ≤ n ∧ n ≤ 0x0CF then
    some (dslotWord s u (n - 0x0C0) (c.slots[(n - 0x0C0) % 16]'(Nat.mod_lt _ (by decide))))
  else if n = 0x0D0 then some c.csr.slotcfg
  else if n = 0x0E0 then some (inDomain (fieldsOf [(0, 32, c.rin.toNat), (32, 1, flag c.dom), (33, 1, flag c.sealing)]))
  else if n = 0x0E1 then
    some (inDomain (fieldsOf [(0, 32, (s.die u.die).sealed.toNat), (32, 16, ((s.domain.map fun (x : Domain) => x.domid).getD 0).toNat)]))
  else if n = 0x0E2 then some (inDomain (ulogWord s)) else if n = 0x0E3 then some (inDomain (fieldsOf [(0, 34, s.hub.ulogth.toNat)]))
  else if n = 0x0E4 then some (inDomain (fieldsOf [(0, 17, inHold s u.die)]))
  else if n = 0x0E5 then some (inDomain (threadPart s u).rollcnt)
  else if n = 0x0F0 then some (fieldsOf [(0, 32, (BitVec.ofInt 32 r.ealw).toNat), (32, 32, r.quant)])
  else if n = 0x0F1 then
    some (fieldsOf [(0, 64, c.csr.ecls), (8, 2, ((List.range (s.ringLen u.die first / 4)).map fun i => (s.quad u.die (first + i)).therm.toNat).foldl max 0)])
  else if n = 0x0F2 then some (fieldsOf [(0, 3, c.csr.pri.toNat), (8, 8, c.csr.age), (16, 1, flag c.boost)])
  else if n = 0x0F3 then some (fieldsOf [(0, 32, c.csr.desched.toNat)])
  else if n = 0x100 then some (fieldsOf [(8, 9, c.csr.trapv.toNat)]) else if n = 0x101 then some (fieldsOf [(0, 10, c.csr.tcause.toNat)])
  else if n = 0x102 then some c.csr.tval else if n = 0x103 then some c.csr.xpc
  else if n = 0x104 then
    some (fieldsOf [(0, 1, flag c.sup), (1, 1, flag c.csr.ie), (2, 1, flag c.csr.exl), (3, 1, flag c.csr.plvl), (4, 1, flag c.csr.pie),
      (5, 1, flag c.csr.gsi), (6, 1, flag c.csr.ipend), (7, 1, flag (c.chunk.isSome || c.joinPhase || c.inner.isSome))])
  else if n = 0x105 then some ((s.part (s.partOfCtx u)).armed.getD 0)
  else if n = 0x106 then some c.csr.ptroot
  else if n = 0x107 then
    some (fieldsOf [(0, 10, u.unit.val), (10, 4, u.die.val), (14, 18, s.pkg.toNat), (32, 2, u.slot.val), (34, 4, s.partOfCtx u)])
  else if n = 0x108 then some c.csr.xscr
  else if n = 0x110 then some (BitVec.ofNat 64 s.time)
  else if 0x120 ≤ n ∧ n ≤ 0x123 then some ((s.quad u.die u.quad).rwin[(n - 0x120) % 4]'(Nat.mod_lt _ (by decide)))
  else if 0x130 ≤ n ∧ n ≤ 0x13F then some (s.rngb[(n - 0x130) % 16]'(Nat.mod_lt _ (by decide)))
  else if 0x140 ≤ n ∧ n ≤ 0x14F then some (s.rngl[(n - 0x140) % 16]'(Nat.mod_lt _ (by decide)))
  else if n = 0x150 then some (fieldsOf [(0, 58, c.csr.scopechk.toNat)]) else if n = 0x160 then some (fieldsOf [(0, 6, c.csr.trcctl.toNat)])
  else if 0x161 ≤ n ∧ n ≤ 0x16F then some (c.csr.pmc[(n - 0x161) % 15]'(Nat.mod_lt _ (by decide)))
  else none

/-- The CSRs of a vector core alone. -/
def coreCsr (s : State) (u : CtxId) (n : Nat) : Option Word :=
  let c := s.ctx u
  let sq := (threadPart s u).sqcnt
  if n = 0x003 then some (fieldsOf [(0, 6, c.csr.vflg.toNat)])
  else if n = 0x010 then some (BitVec.ofNat 64 c.csr.vl)
  else if n = 0x011 then some (tagWord c.vregs 0) else if n = 0x012 then some (tagWord c.vregs 16)
  else if n = 0x013 then some c.epx
  else if 0x040 ≤ n ∧ n ≤ 0x05F then some (BitVec.ofNat 64 (c.vregs[(n - 0x040) % 32]'(Nat.mod_lt _ (by decide))).hwm)
  else if n = 0x090 then some c.csr.fkliv else if n = 0x091 then some c.csr.fkvec
  else if n = 0x092 then some (fieldsOf [(0, 5, c.csr.fklim), (8, 5, (s.ringOf u).elim), (16, 1, flag c.csr.nopred)])
  else if n = 0x093 then some (fieldsOf [(0, 16, sq[0]), (16, 16, sq[1]), (32, 16, sq[2]), (48, 16, sq[3])])
  else if n = 0x0D1 then some (fieldsOf [(0, 14, c.csr.owntbl.toNat)])
  else none

/-- The CSRs of a QCC alone. -/
def qccCsr (s : State) (u : CtxId) (n : Nat) : Option Word :=
  let c := s.ctx u
  if n = 0x0A0 then some (fieldsOf [(0, 12, c.csr.tfmt.toNat)]) else if n = 0x0A1 then some c.csr.scla
  else if n = 0x0A2 then some c.csr.sclb else if n = 0x0A3 then some c.csr.apitch else if n = 0x0A4 then some c.tile.tln
  else none

/-- The value of CSR `n` as a read of the context `u` gives it; none where its unit does not have it. -/
def csrWord (s : State) (u : CtxId) (n : Nat) : Option Word :=
  (commonCsr s u n).or (if u.unit.val < 128 then coreCsr s u n else qccCsr s u n)

/-- Access code SO (R375): any access below level S raises PRIVILEGE. -/
def onlyS (n : Nat) : Prop :=
  (0x100 ≤ n ∧ n ≤ 0x106) ∨ n = 0x108 ∨ (0x120 ≤ n ∧ n ≤ 0x123) ∨ (0x130 ≤ n ∧ n ≤ 0x14F)

/-- Access code SRW: a write below level S raises PRIVILEGE. -/
def writesOnlyS (n : Nat) : Prop := n = 0x013 ∨ n = 0x0D0 ∨ n = 0x0E3 ∨ n = 0x0F2 ∨ n = 0x0F3

/-- Access code RO: writes are ignored. -/
def readOnly (n : Nat) : Prop :=
  n = 0x0A4 ∨ (0x0B0 ≤ n ∧ n ≤ 0x0BF) ∨ n = 0x0E0 ∨ n = 0x0E1 ∨ n = 0x0E2 ∨ n = 0x0E4 ∨ n = 0x0E5 ∨ n = 0x0F0 ∨ n = 0x107 ∨ n = 0x110

/-- The earlier work that an access waits for is done: VL, the tags, the marks and EPX wait for older vector instructions
(R133), FFLG for atomics that will set flags (R235). -/
def NothingAwaited (c : Ctx) (n : Nat) : Prop :=
  ((0x010 ≤ n ∧ n ≤ 0x013) ∨ (0x040 ≤ n ∧ n ≤ 0x05F) → c.vecs = []) ∧ (n = 0x001 → ∀ a ∈ c.accs, a.isStore = true)

/-- `i` is a CSR instruction on CSR `n` that writes. -/
def WritesCsr (i : Instr) (d a : BitVec 5) (n : BitVec 12) : Prop :=
  i = .csrw d a n ∨ (a ≠ 0 ∧ (i = .csrs d a n ∨ i = .csrc d a n))

/-- `i` is a CSR instruction on CSR `n` that only reads. -/
def ReadsCsr (i : Instr) (d : BitVec 5) (n : BitVec 12) : Prop := i = .csrr d n ∨ i = .csrs d 0 n ∨ i = .csrc d 0 n

/-- The CSRs that hold plain words of the context for software and supervisor, with their numbers (R375). -/
def plainCsr (n : Nat) : Option (Ctx → Word) :=
  if n = 0x060 then some (fun c => c.csr.pol[0]) else if n = 0x061 then some (fun c => c.csr.pol[1])
  else if n = 0x062 then some (fun c => c.csr.pol[2]) else if n = 0x063 then some (fun c => c.csr.pol[3])
  else if n = 0x070 then some (fun c => c.csr.cpydim)
  else if n = 0x0D0 then some (fun c => c.csr.slotcfg)
  else if n = 0x102 then some (fun c => c.csr.tval)
  else if n = 0x103 then some (fun c => c.csr.xpc)
  else if n = 0x108 then some (fun c => c.csr.xscr)
  else none

/-- The word that CSRW, CSRS and CSRC leave in such a CSR, from the old word and s[a] (R365). -/
def csrEffect (old a : Word) (d ra : BitVec 5) (csr : BitVec 12) : Instr → Option Word
  | .csrw d' a' n => if d' = d ∧ a' = ra ∧ n = csr then some a else none
  | .csrs d' a' n => if d' = d ∧ a' = ra ∧ n = csr then some (fromBits fun k => old.getLsbD k || a.getLsbD k) else none
  | .csrc d' a' n => if d' = d ∧ a' = ra ∧ n = csr then some (fromBits fun k => old.getLsbD k && !a.getLsbD k) else none
  | _ => none

/-- The bits of CSR `n` that a write changes and those of its fields that it leaves, for the CSRs whose fields software writes
(the field maps of the chapters that R375 names). -/
def writtenBits (n : Nat) : Option (Word × Word) :=
  let all : Word := 0xFFFFFFFFFFFFFFFF
  if n = 0x001 ∨ n = 0x003 then some (0x3F, 0) else if n = 0x002 then some (0x7, 0) else if n = 0x010 then some (0x7FF, 0)
  else if n = 0x011 ∨ n = 0x012 then some (all, 0) else if n = 0x013 then some (0x87FF87FF87FF87FF, 0)
  else if 0x040 ≤ n ∧ n ≤ 0x05F then some (0x1F, 0) else if (0x060 ≤ n ∧ n ≤ 0x063) ∨ n = 0x070 then some (all, 0)
  else if n = 0x090 then some (0xFFFFFFFE, 0) else if n = 0x091 then some (0xFE3F3F3F3F, 0) else if n = 0x092 then some (0x1001F, 0x1F00)
  else if n = 0x093 then some (all, 0) else if n = 0x0A0 then some (0xFFF, 0)
  else if n = 0x0A1 ∨ n = 0x0A2 then some (0x80000000003FFFFF, 0) else if n = 0x0A3 then some (0xFFFF01FFFFFF, 0)
  else if n = 0x0D0 then some (all, 0) else if n = 0x0D1 then some (0x3FFF, 0) else if n = 0x0E3 then some (0x3FFFFFFFF, 0)
  else if n = 0x0F1 then some (0x3, 0x300) else if n = 0x0F2 then some (0xFF07, 0x10000) else if n = 0x0F3 then some (0xFFFFFFFF, 0)
  else if n = 0x100 then some (0x1FF00, 0) else if n = 0x101 then some (0x3FF, 0)
  else if n = 0x102 ∨ n = 0x103 ∨ n = 0x108 then some (all, 0) else if n = 0x104 then some (0x3E, 0xC1)
  else if n = 0x106 then some (0xFFFFFFFFFFFFF001, 0) else if n = 0x150 then some (0x3FFFFFFFFFFFFFF, 0)
  else if n = 0x160 then some (0x2F, 0x10) else if 0x161 ≤ n ∧ n ≤ 0x16F then some (all, 0)
  else none

/-- The W1C fields: TRB, and PFL of a slot. -/
def clearedBits (n : Nat) : Option Word :=
  if n = 0x080 then some 0xFFFFFFFFFFFFFFFF else if 0x0C0 ≤ n ∧ n ≤ 0x0CF then some 0x2000000000 else none

/-- The CSR instruction `i` on CSR `n`, whose reserved bits are 0, would leave `v` in it, field by field (R365). -/
def Leaves (s : State) (i : Instr) (d a : BitVec 5) (n : BitVec 12) (old v : Word) : Prop :=
  match writtenBits n.toNat, clearedBits n.toNat with
  | some (m, ro), _ => (∀ k < 64, old.getLsbD k = true → m.getLsbD k = true ∨ ro.getLsbD k = true) ∧
      ∃ w, csrEffect old (s.me.x a) d a n i = some w ∧ v = fromBits fun k => if m.getLsbD k then w.getLsbD k else old.getLsbD k
  | none, some m => (i = .csrc d a n ∧ v = old) ∨
      ((i = .csrw d a n ∨ i = .csrs d a n) ∧ v = fromBits fun k => old.getLsbD k && !(m.getLsbD k && (s.me.x a).getLsbD k))
  | none, none => False

/-- What the CSRs' own rules allow: FRM (R68), VL (R132), tags and marks (R133), EPX (R147), FKCFG (R167), TFMT (R207), APITCH
(R209), OWNTBL (R274), ECLS (R350), THPRI (R346), TRAPV (R353), TRCCTL (R376). -/
def LegalCsr (u : CtxId) (n : Nat) (v : Word) : Prop :=
  let f (lo w : Nat) : Nat := v.toNat / 2 ^ lo % 2 ^ w
  if n = 0x002 then f 0 3 ≤ 4
  else if n = 0x010 then f 0 11 ≤ 1024
  else if n = 0x011 ∨ n = 0x012 then ∀ k < 16, f (4 * k) 4 ≤ 12
  else if n = 0x013 then ∀ k < 4, f (16 * k) 11 ≤ 1024
  else if 0x040 ≤ n ∧ n ≤ 0x05F then f 0 5 ≤ 16
  else if n = 0x092 then 2 ≤ f 0 5 ∧ f 0 5 ≤ 16
  else if n = 0x0A0 then f 0 4 ∈ [0, 1, 9, 10, 11, 12] ∧ f 4 4 ∈ [0, 1, 9, 10, 11, 12] ∧ f 8 4 ∈ [0, 3, 11]
  else if n = 0x0A3 then f 0 16 % 8 = 0 ∧ f 16 9 % 8 = 0 ∧ 8 ≤ f 16 9 ∧ f 16 9 ≤ 256
  else if n = 0x0D1 then f 5 4 + f 9 5 ≤ 16
  else if n = 0x0F1 then f 0 2 ≠ 3
  else if n = 0x0F2 then 8 ≤ f 8 8
  else if n = 0x100 then 128 ≤ u.unit.val → f 8 9 * 256 + 0x100 < 0x10000
  else n = 0x160 → f 1 1 = 1 → f 0 1 = 1

/-- What a write of CSR `n` asks of the context: the level, no earlier work to wait for, and for the tile CSRs that every queued
operation has started (R211). -/
def MayWriteCsr (s : State) (n : Nat) : Prop :=
  (onlyS n ∨ writesOnlyS n → s.me.sup = true) ∧ NothingAwaited s.me n ∧ (0x0A0 ≤ n ∧ n ≤ 0x0A3 → ∀ o ∈ s.me.tile.queue, o.started = true)

end Sys2Proof.Claims

/-- R98: a conditional branch compares s[a] and s[b]; not taken it goes on at PC + 4 whatever its target, taken it goes to
the target if that lies in the ISTORE, else it raises RANGE-FAULT with TVAL the target (R101: no register changes). A word of each
major decodes to its branch. -/
def Obligations.ConditionalBranches : Prop :=
  ∀ (s : State) (i : Instr) (taken : Bool) (off : BitVec 16), branchOf s.me.x i = some (taken, off) →
    (taken = false → GoesTo i s (s.me.pc + 4)) ∧
    (taken = true → (relative s.me.pc off).toNat < limit s.cur → GoesTo i s (relative s.me.pc off)) ∧
    (taken = true → limit s.cur ≤ (relative s.me.pc off).toNat → MayTrap s → Traps i s 0x06 (relative s.me.pc off)) ∧
    ∀ p ∈ [(0x30640002, Instr.beq 3 4 2), (0x34640002, .bne 3 4 2), (0x38640002, .blt 3 4 2), (0x3C640002, .bge 3 4 2),
      (0x40640002, .bltu 3 4 2), (0x44640002, .bgeu 3 4 2)], decode p.1 = .ok p.2

/-- R99, R100: JAL and JALR write PC + 4 to s[d] and go to their target, JALR reading s[a] first; a misaligned target of JALR
raises MISALIGNED before RANGE-FAULT is looked at, and a transfer that traps leaves every register (R101). A word of each decodes
to it. -/
def Obligations.JumpsAndLinks : Prop :=
  ∀ (s : State) (d a : BitVec 5) (off : BitVec 21) (imm : BitVec 16),
    let t := BitVec.ofInt 64 ((s.me.x a).toNat + immInt imm)
    ((relative s.me.pc off).toNat < limit s.cur → Writes (.jal d off) s d (s.me.pc + 4) (relative s.me.pc off)) ∧
    (limit s.cur ≤ (relative s.me.pc off).toNat → MayTrap s → Traps (.jal d off) s 0x06 (relative s.me.pc off)) ∧
    (t.toNat % 4 = 0 → t.toNat < limit s.cur → Writes (.jalr d a imm) s d (s.me.pc + 4) t) ∧
    (t.toNat % 4 ≠ 0 → MayTrap s → Traps (.jalr d a imm) s 0x03 t) ∧
    (t.toNat % 4 = 0 → limit s.cur ≤ t.toNat → MayTrap s → Traps (.jalr d a imm) s 0x06 t) ∧
    decode 0x483FFFC0 = .ok (.jal 1 0x1FFFC0) ∧ decode 0x4C210000 = .ok (.jalr 1 1 0)

/-- R360 with R355: ECALL, BRK and a word that is no instruction take their trap: XPC is the address of the instruction,
TCAUSE the code, TVAL what R355 names, the level S, IE 0, EXL 1, the PC at TRAPV.BASE x 256; with EXL = 1 the context halts
instead (R361) and its trap CSRs stay. -/
def Obligations.SoftwareTraps : Prop :=
  ∀ (s : State) (n : BitVec 12) (w : BitVec 32),
    (MayTrap s → Traps (.ecall n) s 0x0B (BitVec.ofNat 64 n.toNat) ∧ Traps (.brk n) s 0x0A (BitVec.ofNat 64 n.toNat) ∧
      Traps (.illegalInstruction w) s 0x01 (BitVec.ofNat 64 w.toNat)) ∧
    (s.me.chunk = none → s.me.csr.exl = true → ∀ i, i = .ecall n ∨ i = .brk n ∨ i = .illegalInstruction w →
      ∃ h, exec i s = .next { s.setCtx s.cur { s.me with
        status := .halted
        wait := none } with hub := h })

/-- R359, R360: INTERRUPT_ENTRY of a live context outside a fork takes GANG-SWITCH whatever IE holds, else a pending
INTERVAL-PRESSURE that IE and SEALING admit: XPC is the address of the next instruction, the entry lies 0x100 further on,
and the interrupt is no longer pending. -/
def Obligations.InterruptEntry : Prop :=
  ∀ (s : State) (u : CtxId) (q : List Req) (e : Quad) (c : Ctx),
    c = s.ctx u → c.status = .live → c.chunk = none → c.csr.exl = false → s.hub.powerOff = false → (handler c true).toNat < limit u →
    q = s.net.filter (fun r => !(decide (r.src = some (Holder.here u)) && !r.issued)) →
    e = { s.quad u.die u.quad with evu := { (s.quad u.die u.quad).evu with
      queue := (s.quad u.die u.quad).evu.queue.filter (fun m => decide (m ≠ u)) } } →
    (∀ w : BitVec 48, c.gswDue = some w →
      exec (.interruptEntry u) s = .next (({ s with net := q }.setQuad u.die u.quad e).setCtx u { entered c true 0x0E (BitVec.ofNat 64 w.toNat) c.pc c.rst with
        binding := none
        gswDue := none })) ∧
    (c.gswDue = none → c.csr.ie = true → c.csr.ipend = true → c.sealing = false →
      exec (.interruptEntry u) s = .next (({ s with net := q }.setQuad u.die u.quad e).setCtx u
        { entered { c with csr := { c.csr with ipend := false } } true 0x0D s.ulogLevel c.pc c.rst with
        binding := none }))

/-- R363: ERET at level S goes to XPC with the level of PLVL, the IE of PIE and EXL = 0, restarting under the pattern that
R148 takes from EPX; at level U it raises PRIVILEGE with TVAL its word; an XPC that is not aligned raises MISALIGNED and one past
the ISTORE RANGE-FAULT, with TVAL that XPC; with EXL = 1 each of the three halts the context instead. -/
def Obligations.ReturnFromTrap : Prop :=
  ∀ s : State, s.me.chunk = none →
    (s.me.sup = true → s.me.csr.xpc.toNat % 4 = 0 → s.me.csr.xpc.toNat < limit s.cur →
      ∃ j : Bool, (j = true ↔ JoinsAt s s.me.csr.xpc) ∧ exec .eret s = .next (s.setCtx s.cur { s.me with
        joinFirst := j
        sup := s.me.csr.plvl
        pc := s.me.csr.xpc
        epx := 0
        rst := s.patternAt s.cur s.me.csr.xpc s.me.epx
        wait := none
        prior := 0
        csr := { s.me.csr with
          ie := s.me.csr.pie
          exl := false } })) ∧
    (s.me.sup = false → MayTrap s → Traps .eret s 0x0C 0xB8000001) ∧
    (s.me.sup = true → MayTrap s → s.me.csr.xpc.toNat % 4 ≠ 0 → Traps .eret s 0x03 s.me.csr.xpc) ∧
    (s.me.sup = true → MayTrap s → s.me.csr.xpc.toNat % 4 = 0 → limit s.cur ≤ s.me.csr.xpc.toNat → Traps .eret s 0x06 s.me.csr.xpc) ∧
    (s.me.csr.exl = true → s.me.sup = false ∨ s.me.csr.xpc.toNat % 4 ≠ 0 ∨ limit s.cur ≤ s.me.csr.xpc.toNat →
      ∃ h, exec .eret s = .next { s.setCtx s.cur { s.me with
        status := .halted
        wait := none } with hub := h })

/-- R364, R365, R375 with R4 and R5, by CSR number: CSRR, and CSRS and CSRC with a = s0, write to s[d] the word that the
field maps of the CSR give, once the work that the access waits for is done; a CSR of access code SO raises PRIVILEGE at level U,
and an address that the unit does not have raises ILLEGAL-INSTRUCTION. A write of a CSR of access code RO is ignored: the
instruction gives the old word. At level U a write of one of access code SO or SRW raises PRIVILEGE. -/
def Obligations.CsrReads : Prop :=
  ∀ (s : State) (i : Instr) (d a : BitVec 5) (n : BitVec 12),
    (∀ w, csrWord s s.cur n.toNat = some w →
      (ReadsCsr i d n → (onlyS n.toNat → s.me.sup = true) → NothingAwaited s.me n.toNat → Writes i s d w (s.me.pc + 4)) ∧
      (ReadsCsr i d n → onlyS n.toNat → s.me.sup = false → MayTrap s → Traps i s 0x0C (wordVal i)) ∧
      (WritesCsr i d a n → readOnly n.toNat → s.me.chunk = none → Writes i s d w (s.me.pc + 4)) ∧
      (WritesCsr i d a n → onlyS n.toNat ∨ writesOnlyS n.toNat → s.me.sup = false → MayTrap s → Traps i s 0x0C (wordVal i))) ∧
    (csrWord s s.cur n.toNat = none → ReadsCsr i d n ∨ WritesCsr i d a n → MayTrap s → Traps i s 0x01 (wordVal i))

namespace Sys2Proof.Claims

open Sys2Proof.Machine

/-- R365 on the CSRs that hold plain words (POL0-3, CPYDIM, SLOTCFG, TVAL, XPC, XSCR), at level S outside a fork: CSRW,
CSRS and CSRC leave in the CSR the word that the rule computes from the old one and s[a], and write the old one to s[d]; CSRS
and CSRC with a = s0 only read. A CSRR after it gives the new word. -/
def PlainWrites : Prop :=
  ∀ (s : State) (i : Instr) (d a : BitVec 5) (n : BitVec 12) (v : Word) (g : Ctx → Word),
    s.me.sup = true → s.me.chunk = none → plainCsr n.toNat = some g → csrEffect (g s.me) (s.me.x a) d a n i = some v →
    ∃ c' k, exec i s = .next (s.setCtx s.cur c') ∧ Wrote { s.me with csr := k } c' d (g s.me) (s.me.pc + 4) ∧
      g c' = v ∧ (∀ e, Writes (.csrr e n) (s.setCtx s.cur c') e v (s.me.pc + 8)) ∧ (∀ m f, plainCsr m = some f → m ≠ n.toNat → f c' = f s.me) ∧
      k = { s.me.csr with
        pol := k.pol
        cpydim := k.cpydim
        slotcfg := k.slotcfg
        tval := k.tval
        xpc := k.xpc
        xscr := k.xscr }

/-- R365 on every CSR with fields that software writes: CSRW, CSRS and CSRC outside a fork leave in the CSR the word that the rule
computes field by field, write the old one to s[d], and leave every other CSR as it was. -/
def FieldWrites : Prop :=
  ∀ (s : State) (i : Instr) (d a : BitVec 5) (n : BitVec 12) (old v : Word), s.me.chunk = none → MayWriteCsr s n.toNat →
    csrWord s s.cur n.toNat = some old → Leaves s i d a n old v → LegalCsr s.cur n.toNat v → s.me.csr.ecls < 4 →
    (n.toNat = 0x0E3 → s.me.dom = true) →
    ∃ t, exec i s = .next t ∧
      (let c := t.ctx s.cur
       csrWord t s.cur n.toNat = some v ∧ (∀ m, m ≠ n.toNat → csrWord t s.cur m = csrWord s s.cur m) ∧
       Wrote { s.me with
         csr := c.csr
         vregs := c.vregs
         epx := c.epx
         trb := c.trb
         sqcnt := c.sqcnt
         slots := c.slots } c d old (s.me.pc + 4) ∧
       (∀ k : Fin 32, 0x040 + k.val ≠ n.toNat → c.vregs[k].data = s.me.vregs[k].data) ∧
       ∀ k : Fin 16, c.slots[k] = { s.me.slots[k] with pfl := c.slots[k].pfl }) ∧
      (∀ u, u ≠ s.cur → t.ctx u = s.ctx u) ∧
      t = { s with
        ctxs := t.ctxs
        hub := { s.hub with ulogth := t.hub.ulogth } }

end Sys2Proof.Claims

/-- CSRW, CSRS and CSRC leave what R365 computes, and give the old word. -/
def Obligations.CsrWrites : Prop := PlainWrites ∧ FieldWrites

namespace Sys2Proof.Claims

open Sys2Proof.Machine

/-! ## What may differ after an instruction, beside the issuing context -/

/-- Every context but the issuing one is as it was. -/
def OthersKept (s t : State) : Prop := ∀ u, u ≠ s.cur → t.ctx u = s.ctx u

/-- The same, but that a write may make a fresh evaluation of a sleeping GCSLP due (R249). -/
def OthersWoken (s t : State) : Prop := ∀ u, u ≠ s.cur → t.ctx u = { s.ctx u with woken := (t.ctx u).woken }

/-- No request of this module that is under way has bytes still to land in local memory, and no device store is held. -/
def NothingLands (s : State) : Prop := (∀ r ∈ s.net, r.landing = []) ∧ ∀ d, (s.die d).holds = []

/-- `exec i s` does not issue `i`: the context waits for `k`, and nothing else has changed (R29). -/
def Waits (i : Instr) (s : State) (k : WaitKind) : Prop :=
  exec i s = .next (s.setCtx s.cur { s.me with
    wait := some k
    blocked := if s.me.wait = some k then s.me.blocked else s.time })

/-- These contexts wait with an RCOMMIT that has arrived at the hub, in this order (R126). -/
def Committing (s : State) (us : List CtxId) : Prop :=
  s.commits = us ∧ ∀ u ∈ us, u ≠ s.cur ∧ (s.ctx u).status = .live ∧ (s.ctx u).wait = some .commit

/-- An instruction at level S outside a fork. -/
def Privileged (s : State) : Prop := s.me.sup = true ∧ s.me.chunk = none

/-- A translation that `TLBI a` leaves: of another ASID, or of a page that does not contain s[a]. `TLBI.all` leaves none. -/
def stays (s : State) (i : Instr) (a : BitVec 5) (e : TlbEntry) : Bool :=
  let va := (s.me.x a).toNat % 2 ^ 57
  decide (i = .tlbi a ∧ (e.asid.toNat ≠ s.me.csr.ptroot.toNat / 2 ^ 48 ∨ va < e.va ∨ e.va + e.size ≤ va))

/-! ## Memory -/

/-- The little-endian number in `n` bytes of memory from `pa` on (R2). -/
def littleEndian (m : List Host.Cell) (pa : Nat) : Nat → Nat
  | 0 => 0
  | n + 1 => littleEndian m pa n + (memGet m (pa + n)).toNat * 256 ^ n

/-- Destination or data register, base, offset, size and signedness of the scalar loads (R111). -/
def loadOf : Instr → Option (BitVec 5 × BitVec 5 × BitVec 13 × Nat × Bool)
  | .ldb d b o => some (d, b, o, 1, true)
  | .ldbu d b o => some (d, b, o, 1, false)
  | .ldh d b o => some (d, b, o, 2, true)
  | .ldhu d b o => some (d, b, o, 2, false)
  | .ldw d b o => some (d, b, o, 4, true)
  | .ldwu d b o => some (d, b, o, 4, false)
  | .ldd d b o => some (d, b, o, 8, false)
  | _ => none

/-- Data register, base, offset and size of the scalar stores (R110). -/
def storeOf : Instr → Option (BitVec 5 × BitVec 5 × BitVec 13 × Nat)
  | .stb d b o => some (d, b, o, 1)
  | .sth d b o => some (d, b, o, 2)
  | .stw d b o => some (d, b, o, 4)
  | .std d b o => some (d, b, o, 8)
  | _ => none

/-- The address of a scalar access (R108). -/
def address (s : State) (base : BitVec 5) (off : BitVec 13) : Word :=
  BitVec.ofInt 64 ((s.me.x base).toNat + Int.bmod off.toNat (2 ^ 13))

/-! ## Translation (R122 to R125) -/

/-- The index of an address in a table of a level (R123). -/
def tableIndex (va level : Nat) : Nat := if level < 4 then va / 2 ^ (48 - 9 * level) % 512 else va / 2 ^ 16 % 32

/-- Bytes of the page of a leaf at level 2, 3 or 4. -/
def leafBytes (level : Nat) : Nat := if level = 2 then 2 ^ 30 else if level = 3 then 2 ^ 21 else 2 ^ 16

/-- The walk of R123 through tables of these levels, from the table at `t`; none for a translation fault. -/
def pageWalk (m : List Host.Cell) (va : Nat) : List Nat → Nat → Option Mapping
  | [], _ => none
  | level :: rest, t =>
    let pte := littleEndian m (t + 8 * tableIndex va level) 8
    let pa := pte / 2 ^ 8 % 2 ^ 40 * 2 ^ 8
    if pte % 2 = 0 ∨ pte / 2 ^ 7 % 2 = 1 ∨ pte / 2 ^ 48 ≠ 0 then none
    else if pte / 2 % 2 = 1 then
      if level < 2 ∨ 1 < pte / 2 ^ 5 % 4 ∨ pa % leafBytes level ≠ 0 then none
      else some {
        pa := pa + va % leafBytes level
        r := decide (pte / 4 % 2 = 1)
        w := decide (pte / 8 % 2 = 1)
        u := decide (pte / 16 % 2 = 1)
        kind := pte / 2 ^ 5 % 4 }
    else if level < 3 ∧ pa % 4096 ≠ 0 then none
    else pageWalk m va rest pa

/-- Where range pair `k` begins, and what it covers (R125). -/
def rangeBase (s : State) (k : Nat) : Nat := (s.rngb.toList.getD k 0).toNat / 2 ^ 16 % 2 ^ 41 * 2 ^ 16
def rangeCovers (s : State) (va k : Nat) : Bool :=
  (s.rngb.toList.getD k 0).getLsbD 0 && decide (rangeBase s k ≤ va) &&
    decide (va < rangeBase s k + (s.rngl.toList.getD k 0).toNat % 2 ^ 32 * 2 ^ 16)

/-- The lowest-numbered pair that hits. -/
def rangeOf (s : State) (va : Nat) : Option Nat := (List.range 16).find? (rangeCovers s va)

/-- A TLB entry of the issuing context's ASID whose page contains the address (R124). -/
def covers (s : State) (va : Nat) (e : TlbEntry) : Bool :=
  decide (e.asid.toNat = s.me.csr.ptroot.toNat / 2 ^ 48) && decide (e.va ≤ va) && decide (va < e.va + e.size)

/-- The entries that the translation looks at: those of the unit's first level, then those of the slice of die
VA[23:21] XOR VA[26:24] XOR VA[29:27]. -/
def entriesSeen (s : State) (va : Nat) : List TlbEntry :=
  (s.core s.cur.die s.cur.unit.val).tlb ++ (s.die (mkFin8 (((va / 2 ^ 21 % 8) ^^^ (va / 2 ^ 24 % 8)) ^^^ (va / 2 ^ 27 % 8)))).slice

/-- The mapping of VA[56:0] for the issuing context: by an active range pair; else with PTROOT.EN = 0 the address itself,
below 2^48 and at level S only; else by an entry of a TLB; else by the walk from PTROOT.ROOT. -/
def translated (s : State) (va : Nat) : Option Mapping :=
  match rangeOf s va with
  | some k => some {
      pa := (s.rngl.toList.getD k 0).toNat / 2 ^ 32 * 2 ^ 16 + (va - rangeBase s k)
      r := (s.rngb.toList.getD k 0).getLsbD 1
      w := (s.rngb.toList.getD k 0).getLsbD 2
      u := (s.rngb.toList.getD k 0).getLsbD 3
      kind := 0 }
  | none =>
    if s.me.csr.ptroot.getLsbD 0 = false then
      if s.me.sup = true ∧ va < 2 ^ 48 then
        some ⟨va, true, true, true, if 0x130000000000 ≤ va ∧ va < 0x130100000000 then 1 else 0⟩
      else none
    else match (entriesSeen s va).find? (covers s va) with
      | some e => some ⟨e.pa + (va - e.va), e.r, e.w, e.u, e.kind⟩
      | none => pageWalk s.mem va [0, 1, 2, 3, 4] (s.me.csr.ptroot.toNat / 2 ^ 12 % 2 ^ 36 * 2 ^ 12)

/-- The mapping permits the access (order 3 of R109): R, W and U as R123 asks, device kind to scalar accesses alone (R108),
QSPM and EVU windows of the unit's own quad alone, EVU windows to EVLD alone (R106). That device control registers need a mapping of
device kind is the model's reading (log 63). -/
def Permitted (s : State) (k : AccKind) (scalar : Bool) (m : Mapping) : Prop :=
  (k ≠ .store → m.r = true) ∧ (k = .store ∨ k = .atomic ∨ k = .copyDst → m.w = true) ∧ (s.me.sup = false → m.u = true) ∧
  (m.kind ≠ 0 → scalar = true) ∧ (k = .evld ↔ ∃ d q o, s.place m.pa = .evu d q o) ∧
  (∀ d q o, s.place m.pa = .qspm d q o ∨ s.place m.pa = .evu d q o → d = s.cur.die.val ∧ q = s.cur.quad) ∧
  ∀ o, s.place m.pa = .device o → m.kind = 1

/-- The first 56 bits aside, the address is of canonical form and aligned to its size (orders 1 and 2 of R109). -/
def WellPlaced (va : Word) (n : Nat) : Prop := va.toNat % n = 0 ∧ (va.toNat / 2 ^ 56 = 0 ∨ va.toNat / 2 ^ 56 = 255)

/-- Nothing but entries of the TLBs differs. -/
def TlbsDiffer (s t : State) : Prop :=
  t = { s with
    cores := t.cores
    dies := t.dies } ∧
  (∀ d n, t.core d n = { s.core d n with tlb := (t.core d n).tlb }) ∧
  ∀ d, t.die d = { s.die d with slice := (t.die d).slice }

/-- `exec i s` takes a synchronous trap after a translation that leaves the state `s1`. -/
def TrapsFrom (s1 : State) (i : Instr) (s : State) (cause : BitVec 8) (val : Word) : Prop :=
  exec i s = .next (s1.setCtx s.cur (entered s.me false cause val s.me.pc 0))

/-- What a load leaves in its register. -/
def loaded (n : Nat) (signed : Bool) (v : Nat) : Word := if signed then BitVec.ofInt 64 (Int.bmod v (2 ^ (8 * n))) else BitVec.ofNat 64 v

/-- A physical address of DRAM or of a QSPM. -/
def IsMemory (s : State) (pa : Nat) : Prop := s.place pa = .dram ∨ ∃ d q o, s.place pa = .qspm d q o

/-- The translation of a scalar access has succeeded (R109): mapping, and the state with its translation installed. -/
def Mapped (s : State) (k : AccKind) (scalar : Bool) (ea : Word) (n : Nat) (m : Mapping) (s1 : State) : Prop :=
  s.check (s.viewer s.cur) k scalar ea n = (.ok m, s1)

/-- What the counters and the scope checker note of an access (R381, R383): PMCs, and lines read since the last acquire. -/
def Noted (c c' : Ctx) : Prop :=
  c' = { c with
    csr := { c.csr with pmc := c'.csr.pmc }
    seen := c'.seen }

/-- Memory, in its canonical form before, after a store of the low `n` bytes of `v` at `pa` and nowhere else (R2, R110). Every
step keeps that form (StepInvariant). -/
def Stored (m m' : List Host.Cell) (pa n : Nat) (v : Word) : Prop :=
  Memory.wf m = true → ∀ a, memGet m' a = if pa ≤ a ∧ a < pa + n then BitVec.ofNat 8 (v.toNat / 256 ^ (a - pa)) else memGet m a

/-- The whole state but what a store may touch: memory, its tags and poison, the undo log, the region directory, the scope
checker's lines, sectors to be compared by forks, the receive engines that watch a TAIL, and the contexts. -/
def StoreFrame (s t : State) : Prop :=
  t = { s with
    ctxs := t.ctxs
    quads := t.quads
    forks := t.forks
    dies := t.dies
    mem := t.mem
    tags := t.tags
    poison := t.poison
    undo := t.undo
    regions := t.regions
    lines := t.lines } ∧
  OthersWoken s t ∧
  (∀ d, t.die d = { s.die d with undoBuf := (t.die d).undoBuf }) ∧
  (∀ d q, t.quad d q = { s.quad d q with
    engines := (t.quad d q).engines
    werr := (t.quad d q).werr })

/-- A store or an atomic of the issuing context may issue: it is no chunk, its interval does not wait for a seal, fewer than
31 of its stores are outstanding (R117), and the undo log has room (R318). -/
def MayStore (s : State) (pa n : Nat) : Prop :=
  s.me.chunk = none ∧ s.me.sealing = false ∧ s.storeCount s.cur < 31 ∧ s.mayLog s.me.rin pa n = true

end Sys2Proof.Claims

/-- R365: a CSR write that breaks the CSR's own rule raises ILLEGAL-OPERAND and changes nothing: FRM above 4 (R68), VL above
1,024 (R132), a reserved tag or a mark above 16 (R133), an EPX index above 1,024 (R147), FKCFG.LIM outside 2 to 16 (R167), a format
that TFMT does not list (R207), PITCH or RLEN outside its limits (R209), FIRST + NOWN above 16 (R274), ECLS 3 (R350), THPRI.AGE
below 8 (R346), a TRAPV of a QCC past its ISTORE (R353), PE without VT (R376); a write of an SRW or SO register at level U raises
PRIVILEGE (R4). -/
def Obligations.CsrRefusals : Prop :=
  ∀ (s : State) (d a : BitVec 5) (n : BitVec 12), MayTrap s →
    (s.me.sup = true → s.cur.unit.val < 128 → s.me.vecs = [] →
      (n = 0x002 ∧ 4 < (s.me.x a).toNat % 8) ∨ (n = 0x010 ∧ 1024 < (s.me.x a).toNat % 2048) ∨
      (n = 0x092 ∧ ((s.me.x a).toNat % 32 < 2 ∨ 16 < (s.me.x a).toNat % 32)) ∨
      (n = 0x0F1 ∧ (s.me.x a).toNat % 4 = 3) ∨ (n = 0x0F2 ∧ (s.me.x a).toNat / 256 % 256 < 8) →
      Traps (.csrw d a n) s 0x02 0) ∧
    (s.me.sup = false → n = 0x0D0 ∨ n = 0x0F2 ∨ n = 0x0F3 ∨ n = 0x100 ∨ n = 0x103 ∨ n = 0x106 →
      Traps (.csrw d a n) s 0x0C (wordVal (.csrw d a n))) ∧
    ∀ i old v, WritesCsr i d a n → MayWriteCsr s n.toNat → csrWord s s.cur n.toNat = some old → Leaves s i d a n old v →
      ¬LegalCsr s.cur n.toNat v → Traps i s 0x02 0

/-- R126, R127: TLBI drops, in every first level and every slice, the entries of the current ASID whose page contains s[a],
TLBI.all every entry, once no request translated under such an entry is still to be performed; RCOMMIT makes the pending range
pairs active once it is the first to have arrived at the hub, else it waits behind those before it. Each then goes on at PC + 4
with everything else as it was. -/
def Obligations.TranslationMaintenance : Prop :=
  ∀ (s : State) (a : BitVec 5), Privileged s →
    (∀ i, i = .tlbi a ∨ i = .tlbiAll → NothingLands s → ∃ t : State, exec i s = .next (t.setCtx s.cur (gone s.me (s.me.pc + 4))) ∧
      t = { s with
        cores := t.cores
        dies := t.dies
        tgen := s.tgen + 1 } ∧
      (∀ d n, t.core d n = { s.core d n with tlb := (s.core d n).tlb.filter (stays s i a) }) ∧
      (∀ d, t.die d = { s.die d with slice := (s.die d).slice.filter (stays s i a) })) ∧
    (∀ i r e, i = .tlbi a ∨ i = .tlbiAll → r ∈ s.net → r.src.isSome = true → r.issued = true → r.landing ≠ [] → e ∈ r.via →
      stays s i a e = false → Waits i s .poll) ∧
    (s.me.wait ≠ some .commit → NothingLands s → Committing s [] → exec .rcommit s = .next ({ s with
      rngb := s.pendB
      rngl := s.pendL }.setCtx s.cur (gone s.me (s.me.pc + 4)))) ∧
    (∀ u us, s.me.wait ≠ some .commit → Committing s (u :: us) → exec .rcommit s = .next ({ s with
      commits := u :: us ++ [s.cur] }.setCtx s.cur { s.me with
        wait := some .commit
        blocked := s.time })) ∧
    (∀ us, s.me.status = .live → s.me.wait = some .commit → NothingLands s → Committing { s with commits := us } us →
      s.commits = s.cur :: us → exec .rcommit s = .next ({ s with
        rngb := s.pendB
        rngl := s.pendL
        commits := us }.setCtx s.cur (gone s.me (s.me.pc + 4)))) ∧
    (∀ u us, s.me.status = .live → s.me.wait = some .commit → Committing { s with commits := u :: us } (u :: us) →
      s.commits = u :: us ++ [s.cur] → exec .rcommit s = .next s)

/-- R382: TRCMK.start outside a capture sets CAP and, with CAPZ, clears PMC1 to PMC15; TRCMK.stop in a capture clears CAP.
Either appends a mark entry of the context's slot with its PC, s[a], TIME and the stop flag, and goes on at PC + 4; a start inside a
capture and a stop outside one raise ILLEGAL-OPERAND. -/
def Obligations.CaptureMarks : Prop :=
  ∀ (s : State) (a : BitVec 5) (stop : Bool), s.me.chunk = none →
    let i : Instr := if stop then .trcmkStop a else .trcmkStart a
    (s.me.csr.trcctl.getLsbD 4 = stop →
      ∃ t e, exec i s = .next t ∧
        t = { s with
          ctxs := t.ctxs
          cores := t.cores
          free := t.free } ∧
        OthersKept s t ∧
        t.me = { gone s.me (s.me.pc + 4) with csr := { s.me.csr with
          trcctl := if stop then s.me.csr.trcctl &&& 0x2F else s.me.csr.trcctl ||| 0x10
          pmc := if !stop && s.me.csr.trcctl.getLsbD 5 then Vector.replicate 15 0 else s.me.csr.pmc } } ∧
        e ∈ (t.core s.cur.die s.cur.unit.val).entries ∧
        field e 24 2 = s.cur.slot.val ∧ field e 26 2 = 2 ∧ field e 32 17 = s.me.pc.toNat % 2 ^ 17 ∧ field e 64 64 = (s.me.x a).toNat ∧
        field e 128 64 = s.time % 2 ^ 64 ∧ e.getLsbD 192 = stop) ∧
    (s.me.csr.trcctl.getLsbD 4 ≠ stop → MayTrap s → Traps i s 0x02 0)

namespace Sys2Proof.Claims

open Sys2Proof.Machine

/-- R109: the checks on the address of a scalar load or store come in their order. A misaligned address raises MISALIGNED; one
whose bits 63 to 56 are neither all 0 nor all 1 raises TRANSLATION-FAULT; at level S with PTROOT.EN = 0 and no active range an
address from 2^48 on raises TRANSLATION-FAULT, one of the hole of the map RANGE-FAULT; TVAL is the address. -/
def AddressOrder : Prop :=
  ∀ (s : State) (i : Instr) (d base : BitVec 5) (off : BitVec 13) (n : Nat),
    (∃ g, loadOf i = some (d, base, off, n, g)) ∨ (storeOf i = some (d, base, off, n) ∧ s.me.sealing = false) → MayTrap s →
    let ea := address s base off
    (ea.toNat % n ≠ 0 → Traps i s 0x03 ea) ∧
    (ea.toNat % n = 0 → ea.toNat / 2 ^ 56 ≠ 0 → ea.toNat / 2 ^ 56 ≠ 255 → Traps i s 0x04 ea) ∧
    (ea.toNat % n = 0 → (ea.toNat / 2 ^ 56 = 0 ∨ ea.toNat / 2 ^ 56 = 255) → (∀ k : Fin 16, s.rngb[k].getLsbD 0 = false) →
      s.me.csr.ptroot.getLsbD 0 = false → (s.me.sup = false ∨ 2 ^ 48 ≤ ea.toNat % 2 ^ 57) → Traps i s 0x04 ea) ∧
    (ea.toNat % n = 0 → ea.toNat < 2 ^ 48 → (∀ k : Fin 16, s.rngb[k].getLsbD 0 = false) → s.me.csr.ptroot.getLsbD 0 = false →
      s.me.sup = true → s.place ea.toNat = .hole → Traps i s 0x06 ea)

/-- R122 to R125 with R106 and R109, on an aligned address of canonical form, where no page-table entry stands in a poisoned
sector: the mapping that range pairs, TLBs and page-table entries give, with its physical address, permissions and kind, is the
access's where it permits it and its address lies in the map; else a scalar load or store raises TRANSLATION-FAULT,
PERMISSION-FAULT or RANGE-FAULT, in this order. While an RCOMMIT waits, an access through a range stalls. That a device control
register needs a mapping of device kind is the model's reading (log 63). -/
def Translations : Prop :=
  ∀ (s : State) (k : AccKind) (scalar : Bool) (va : Word) (n : Nat), WellPlaced va n → s.poison = [] →
    (s.committing = [] ∨ rangeOf s (va.toNat % 2 ^ 57) = none → ∃ s1, TlbsDiffer s s1 ∧
      (∀ m, translated s (va.toNat % 2 ^ 57) = some m → Permitted s k scalar m → s.place m.pa ≠ .hole →
        Mapped s k scalar va n m s1) ∧
      ∀ (i : Instr) (d base : BitVec 5) (off : BitVec 13), scalar = true → va = address s base off → MayTrap s →
        (k = .load ∧ ∃ g, loadOf i = some (d, base, off, n, g)) ∨
          (k = .store ∧ storeOf i = some (d, base, off, n) ∧ s.me.sealing = false) →
        (translated s (va.toNat % 2 ^ 57) = none → TrapsFrom s1 i s 0x04 va) ∧
        ∀ m, translated s (va.toNat % 2 ^ 57) = some m →
          (¬Permitted s k true m → TrapsFrom s1 i s 0x05 va) ∧
          (Permitted s k true m → s.place m.pa = .hole → TrapsFrom s1 i s 0x06 va)) ∧
    (∀ (i : Instr) (d base : BitVec 5) (off : BitVec 13), s.committing ≠ [] → (rangeOf s (va.toNat % 2 ^ 57)).isSome = true →
      va = address s base off →
      (∃ g, loadOf i = some (d, base, off, n, g)) ∨ (storeOf i = some (d, base, off, n) ∧ s.me.sealing = false) → Waits i s .poll)

/-- R110, R111: a scalar load from memory by a context outside a fork completes, of device kind once no device store of the
context is held (R108): the little-endian bytes at its physical address, sign- or zero-extended, go to s[d], and memory is as it was. -/
def MemoryLoads : Prop :=
  ∀ (s s1 : State) (i : Instr) (d base : BitVec 5) (off : BitVec 13) (n : Nat) (signed : Bool) (m : Mapping),
    loadOf i = some (d, base, off, n, signed) → s.me.chunk = none →
    Mapped s .load true (address s base off) n m s1 → IsMemory s m.pa → s.isPoisoned m.pa n = false →
    (m.kind = 1 → ∀ h ∈ (s.die s.cur.die).holds, h.who ≠ Holder.here s.cur) →
    ∃ t c, exec i s = .next t ∧
      t = { s1 with
        ctxs := t.ctxs
        regions := t.regions } ∧
      OthersKept s t ∧ Noted s.me c ∧
      Wrote c t.me d (loaded n signed (littleEndian s.mem m.pa n)) (s.me.pc + 4)

/-- Some device control registers of a compute die and of the hub by their offset, and what a load of each gives (R373, R386,
R389, R394). -/
def deviceWord (s : State) (off : Nat) : Option Word :=
  let d := mkFin8 (off / 0x100000)
  let o := off % 0x100000
  if off / 0x100000 < 8 ∧ o % 8 = 0 then
    if o < 0x40 then some ((s.die d).rcfg[o / 8 % 8]'(Nat.mod_lt _ (by decide)))
    else if 0x100 ≤ o ∧ o < 0x200 then some (BitVec.ofNat 64 (s.ring d ((o - 0x100) / 8)).codeid.toNat)
    else if 0x200 ≤ o ∧ o < 0x300 then some (BitVec.ofNat 64 (s.quad d ((o - 0x200) / 8)).codeid.toNat)
    else if o = 0x1000 then some (s.die d).swbase
    else if 0x4000 ≤ o ∧ o < 0x4500 then some (BitVec.ofNat 64 (s.core d ((o - 0x4000) / 8)).inc.toNat)
    else if 0x6000 ≤ o ∧ o < 0x6400 then
      some ((s.quad d ((o - 0x6000) / 32)).rwin[(o - 0x6000) / 8 % 4]'(Nat.mod_lt _ (by decide)))
    else if 0x63000 ≤ o ∧ o < 0x63100 then some (s.quad d ((o - 0x63000) / 8)).bist
    else none
  else if off = 0x830000 then some s.hub.domcfg
  else if off = 0x860000 then some s.hub.errhead else if off = 0x860008 then some s.hub.errack
  else if off = 0x860010 then some s.hub.errlost else if off = 0x870008 then some (BitVec.ofNat 64 s.hub.capw.toNat)
  else none

/-- R373, R108: LDD of a device control register gives the register and changes nothing else; any other size raises
PERMISSION-FAULT, and an offset of an unassigned block or above the die blocks RANGE-FAULT. While a device store of the context is
held, the load waits. -/
def RegisterLoads : Prop :=
  ∀ (s s1 : State) (i : Instr) (d base : BitVec 5) (off : BitVec 13) (n : Nat) (signed : Bool) (m : Mapping) (o : Nat),
    loadOf i = some (d, base, off, n, signed) → Mapped s .load true (address s base off) n m s1 → s.place m.pa = .device o →
    (∀ w, n = 8 → deviceWord s o = some w → s.me.chunk = none → (∀ h ∈ (s.die s.cur.die).holds, h.who ≠ Holder.here s.cur) →
      ∃ c', exec i s = .next (s1.setCtx s.cur c') ∧ Wrote s.me c' d w (s.me.pc + 4)) ∧
    (∀ w h, n = 8 → deviceWord s o = some w → s.me.chunk = none → h ∈ (s.die s.cur.die).holds → h.who = Holder.here s.cur →
      exec i s = .next (s1.setCtx s.cur { s.me with
        wait := some .poll
        blocked := if s.me.wait = some .poll then s.me.blocked else s.time })) ∧
    (o < 0x1000000 → n ≠ 8 → MayTrap s → TrapsFrom s1 i s 0x05 (address s base off)) ∧
    (0x1000000 ≤ o → MayTrap s → TrapsFrom s1 i s 0x06 (address s base off)) ∧
    (n = 8 → 9 ≤ o / 0x100000 → o / 0x100000 < 12 → MayTrap s → TrapsFrom s1 i s 0x06 (address s base off))

/-- R110: a scalar store to normal memory by a context outside a fork completes: the low bytes of s[d] stand in memory at the
physical address, every other byte of memory is as it was, and the store is outstanding until it is acknowledged. -/
def MemoryStores : Prop :=
  ∀ (s s1 : State) (i : Instr) (d base : BitVec 5) (off : BitVec 13) (n : Nat) (m : Mapping),
    storeOf i = some (d, base, off, n) →
    Mapped s .store true (address s base off) n m s1 → IsMemory s m.pa → m.kind = 0 ∨ s.me.dom = false → MayStore s1 m.pa n →
    ∃ t, exec i s = .next t ∧ StoreFrame s1 t ∧ Stored s.mem t.mem m.pa n (s.me.x d) ∧
      t.me = { gone s.me (s.me.pc + 4) with
        accs := s.me.accs ++ [⟨true, 0⟩]
        woken := t.me.woken
        relFence := none
        csr := { s.me.csr with pmc := t.me.csr.pmc } }

/-- R314 to R317: a store of a domain context to DRAM of no external window, sealing nothing, sets the tag of its sector to RIN. Of a
sector whose tag differs and of which the undo log holds no record of the interval, the bytes and the tag before go to the undo
writer of the sector's stack first; it is the only record that the interval makes of the sector. While the writer's buffer is full the
store waits. No other tag and no other record changes. -/
def TaggedStores : Prop :=
  ∀ (s s1 : State) (i : Instr) (d base : BitVec 5) (off : BitVec 13) (n : Nat) (m : Mapping) (x : Domain) (k : Fin 8),
    storeOf i = some (d, base, off, n) → Mapped s .store true (address s base off) n m s1 → s.place m.pa = .dram → m.kind = 0 →
    s.me.chunk = none → s.me.sealing = false → s.storeCount s.cur < 31 → s.domain = some x → s.me.rin ≠ 0 →
    let sec := m.pa / 64
    s.isExternal (64 * sec) = false → k.val = ((64 * sec / 2 ^ 8 % 8) ^^^ (64 * sec / 2 ^ 21 % 8)) ^^^ (64 * sec / 2 ^ 30 % 8) →
    let old := Table.getD s.tags sec 0
    let buf := (s.die k).undoBuf
    let logged : Prop := ∃ r ∈ buf ++ s.undo[k], r.pa = 64 * sec ∧ r.k = s.me.rin
    let stores (t : State) : Prop := exec i s = .next t ∧ StoreFrame s1 t ∧ Stored s.mem t.mem m.pa n (s.me.x d) ∧
      t.undo = s.undo ∧ ∀ q, Table.getD t.tags q 0 = if q = sec then s.me.rin else Table.getD s.tags q 0
    (old = s.me.rin ∨ logged → ∃ t, stores t ∧ ∀ e, t.die e = s1.die e) ∧
    (old ≠ s.me.rin → ¬logged → buf.length < 512 → 80 * (s.undo[k].length + buf.length + 1) ≤ x.usize * 2 ^ 30 →
      ∃ t, stores t ∧ ∀ e, t.die e = if e = k then { s1.die k with
        undoBuf := buf ++ [⟨64 * sec, BitVec.ofNat 512 (littleEndian s.mem (64 * sec) 64), old, s.me.rin⟩] } else s1.die e) ∧
    (old ≠ s.me.rin → ¬logged → 512 ≤ buf.length ∨ x.usize * 2 ^ 30 < 80 * (s.undo[k].length + buf.length + 1) → exec i s = .next (s1.setCtx s.cur { s.me with
      wait := some .poll
      blocked := if s.me.wait = some .poll then s.me.blocked else s.time }))

/-- R314, R316, R317: a store of a domain context to QSPM, sealing nothing, waits until the record that it needs is in the undo region of the
stack beside the quad's die, and offers it to that die's writer; then it sets the tag. -/
def TaggedBanks : Prop :=
  ∀ (s s1 : State) (i : Instr) (d base : BitVec 5) (off : BitVec 13) (n : Nat) (m : Mapping) (x : Domain) (k : Fin 8) (q : Nat) (o : Nat),
    storeOf i = some (d, base, off, n) → Mapped s .store true (address s base off) n m s1 → s.place m.pa = .qspm k q o → m.kind = 0 →
    s.me.chunk = none → s.me.sealing = false → s.storeCount s.cur < 31 → s.domain = some x → s.me.rin ≠ 0 →
    let sec := m.pa / 64
    s.isExternal (64 * sec) = false →
    let old := Table.getD s.tags sec 0
    let buf := (s.die k).undoBuf
    let holds (l : List UndoRec) : Prop := ∃ r ∈ l, r.pa = 64 * sec ∧ r.k = s.me.rin
    let waiting (t : State) : State := t.setCtx s.cur { s.me with
      wait := some .poll
      blocked := if s.me.wait = some .poll then s.me.blocked else s.time }
    (old = s.me.rin ∨ holds s.undo[k] → ∃ t, exec i s = .next t ∧ StoreFrame s1 t ∧
      Stored s.mem t.mem m.pa n (s.me.x d) ∧ t.undo = s.undo ∧ (∀ e, t.die e = s1.die e) ∧
      ∀ p, Table.getD t.tags p 0 = if p = sec then s.me.rin else Table.getD s.tags p 0) ∧
    (old ≠ s.me.rin → ¬holds s.undo[k] → holds buf ∨ 512 ≤ buf.length → exec i s = .next (waiting s1)) ∧
    (old ≠ s.me.rin → ¬holds s.undo[k] → ¬holds buf → buf.length < 512 → 80 * (s.undo[k].length + buf.length + 1) ≤ x.usize * 2 ^ 30 →
      exec i s = .next (waiting (s1.setDie k { s1.die k with
        undoBuf := buf ++ [⟨64 * sec, BitVec.ofNat 512 (littleEndian s.mem (64 * sec) 64), old, s.me.rin⟩] })))

/-- The state after a store of `v` to the register at an offset, by a source that it does not refuse (R373, R256): CODEID and
SWBASE take the value's bits, any store to INC advances it. -/
def registerStored (s : State) (off : Nat) (v : Word) : Option State :=
  let d := mkFin8 (off / 0x100000)
  let o := off % 0x100000
  if off / 0x100000 < 8 ∧ o % 8 = 0 then
    if 0x100 ≤ o ∧ o < 0x200 then
      some (s.setRing d ((o - 0x100) / 8) { s.ring d ((o - 0x100) / 8) with codeid := BitVec.ofNat 32 v.toNat })
    else if 0x200 ≤ o ∧ o < 0x300 then
      some (s.setQuad d ((o - 0x200) / 8) { s.quad d ((o - 0x200) / 8) with codeid := BitVec.ofNat 32 v.toNat })
    else if o = 0x1000 then some (s.setDie d { s.die d with swbase := BitVec.ofNat 64 (v.toNat / 2 ^ 20 % 2 ^ 28 * 2 ^ 20) })
    else if 0x4000 ≤ o ∧ o < 0x4500 then
      some (s.setCore d ((o - 0x4000) / 8) { s.core d ((o - 0x4000) / 8) with inc := (s.core d ((o - 0x4000) / 8)).inc + 1 })
    else none
  else none

/-- R373, R418, R325: STD to a device control register by a context outside the domain changes the register; an RCFG MODE of 3
is refused with ILLEGAL-OPERAND, TVAL the address; any other size raises PERMISSION-FAULT. A store of device kind by a context of
the domain, to a register that accepts it or to memory, goes into the egress hold of its die with its RIN, address, size and value,
and its target sees nothing of it. -/
def DeviceStores : Prop :=
  ∀ (s s1 : State) (i : Instr) (d base : BitVec 5) (off : BitVec 13) (n : Nat) (m : Mapping),
    storeOf i = some (d, base, off, n) → Mapped s .store true (address s base off) n m s1 → s.me.chunk = none → s.me.sealing = false →
    (∀ o, s.place m.pa = .device o → o < 0x1000000 →
      (n ≠ 8 → MayTrap s → TrapsFrom s1 i s 0x05 (address s base off)) ∧
      (∀ t, n = 8 → registerStored s1 o (s.me.x d) = some t → s.me.dom = false → s.storeCount s.cur < 31 →
        exec i s = .next (t.setCtx s.cur (gone s.me (s.me.pc + 4)))) ∧
      (n = 8 → o / 0x100000 < 8 → o % 0x100000 < 0x40 → o % 8 = 0 → (s.me.x d).toNat % 4 = 3 → MayTrap s →
        TrapsFrom s1 i s 0x02 (address s base off))) ∧
    (s.me.dom = true → 1 ≤ freeHold s s.cur.die → s.storeCount s.cur < 31 →
      (∃ o t, s.place m.pa = .device o ∧ n = 8 ∧ registerStored s1 o (s.me.x d) = some t) ∨ (IsMemory s m.pa ∧ m.kind = 1) →
      ∃ h : HeldStore, h.src = s.cur ∧ h.who = Holder.here s.cur ∧ h.rin = s.me.rin ∧ h.pa = m.pa ∧ h.size = n ∧ h.val = s.me.x d ∧ h.seq = s.seq ∧
        exec i s = .next ({ s1.setDie s.cur.die { s1.die s.cur.die with holds := (s1.die s.cur.die).holds ++ [h] } with
          seq := s.seq + 1 }.setCtx s.cur (gone s.me (s.me.pc + 4))))

end Sys2Proof.Claims

/-- The checks on an address, and what translates it; the clause about device control registers is the model's reading (log 63). -/
def Obligations.AccessChecks : Prop := AddressOrder ∧ Translations

/-- Scalar loads from memory and from device control registers. -/
def Obligations.ScalarLoads : Prop := MemoryLoads ∧ RegisterLoads

/-- Scalar stores to memory and to device control registers, and what a store of a domain context leaves in the tags and the undo log. -/
def Obligations.ScalarStores : Prop := MemoryStores ∧ TaggedStores ∧ TaggedBanks ∧ DeviceStores

namespace Sys2Proof.Claims

open Sys2Proof.Machine

/-! ## Atomics -/

/-- A scalar atomic as its operands make it: destination, address register, bytes, order, whether the old value is
sign-extended, and from the old value what is written, if anything, and the flags (R232, R233, R235). -/
def atomicOf (c : Ctx) : Instr → Option (BitVec 5 × BitVec 5 × Nat × BitVec 2 × Bool × (Nat → Option Nat × Flags))
  | .amoadd d a b _ o w => some (d, a, size w, o, true, fun old => (some ((old + low b w) % 2 ^ (8 * size w)), 0))
  | .amoand d a b _ o w => some (d, a, size w, o, true, fun old => (some (old &&& low b w), 0))
  | .amoor d a b _ o w => some (d, a, size w, o, true, fun old => (some (old ||| low b w), 0))
  | .amoxor d a b _ o w => some (d, a, size w, o, true, fun old => (some (old ^^^ low b w), 0))
  | .amomin d a b _ o w => some (d, a, size w, o, true, fun old => (some (if int w (low b w) < int w old then low b w else old), 0))
  | .amomax d a b _ o w => some (d, a, size w, o, true, fun old => (some (if int w old < int w (low b w) then low b w else old), 0))
  | .amominu d a b _ o w => some (d, a, size w, o, true, fun old => (some (min old (low b w)), 0))
  | .amomaxu d a b _ o w => some (d, a, size w, o, true, fun old => (some (max old (low b w)), 0))
  | .amoswap d a b _ o w => some (d, a, size w, o, true, fun _ => (some (low b w), 0))
  | .amocas d a b _ o w => some (d, a, size w, o, true, fun old => (if old = low d w then some (low b w) else none, 0))
  | .famoFadd d a b _ o => some (d, a, 4, o, false, fun old => wrote (fp32.add (Rounding.ofFrm c.csr.frm) (fp32.read old) (fp32.read (low b 0))))
  | .famoFmin d a b _ o => some (d, a, 4, o, false, fun old => wrote (fp32.minMax false (fp32.read old) (fp32.read (low b 0))))
  | .famoFmax d a b _ o => some (d, a, 4, o, false, fun old => wrote (fp32.minMax true (fp32.read old) (fp32.read (low b 0))))
  | _ => none
where
  size (w : BitVec 1) : Nat := 4 + 4 * w.toNat
  low (b : BitVec 5) (w : BitVec 1) : Nat := (c.x b).toNat % 2 ^ (8 * size w)
  int (w : BitVec 1) (x : Nat) : Int := Int.bmod x (2 ^ (8 * size w))
  wrote (r : Nat × Flags) : Option Nat × Flags := (some r.1, r.2)

/-! ## Scopes, and what a release waits for -/

/-- The quad of a unit number (R16). -/
def quadOf (unit : Nat) : Nat := if unit < 128 then unit / 4 else unit - 128

/-- The narrowest scope that encloses two endpoints, by the codes of R14 (R284). -/
def narrowest (s : State) (a b : BitVec 32) : Nat :=
  let ua := a.toNat % 2 ^ 10
  let ub := b.toNat % 2 ^ 10
  let d := mkFin8 (a.toNat / 2 ^ 10 % 16)
  if a = 0xFFFFC000 ∨ b = 0xFFFFC000 ∨ a.toNat / 2 ^ 24 ≠ b.toNat / 2 ^ 24 then 7
  else if a.toNat / 2 ^ 14 ≠ b.toNat / 2 ^ 14 then 6
  else if a.toNat / 2 ^ 10 ≠ b.toNat / 2 ^ 10 then 5
  else if a = b then 1
  else if 160 ≤ ua ∨ 160 ≤ ub then 4
  else if quadOf ua = quadOf ub then 2
  else if a.toNat / 2 ^ 14 = s.pkg.toNat ∧ a.toNat / 2 ^ 10 % 16 < 8 ∧ s.ringFirst d (quadOf ua) = s.ringFirst d (quadOf ub) then 3
  else 4

/-- The endpoint identifier of a unit (R16). -/
def endpointOf (s : State) (u : CtxId) : BitVec 32 := BitVec.ofNat 32 (s.pkg.toNat * 2 ^ 14 + u.die.val * 2 ^ 10 + u.unit.val)

/-- Every earlier access of a context is performed, and every earlier request is acknowledged whose target lies within scope
`sc`, at .pk and wider every one; a request in the egress hold counts as acknowledged (R294, R325). -/
def Performed (s : State) (u : CtxId) (sc : Nat) : Prop :=
  (s.ctx u).accs = [] ∧ (s.ctx u).vecs = [] ∧
  ∀ r ∈ s.net, r.src = some (.here u) → (∀ n, r.stage ≠ .timed n) →
    (∃ n, r.stage = .held n) ∨ (sc < 5 ∧ sc < narrowest s (endpointOf s u) r.target)

/-- Outstanding requests of a context, of the load class (GET, RAMO) or of the store class (R278). -/
def requestsOut (s : State) (u : CtxId) (load : Bool) : Nat :=
  (s.net.filter fun r => decide (r.src = some (.here u)) && r.issued && (load == (match r.kind with
    | .get _ _ _ => true
    | .ramo _ _ _ _ _ _ => true
    | _ => false))).length

/-- What WAITC counts: outstanding loads, and outstanding stores (R117, R278). -/
def loadsOut (s : State) (u : CtxId) : Nat := ((s.ctx u).vecs.filter (·.isLoad)).length + requestsOut s u true
def storesOut (s : State) (u : CtxId) : Nat :=
  ((s.ctx u).accs.filter (·.isStore)).length + ((s.ctx u).vecs.filter (·.isStore)).length + requestsOut s u false +
    ((s.die u.die).holds.filter fun h => decide (h.who = Holder.here u)).length

/-! ## Copies and waits -/

/-- The tag has no outstanding copy, and the engine has an entry free: 16 to a unit, 64 to a quad (R117). -/
def EngineFree (s : State) (tag : BitVec 6) : Prop :=
  let copies (unit : Nat) : Nat := ((List.range 4).map fun k => (s.ctx (mkCtxId s.cur.die.val unit k)).copies.length).sum
  (∀ c ∈ s.me.copies, c.tag ≠ tag) ∧ copies s.cur.unit.val < 16 ∧
    ((List.range 4).map fun i => copies (4 * s.cur.quad + i)).sum + copies (128 + s.cur.quad) < 64

/-- The context of a thread at level S with paging off, and no range active: virtual addresses are physical (R122). -/
def Flat (s : State) (sup : Bool) (ptroot : Word) : Prop :=
  sup = true ∧ ptroot.getLsbD 0 = false ∧ ∀ k : Fin 16, s.rngb[k].getLsbD 0 = false

/-- No error is covered by a wait: no copy, tile or message fault is pending. -/
def NoFault (c : Ctx) : Prop := c.copyFault = none ∧ c.tile.fault = none ∧ c.msgFault = none

/-! ## Barrier networks and event units -/

/-- The network instance of a scope that holds the issuing unit (R245, R246). -/
def networkOf (s : State) (sc : Nat) : BarNet :=
  if sc = 2 then .quad s.cur.die (mkFin32 s.cur.quad) else if sc = 3 then .ring s.cur.die (mkFin32 (s.ringFirst s.cur.die s.cur.quad))
  else if sc = 4 then .die s.cur.die else if sc = 5 then .package else .pod

/-- BARARR and BARWT name this domain by s[a]. -/
def Selects (s : State) (a : BitVec 5) (sc : BitVec 3) (b : BarKey) : Prop :=
  (s.me.x a).toNat < 16 ∧ b.net = networkOf s sc.toNat ∧ b.idx.val = (s.me.x a).toNat

/-- The issuing unit is a member: by its unit number, in the package network by 160 x die + unit, in the pod network by its
package's position in the pod (R245, R373). -/
def IsMember (s : State) (b : BarKey) : Prop :=
  (s.bar b).members.getLsbD (match b.net with
    | .package => s.cur.die.val * 160 + s.cur.unit.val
    | .pod => s.pkg.toNat % 2 ^ 10
    | _ => s.cur.unit.val) = true

/-- The domain that BARARR and BARWT name is enabled and has the issuing unit as a member (R246). -/
def Member (s : State) (a : BitVec 5) (sc : BitVec 3) (b : BarKey) : Prop :=
  Selects s a sc b ∧ (s.bar b).en = true ∧ IsMember s b

/-- The window offset of an operation (R239). -/
def evuOffset : EvuOp → Nat
  | .wait n => 64 * n.val
  | .take n => 64 * n.val + 8
  | .drain n => 64 * n.val + 16
  | .peek n => 64 * n.val + 24
  | .clear n => 64 * n.val + 32
  | .arrive b => 0x1000 + 0x200 * b.val
  | .barWait b => 0x1000 + 0x200 * b.val + 8
  | .poll b => 0x1000 + 0x200 * b.val + 16
  | .set b t => 0x1000 + 0x200 * b.val + 0x100 + 8 * t
  | .lock m => 0x2000 + 64 * m.val
  | .try1 m => 0x2000 + 64 * m.val + 8
  | .unlock m => 0x2000 + 64 * m.val + 16
  | .owner m => 0x2000 + 64 * m.val + 24

/-- The event by which a request for an operation reaches the event unit. -/
def evuEvent (u : CtxId) : EvuOp → Instr
  | .wait _ => .evuWait u
  | .take _ => .evuTake u
  | .drain _ => .evuDrain u
  | .peek _ => .evuPeek u
  | .clear _ => .evuClear u
  | .arrive _ => .evuArrive u
  | .barWait _ => .evuBarrierWait u
  | .poll _ => .evuPoll u
  | .set _ _ => .evuSet u
  | .lock _ => .evuLock u
  | .try1 _ => .evuTry u
  | .unlock _ => .evuUnlock u
  | .owner _ => .evuOwner u

/-- What an operation returns and what it makes of the lines, barriers and mutexes, for the context of index `j` whose
mutexes are held under `h` (R240, R242, R243); none while it has to wait. -/
def evuEffect (e : Evu) (j : Fin 18) (h : Nat × Nat) : EvuOp → Option (Nat × Evu)
  | .wait n => if e.lines[n] = 0 then none else some (e.lines[n].toNat, e)
  | .take n => if e.lines[n] = 0 then none else
      some (e.lines[n].toNat, { e with lines := e.lines.set n.val (BitVec.ofNat 16 (e.lines[n].toNat - 1)) n.isLt })
  | .drain n => if e.lines[n] = 0 then none else some (e.lines[n].toNat, { e with lines := e.lines.set n.val 0 n.isLt })
  | .peek n => some (e.lines[n].toNat, e)
  | .clear n => some (e.lines[n].toNat, { e with lines := e.lines.set n.val 0 n.isLt })
  | .arrive b =>
    let x := e.bars[b]
    let full := decide (x.arr + 1 = x.tgt)
    some (x.gen.toNat, { e with bars := e.bars.set b.val { x with
      arr := if full then 0 else x.arr + 1
      gen := if full then BitVec.ofNat 32 (x.gen.toNat + 1) else x.gen
      myg := x.myg.set j.val x.gen j.isLt } b.isLt })
  | .barWait b => if e.bars[b].gen = e.bars[b].myg[j] then none else some (e.bars[b].gen.toNat, e)
  | .poll b => some (e.bars[b].gen.toNat + e.bars[b].arr % 2 ^ 16 * 2 ^ 32 + e.bars[b].tgt % 2 ^ 16 * 2 ^ 48, e)
  | .set b t =>
    if e.bars[b].arr = 0 then some (e.bars[b].gen.toNat, { e with bars := e.bars.set b.val { e.bars[b] with tgt := t } b.isLt })
    else some (2 ^ 64 - 1, e)
  | .lock m => if e.mutexes[m].isSome then none else some (1, { e with mutexes := e.mutexes.set m.val (some h) m.isLt })
  | .try1 m => if e.mutexes[m].isSome then some (0, e) else some (1, { e with mutexes := e.mutexes.set m.val (some h) m.isLt })
  | .unlock m => if e.mutexes[m] = some h then some (1, { e with mutexes := e.mutexes.set m.val none m.isLt }) else some (0, e)
  | .owner m => match e.mutexes[m] with
    | none => some (0, e)
    | some (i, k) => some (2 ^ 63 + i % 8 * 2 ^ 8 + k % 4, e)

/-- Which threads hold mutexes after an operation that returned `v`: a thread keeps a mutex wherever it moves (R243; log 31). -/
def ownersAfter (s : State) (op : EvuOp) (v : Nat) : Table Holder :=
  let key (m : Fin 8) : Nat := 8 * (32 * s.cur.die.val + s.cur.quad) + m.val
  match op with
  | .lock m => Table.put s.owners (key m) (.here s.cur)
  | .try1 m => if v = 1 then Table.put s.owners (key m) (.here s.cur) else s.owners
  | .unlock m => if v = 1 then Table.drop s.owners (key m) else s.owners
  | _ => s.owners

end Sys2Proof.Claims

/-- R232 to R235: a scalar atomic of normal memory by a context outside a fork, released if it has to be, completes: the old
value goes to s[d] (sign-extended, a FAMO's zero-extended), the new one stands at its address and every other byte of memory
is as it was (a failed AMOCAS writes nothing), and its flags wait for its completion. -/
def Obligations.ScalarAtomics : Prop :=
  ∀ (s s1 : State) (i : Instr) (d a : BitVec 5) (n : Nat) (o : BitVec 2) (signed : Bool) (f : Nat → Option Nat × Flags) (m : Mapping),
    atomicOf s.me i = some (d, a, n, o, signed, f) →
    Mapped s .atomic false (s.me.x a) n m s1 → IsMemory s m.pa → s.isPoisoned m.pa n = false →
    s.me.chunk = none → s.me.sealing = false → s1.mayLog s.me.rin m.pa n = true →
    (2 ≤ o.toNat → s.me.accs = [] ∧ s.me.vecs = []) →
    ∃ t c, exec i s = .next t ∧ StoreFrame s1 t ∧
      (∀ v, (f (littleEndian s.mem m.pa n)).1 = some v → Stored s.mem t.mem m.pa n (BitVec.ofNat 64 v)) ∧
      ((f (littleEndian s.mem m.pa n)).1 = none → t.mem = s.mem) ∧
      c = { s.me with
        accs := s.me.accs ++ [⟨false, (f (littleEndian s.mem m.pa n)).2⟩]
        woken := c.woken
        relFence := c.relFence
        seen := c.seen
        csr := { s.me.csr with
          pmc := c.csr.pmc
          scopechk := c.csr.scopechk } } ∧
      Wrote c t.me d (loaded n signed (littleEndian s.mem m.pa n)) (s.me.pc + 4)

/-- R117: CPY and CPY2 of a context outside a fork whose interval does not wait for a seal, with a free tag and a free engine
entry, are issued: the tag is not ready, one more copy is outstanding with the shape of its operands or of CPYDIM, the
energy is debited, and the context goes on; an empty one completes at issue and its tag is ready. Overlapping footprints
and rows that overlap raise ILLEGAL-OPERAND. -/
def Obligations.CopiesIssue : Prop :=
  ∀ (s : State) (i : Instr) (tag : BitVec 6) (a b c : BitVec 5) (rows len sp dp : Nat),
    let dst := (s.me.x a).toNat
    let src := (s.me.x b).toNat
    s.me.chunk = none → s.me.sealing = false →
    (i = .cpy tag a b c ∧ rows = 1 ∧ len = (s.me.x c).toNat ∧ sp = 0 ∧ dp = 0) ∨
    (i = .cpy2 tag a b ∧ rows = s.me.csr.cpydim.toNat % 2 ^ 16 ∧ len = s.me.csr.cpydim.toNat / 2 ^ 16 % 2 ^ 20 ∧
      sp = 64 * (s.me.csr.cpydim.toNat / 2 ^ 36 % 2 ^ 14) ∧ dp = 64 * (s.me.csr.cpydim.toNat / 2 ^ 50)) →
    let dspan := (rows - 1) * dp + len
    let sspan := (rows - 1) * sp + len
    let overlap := rows ≠ 0 ∧ len ≠ 0 ∧ dst < src + sspan ∧ src < dst + dspan
    (len ≤ 2 ^ 32 → ¬overlap → (1 < rows → len ≤ dp) → EngineFree s tag → rows ≠ 0 → len ≠ 0 →
      ∃ t, exec i s = .next t ∧ t = (s.debit s.cur (4 * (rows * ((len + 63) / 64)))).setCtx s.cur { gone s.me (s.me.pc + 4) with
        trb := fromBits fun k => s.me.trb.getLsbD k && decide (k ≠ tag.toNat)
        csr := { s.me.csr with pmc := counted s.me 12 (4 * (rows * ((len + 63) / 64))) }
        copies := s.me.copies ++ [{
          tag := tag
          dst := s.me.x a
          src := s.me.x b
          rows := rows
          rowlen := len
          spitch := sp
          dpitch := dp
          ptroot := s.me.csr.ptroot
          sup := s.me.sup
          rin := s.me.rin
          row := 0
          off := 0 }] }) ∧
    ((1 < rows → len ≤ dp) → EngineFree s tag → rows = 0 ∨ len = 0 →
      exec i s = .next (s.setCtx s.cur { gone s.me (s.me.pc + 4) with
        trb := fromBits fun k => s.me.trb.getLsbD k || decide (k = tag.toNat) })) ∧
    (2 ^ 32 < len ∨ overlap ∨ (1 < rows ∧ dp < len) → MayTrap s → Traps i s 0x02 0)

/-- R117: the engine ends a fresh copy of a context outside a rollback domain, between two ranges of DRAM that do not overlap
and hold no poison, with the source's bytes in the destination, row by row; every other byte of memory is as it was, its
tag is ready and one copy fewer is outstanding. That one event moves every byte is the model's
choice (log 25). -/
def Obligations.CopiesComplete : Prop :=
  ∀ (s : State) (u : CtxId) (n : Nat) (c : Copy),
    (s.ctx u).copies[n]? = some c → c.row = 0 → c.off = 0 → c.rin = 0 → Flat s c.sup c.ptroot → s.poison = [] →
    0 < c.rows → 0 < c.rowlen → (1 < c.rows → c.rowlen ≤ c.dpitch) → Memory.wf s.mem = true →
    let dst := c.dst.toNat
    let src := c.src.toNat
    let dspan := (c.rows - 1) * c.dpitch + c.rowlen
    let sspan := (c.rows - 1) * c.spitch + c.rowlen
    dst + dspan ≤ s.dramEnd → src + sspan ≤ s.dramEnd → dst + dspan ≤ src ∨ src + sspan ≤ dst →
    ∃ t, exec (.copyComplete u n) s = .next t ∧
      t = { s with
        ctxs := t.ctxs
        quads := t.quads
        forks := t.forks
        mem := t.mem
        regions := t.regions } ∧
      (∀ r k, r < c.rows → k < c.rowlen → memGet t.mem (dst + r * c.dpitch + k) = memGet s.mem (src + r * c.spitch + k)) ∧
      (∀ x, (∀ r k, r < c.rows → k < c.rowlen → x ≠ dst + r * c.dpitch + k) → memGet t.mem x = memGet s.mem x) ∧
      (∀ v, v ≠ u → t.ctx v = { s.ctx v with woken := (t.ctx v).woken }) ∧
      t.ctx u = { s.ctx u with
        woken := (t.ctx u).woken
        copies := (s.ctx u).copies.take n ++ (s.ctx u).copies.drop (n + 1)
        trb := fromBits fun k => (s.ctx u).trb.getLsbD k || decide (k = c.tag.toNat) }

/-- R120: with no pending fault that they cover, WTANY goes on when some tag of its mask is ready, WTALL when all are, WAITC
when no count exceeds its limit; else each waits. FFRDY writes the lowest ready tag of its mask, or 64, and TRBCLR clears
ready tags. None changes anything else. A pending copy fault whose tag the mask includes is raised at the issue of WTANY, WTALL
and FFRDY, and a pending tile fault at the issue of WAITC, before any wait, with its address in TVAL, and is then no longer
pending (R118, R213, R358). -/
def Obligations.CopyWaits : Prop :=
  ∀ (s : State) (a d nl ns nc nt : BitVec 5),
    let c := s.me
    c.chunk = none → (exec (.trbclr a) s = .next (s.setCtx s.cur { gone c (c.pc + 4) with
      trb := fromBits fun k => c.trb.getLsbD k && !(c.x a).getLsbD k })) ∧ (NoFault c → c.wait = none →
    let any := ∃ k < 64, c.trb.getLsbD k = true ∧ (c.x a).getLsbD k = true
    let all := ∀ k < 64, (c.x a).getLsbD k = true → c.trb.getLsbD k = true
    let waiting (copy tile msg : Bool) := s.setCtx s.cur { c with
      wait := some (.covers copy tile msg)
      blocked := s.time }
    let within := loadsOut s s.cur ≤ nl.toNat ∧ storesOut s s.cur ≤ ns.toNat ∧ c.copies.length ≤ nc.toNat ∧ c.tile.queue.length ≤ nt.toNat
    (any → exec (.wtany a) s = .next (s.setCtx s.cur (gone c (c.pc + 4)))) ∧
    (c.x a ≠ 0 → ¬any → exec (.wtany a) s = .next (waiting true false false)) ∧
    (c.x a = 0 → MayTrap s → Traps (.wtany a) s 0x02 0) ∧
    (all → exec (.wtall a) s = .next (s.setCtx s.cur (gone c (c.pc + 4)))) ∧
    (¬all → exec (.wtall a) s = .next (waiting true false false)) ∧
    (∀ k < 64, c.trb.getLsbD k = true → (c.x a).getLsbD k = true →
      (∀ j < k, ¬(c.trb.getLsbD j = true ∧ (c.x a).getLsbD j = true)) → Writes (.ffrdy a d) s d (BitVec.ofNat 64 k) (c.pc + 4)) ∧
    (¬any → Writes (.ffrdy a d) s d 64 (c.pc + 4)) ∧
    (within → exec (.waitc nl ns nc nt) s = .next (s.setCtx s.cur (gone c (c.pc + 4)))) ∧
    (¬within → exec (.waitc nl ns nc nt) s = .next (waiting (decide (nc.toNat < c.copies.length)) true
      (decide (ns.toNat < storesOut s s.cur) || decide (nl.toNat < loadsOut s s.cur)))) ∧
    (∀ i p, i = .wtany a ∨ i = .wtall a ∨ i = .ffrdy a d → c.x a ≠ 0 → (c.x a).getLsbD p.tag.toNat = true →
      let f := s.setCtx s.cur { c with copyFault := some p }
      MayTrap s → exec i f = .next (f.setCtx s.cur (entered c false p.cause p.tval c.pc 0))) ∧
    (∀ p, let f := s.setCtx s.cur { c with tile := { c.tile with fault := some p } }
      MayTrap s → exec (.waitc nl ns nc nt) f = .next (f.setCtx s.cur (entered c false p.cause p.tval c.pc 0))))

/-- R294, R295, R278: a FENCE of a context outside a fork with no pending message fault goes on once what its order names is
performed: for a release every earlier access, and every earlier request of its scope acknowledged; for an acquire every
earlier load and atomic. Else it waits. Only what the scope checker keeps may change beside the PC. A pending message fault is
raised first. -/
def Obligations.Fences : Prop :=
  ∀ (s : State) (sc : BitVec 3) (o : BitVec 2), s.me.chunk = none →
    let ready := (2 ≤ o.toNat → Performed s s.cur sc.toNat) ∧
      (o.toNat % 2 = 1 → (∀ x ∈ s.me.accs, x.isStore = true) ∧ ∀ x ∈ s.me.vecs, x.isLoad = false ∧ x.atomic = false)
    (s.me.msgFault = none → ready → ∃ c', exec (.fence sc o) s = .next (s.setCtx s.cur c') ∧
      c' = { gone s.me (s.me.pc + 4) with
        relFence := if 2 ≤ o.toNat then some sc else s.me.relFence
        seen := if o.toNat % 2 = 1 then [] else s.me.seen
        csr := { s.me.csr with scopechk := c'.csr.scopechk } }) ∧
    (s.me.msgFault = none → ¬ready → Waits (.fence sc o) s .poll) ∧
    (∀ p, s.me.msgFault = some p → MayTrap s → exec (.fence sc o) s = .next (s.setCtx s.cur
      (entered { s.me with msgFault := none } false p.cause p.tval s.me.pc 0)))

namespace Sys2Proof.Claims

open Sys2Proof.Machine

/-- R246, R247: an arrival of a member at an enabled domain counts, completes the phase when it is the last, and writes the
phase to s[d], a releasing one once what it releases is performed; it is remembered with its RIN and with the PH and ARR just after
it (R251). BARARR and BARWT of a domain that is not enabled or has no number below 16 raise ILLEGAL-OPERAND, of a unit that is
no member PERMISSION-FAULT. -/
def BarrierArrives : Prop :=
  ∀ (s : State) (d a : BitVec 5) (sc : BitVec 3) (rel : BitVec 1) (b : BarKey),
    s.me.chunk = none → s.me.sealing = false →
    (Member s a sc b → (rel = 1 → Performed s s.cur sc.toNat) →
      ∃ c' x', exec (.bararr d a sc rel) s = .next ((s.setBar b x').setCtx s.cur c') ∧
        Wrote s.me c' d (BitVec.ofNat 64 (s.bar b).ph.toNat) (s.me.pc + 4) ∧
        x' = { s.bar b with
          arr := if (s.bar b).arr + 1 = (s.bar b).n then 0 else (s.bar b).arr + 1
          ph := if (s.bar b).arr + 1 = (s.bar b).n then BitVec.ofNat 32 ((s.bar b).ph.toNat + 1) else (s.bar b).ph
          history := x'.history } ∧
        x'.history = (if s.me.dom then (s.bar b).history else []) ++ [(if s.me.dom then s.me.rin else 0, x'.ph, x'.arr)]) ∧
    (Member s a sc b → rel = 1 → ¬Performed s s.cur sc.toNat → Waits (.bararr d a sc rel) s .poll) ∧
    (∀ i, i = .bararr d a sc rel ∨ i = .barwt d a sc →
      (16 ≤ (s.me.x a).toNat ∨ (Selects s a sc b ∧ (s.bar b).en = false) → MayTrap s → Traps i s 0x02 0) ∧
      (Selects s a sc b → (s.bar b).en = true → ¬IsMember s b → MayTrap s → Traps i s 0x05 (s.me.x a)))

/-- R248: BARWT for a phase that has completed passes at once, for one that has not it waits; once the phase has completed,
BARRIER_PHASE_COMPLETE lets every context that waits for it issue again, and changes nothing else. -/
def BarrierWaits : Prop :=
  ∀ (s : State) (d a : BitVec 5) (sc : BitVec 3) (b : BarKey), s.me.chunk = none → Member s a sc b → (s.me.x d).toNat < 2 ^ 32 →
    let k := ((s.bar b).ph.toNat + 2 ^ 32 - (s.me.x d).toNat) % 2 ^ 32
    (1 ≤ k ∧ k ≤ 2 ^ 31 → GoesTo (.barwt d a sc) s (s.me.pc + 4)) ∧
    (¬(1 ≤ k ∧ k ≤ 2 ^ 31) → s.me.wait = none → exec (.barwt d a sc) s = .next (s.setCtx s.cur { s.me with
      wait := some .barrier
      blocked := s.time })) ∧
    ∃ t, exec (.barrierPhaseComplete b) s = .next t ∧ t = { s with ctxs := t.ctxs } ∧
      (s.me.wait = some .barrier → s.instrAt s.cur = some (.barwt d a sc) → 1 ≤ k ∧ k ≤ 2 ^ 31 →
        t.me = { s.me with wait := some .poll }) ∧
      ∀ u, t.ctx u = s.ctx u ∨ ((s.ctx u).wait = some .barrier ∧ t.ctx u = { s.ctx u with wait := some .poll })

end Sys2Proof.Claims

/-- R246 to R248: arrivals at barrier networks, waits for their phases, and the completion of a phase. -/
def Obligations.Barriers : Prop := BarrierArrives ∧ BarrierWaits

/-- R239 to R244: EVLD of an operation at the event unit of its own quad sends a request and waits; when the request reaches
the unit, nothing else being queued there, and its condition holds, the operation takes effect there, its value goes to
s[d] and the context goes on. Nothing else changes. -/
def Obligations.EventUnitOperations : Prop :=
  ∀ (s : State) (d a : BitVec 5) (op : EvuOp) (v : Nat) (e : Evu),
    s.me.chunk = none → s.me.evld = none → s.me.wait = none → Flat s s.me.sup s.me.csr.ptroot →
    ((∃ b, op = .arrive b) ∨ (∃ m, op = .unlock m) → Performed s s.cur 2) →
    (∀ b t, op = .set b t → 1 ≤ t ∧ t ≤ 31) →
    (s.me.x a).toNat = 0x110000000000 + 0x200000 * s.cur.die.val + 0x10000 * s.cur.quad + evuOffset op →
    (s.quad s.cur.die s.cur.quad).evu.queue = [] →
    evuEffect (s.quad s.cur.die s.cur.quad).evu (evuIndex s.cur) (unitInQuad s.cur.unit.val, s.cur.slot.val) op = some (v, e) →
    ∃ c', exec (.evld d a) s = .next (s.setCtx s.cur { s.me with
        evld := some ⟨evuOffset op, d, false⟩
        wait := some .eventUnit
        blocked := s.time }) ∧
      exec (evuEvent s.cur op) (s.setCtx s.cur { s.me with
        evld := some ⟨evuOffset op, d, false⟩
        wait := some .eventUnit
        blocked := s.time }) = .next (({ s.setQuad s.cur.die s.cur.quad { s.quad s.cur.die s.cur.quad with evu := e } with
          owners := ownersAfter s op v }).setCtx s.cur c') ∧
      Wrote { s.me with blocked := s.time } c' d (BitVec.ofNat 64 v) (s.me.pc + 4)

/-- R240, R241, R244: a TAKE that finds the line at 0 is queued at the event unit; EVSIG to the QCC of a quad of the package,
once everything earlier is performed, sends a signal for line s[d] and goes on; its delivery adds 1 to the count of that
line, which saturates, and a WAIT that waits for it completes with it; EVU_WAIT_SATISFIED then serves the TAKE: the line goes down by 1 and s[d] receives the count before. A
line above 31 raises ILLEGAL-OPERAND. -/
def Obligations.EventLines : Prop :=
  ∀ (s : State) (u : CtxId) (e : EvldReq) (d a : BitVec 5) (die : Fin 8) (q : Fin 32) (l : Fin 32) (rest : List (BitVec 5)),
    let own := s.quad u.die u.quad
    let x := s.quad die q.val
    ((s.ctx u).chunk = none → (s.ctx u).wait = some .eventUnit → (s.ctx u).evld = some e → e.off = 64 * l.val + 8 →
      (e.queued = false → own.evu.lines[l] = 0 → own.evu.queue = [] →
        exec (.evuTake u) s = .next ((s.setQuad u.die u.quad { own with evu := { own.evu with queue := [u] } }).setCtx u
          { s.ctx u with evld := some { e with queued := true } })) ∧
      (own.evu.queue = [u] → own.evu.lines[l] ≠ 0 →
        ∃ c', exec (.evuWaitSatisfied u) s = .next ((s.setQuad u.die u.quad { own with evu := { own.evu with
            queue := []
            lines := own.evu.lines.set l.val (BitVec.ofNat 16 (own.evu.lines[l].toNat - 1)) l.isLt } }).setCtx u c') ∧
          Wrote { s.ctx u with evld := none } c' e.d (BitVec.ofNat 64 own.evu.lines[l].toNat) ((s.ctx u).pc + 4))) ∧
    (s.me.chunk = none → s.me.sealing = false →
      Performed s s.cur (max 2 (narrowest s (endpointOf s s.cur) (BitVec.ofNat 32 (s.me.x a).toNat))) →
      (s.me.x a).toNat = s.pkg.toNat * 2 ^ 14 + die.val * 2 ^ 10 + 128 + q.val → (s.me.x d).toNat = l.val →
      exec (.evsig d a) s = .next ((s.setQuad die q.val { x with evu := { x.evu with
        signals := x.evu.signals ++ [BitVec.ofNat 5 l.val] } }).setCtx s.cur (gone s.me (s.me.pc + 4)))) ∧
    (x.evu.signals = BitVec.ofNat 5 l.val :: rest → (∀ v ∈ x.evu.queue, ∀ w, (s.ctx v).evld = some w → w.off ≠ 64 * l.val) →
      exec (.evsigDeliver (32 * die.val + q.val)) s = .next (s.setQuad die q.val { x with evu := { x.evu with
        signals := rest
        lines := x.evu.lines.set l.val (BitVec.ofNat 16 (min 65535 (x.evu.lines[l].toNat + 1))) l.isLt } })) ∧
    (x.evu.signals = BitVec.ofNat 5 l.val :: rest → x.evu.queue = [u] → u.die = die → u.quad = q.val → (s.ctx u).chunk = none →
      (s.ctx u).evld = some e → e.off = 64 * l.val →
      ∃ c', exec (.evsigDeliver (32 * die.val + q.val)) s = .next ((s.setQuad die q.val { x with evu := { x.evu with
          signals := rest
          queue := []
          lines := x.evu.lines.set l.val (BitVec.ofNat 16 (min 65535 (x.evu.lines[l].toNat + 1))) l.isLt } }).setCtx u c') ∧
        Wrote { s.ctx u with evld := none } c' e.d (BitVec.ofNat 64 (min 65535 (x.evu.lines[l].toNat + 1))) ((s.ctx u).pc + 4)) ∧
    (32 ≤ (s.me.x d).toNat → s.me.sealing = false → MayTrap s → Traps (.evsig d a) s 0x02 0)

/-- R117, R142, R235, R377: the oldest issued store or atomic of a context is acknowledged, an atomic's flags reaching FFLG;
the oldest vector instruction, with no pass of a VAMO left to make, is complete and no longer outstanding, and its trace entry, where
it has one, enters its core's buffer.
That an access is performed at its issue and acknowledged later is the model's choice (log 3). -/
def Obligations.CompletionsOfAccesses : Prop :=
  ∀ (s : State) (u : CtxId),
    (∀ a rest, (s.ctx u).accs = a :: rest → exec (.accessPerformed u) s = .next (s.setCtx u { s.ctx u with
      accs := rest
      csr := { (s.ctx u).csr with fflg := (s.ctx u).csr.fflg ||| a.flags } })) ∧
    (∀ v rest, (s.ctx u).vecs = v :: rest → v.rest = none → ∃ t, exec (.vectorInstructionComplete u) s = .next t ∧
      t = { s.setCtx u { s.ctx u with vecs := rest } with cores := t.cores } ∧
      (v.entry = none → v.ends = [] → t.cores = s.cores) ∧
      (∀ e, v.entry = some e → e ∈ (t.core u.die u.unit.val).entries))

namespace Sys2Proof.Claims

open Sys2Proof.Machine

/-! ## Vector instructions -/

/-- The issuing unit is a vector core whose instruction runs to its end: no stop has been set inside it (R146). -/
def OnCore (s : State) : Prop := s.cur.unit.val < 128 ∧ s.me.upto = none

/-- Element `e` of a register at width `W` bytes: what lies at or beyond the mark reads as zero (R130). -/
def elemAt (v : VReg) (W e : Nat) : Nat := if W * e < 64 * v.hwm then v.data.toNat / 2 ^ (8 * (W * e)) % 2 ^ (8 * W) else 0

/-- A mask bit; k0 is all ones (R131). -/
def active (c : Ctx) (km : BitVec 3) (e : Nat) : Bool := if km = 0 then decide (e < 1024) else (c.masks[km.toNat]'km.isLt).getLsbD e

/-- Whether a restart pattern leaves element `e` to be performed, its cluster being given by the group width (R139, R148). -/
def toRun (rst : Word) (W e : Nat) : Bool :=
  let q := W * e / 64 % 4
  !rst.getLsbD (16 * q + 15) && decide (rst.toNat / 2 ^ (16 * q) % 2 ^ 11 ≤ e)

/-- The restart pattern of the next instruction (R148): of a cluster that is ahead the recorded index, of the others 0. -/
def patternAfter (rst : Word) (r : Word) : Prop :=
  ∀ i, i < 64 → r.getLsbD i = (decide (i % 16 < 11) && rst.getLsbD (16 * (i / 16) + 15) && rst.getLsbD i)

/-- The common end of a vector instruction that has been performed: the context, otherwise as `c`, goes on at PC + 4 with
one more vector instruction outstanding, of these classes; energy is debited, PMCs may count. A context that traces takes a trace
number, and one that captures pipe events leaves them (R142, R349, R377, R379). -/
def VecEndOf (isLoad isStore atomic : Bool) (s t : State) (c : Ctx) : Prop :=
  let traces := s.me.csr.trcctl.getLsbD 0
  let pipes := s.me.csr.trcctl.getLsbD 1
  t = { s with
    ctxs := t.ctxs
    rings := t.rings
    cores := t.cores } ∧
  OthersKept s t ∧
  (∃ p, p.isLoad = isLoad ∧ p.isStore = isStore ∧ p.atomic = atomic ∧ p.rest = none ∧
    (p.entry ≠ none ↔ traces = true) ∧ (pipes = false → p.ends = []) ∧
    t.me = { c with
      pc := s.me.pc + 4
      wait := none
      rst := t.me.rst
      prior := t.me.prior
      vecs := s.me.vecs ++ [p]
      csr := { c.csr with pmc := t.me.csr.pmc } }) ∧
  patternAfter s.me.rst t.me.rst ∧
  (∀ u : CtxId, ∃ ev la ba lo, t.core u.die u.unit.val = { s.core u.die u.unit.val with
    seq := if traces = true ∧ u.die = s.cur.die ∧ u.unit = s.cur.unit then (s.core u.die u.unit.val).seq + 1 else (s.core u.die u.unit.val).seq
    events := ev
    lastEv := la
    batch := ba
    lost := lo } ∧
    (pipes = false ∨ (u.die, u.unit) ≠ (s.cur.die, s.cur.unit) → (ev, la, ba, lo) =
      ((s.core u.die u.unit.val).events, (s.core u.die u.unit.val).lastEv, (s.core u.die u.unit.val).batch, (s.core u.die u.unit.val).lost)))

def VecEnd (s t : State) (c : Ctx) : Prop := VecEndOf false false false s t c

/-- The tag and the mark of a destination written with type `T` (R138); with VL = 0 both stay (R137). -/
def Destination (c c' : Ctx) (vd : BitVec 5) (T : Tag) : Prop :=
  (∀ r, r ≠ vd → c'.v r = c.v r) ∧ (c'.v vd).tag = (if c.csr.vl = 0 then (c.v vd).tag else T) ∧ (c'.v vd).hwm = max (c.v vd).hwm ((c.csr.vl * T.width + 63) / 64)

/-- The context with other vector registers and more vector flags. -/
def VecChanged (c c' : Ctx) (fl : Flags) : Prop :=
  c' = { c with
    vregs := c'.vregs
    csr := { c.csr with vflg := c.csr.vflg ||| fl } }

/-- `T` is the result type of sources with these tags (R135). -/
def ResultType (tags : List Tag) (T : Tag) : Prop :=
  let ts := tags.filter fun u => decide (u ≠ .untagged)
  ts ≠ [] ∧ (∀ u ∈ ts, u.family = T.family) ∧
  (if ∀ u ∈ ts, ∀ w ∈ ts, u = w then T ∈ ts
   else if .fp16 ∈ ts ∧ .bf16 ∈ ts then T = .fp32
   else T ∈ ts ∧ ∀ u ∈ ts, u.width ≤ T.width)

/-- A binary or ternary instruction of major 0x19, and a unary one: its operation, vd, va, vb or b, km and the scalar bit. -/
def arithOf : Instr → Option (VOp × BitVec 5 × BitVec 5 × Option (BitVec 5 × BitVec 1) × BitVec 3)
  | .vadd d a b m v => some (.add, d, a, some (b, v), m)
  | .vsub d a b m v => some (.sub, d, a, some (b, v), m)
  | .vmul d a b m v => some (.mul, d, a, some (b, v), m)
  | .vfma d a b m v => some (.fma, d, a, some (b, v), m)
  | .vmulh d a b m v => some (.mulh, d, a, some (b, v), m)
  | .vadds d a b m v => some (.adds, d, a, some (b, v), m)
  | .vsubs d a b m v => some (.subs, d, a, some (b, v), m)
  | .vmin d a b m v => some (.min, d, a, some (b, v), m)
  | .vmax d a b m v => some (.max, d, a, some (b, v), m)
  | .vand d a b m v => some (.and, d, a, some (b, v), m)
  | .vor d a b m v => some (.or, d, a, some (b, v), m)
  | .vxor d a b m v => some (.xor, d, a, some (b, v), m)
  | .vshl d a b m v => some (.shl, d, a, some (b, v), m)
  | .vshr d a b m v => some (.shr, d, a, some (b, v), m)
  | .vabs d a m => some (.abs, d, a, none, m)
  | .vneg d a m => some (.neg, d, a, none, m)
  | .vrcp d a m => some (.rcp, d, a, none, m)
  | .vrsq d a m => some (.rsq, d, a, none, m)
  | .vexp2 d a m => some (.exp2, d, a, none, m)
  | .vlog2 d a m => some (.log2, d, a, none, m)
  | _ => none

/-- The second operand (R136): tag, element, and whether it is register vd. -/
structure Second where
  tag : Tag
  raw : Nat → Nat
  reg : Option (BitVec 5)

/-- Raw element of a register at its own width; an untagged one reads zero. -/
def rawElem (v : VReg) (e : Nat) : Nat := elemAt v v.tag.width e

def second (s : State) (va : BitVec 5) (y : Option (BitVec 5 × BitVec 1)) : Second :=
  match y with
  | none => ⟨.untagged, fun _ => 0, none⟩
  | some (b, v) =>
    if v = 1 then ⟨(s.me.v va).tag, fun _ => (s.me.x b).toNat % 2 ^ (8 * (s.me.v va).tag.width), none⟩
    else ⟨(s.me.v b).tag, rawElem (s.me.v b), some b⟩

/-! ## Number formats in numbers -/

/-- The ladder of magnitudes of a format (R66): what the bits below the sign stand for, subnormals first, the rungs going on
past the infinity as though the exponents did. -/
def ladder (f : Fmt) (n : Nat) : Rat :=
  let bias : Int := 2 ^ (f.exp - 1) - 1
  if n < 2 ^ f.frac then (n : Rat) * (2 : Rat) ^ (1 - bias - (f.frac : Int))
  else ((2 ^ f.frac + n % 2 ^ f.frac : Nat) : Rat) * (2 : Rat) ^ (((n / 2 ^ f.frac : Nat) : Int) - bias - (f.frac : Int))

/-- The bits below the sign of an infinity, and the bit of the sign. -/
def infBits (f : Fmt) : Nat := (2 ^ f.exp - 1) * 2 ^ f.frac
def signOf (f : Fmt) (neg : Bool) : Nat := if neg = true then 2 ^ (f.exp + f.frac) else 0

/-- The canonical quiet NaN (R72). -/
def quietNan (f : Fmt) : Nat := infBits f + 2 ^ (f.frac - 1)

/-- An operand: its format and its code. -/
structure Operand where
  f : Fmt
  code : Nat

def Operand.body (o : Operand) : Nat := o.code % 2 ^ (o.f.exp + o.f.frac)
def Operand.neg (o : Operand) : Bool := decide (o.code / 2 ^ (o.f.exp + o.f.frac) % 2 = 1)
def Operand.nan (o : Operand) : Bool := decide (infBits o.f < o.body)
def Operand.signalling (o : Operand) : Bool := o.nan && decide (o.body / 2 ^ (o.f.frac - 1) % 2 = 0)
def Operand.inf (o : Operand) : Bool := decide (o.body = infBits o.f)
def Operand.zero (o : Operand) : Bool := decide (o.body = 0)
def Operand.value (o : Operand) : Rat := if o.neg = true then -ladder o.f o.body else ladder o.f o.body

/-- A NaN made quiet in format `f`: sign and payload kept, the payload padded on the right or cut to its most significant bits
(R72). -/
def Operand.quieted (o : Operand) (f : Fmt) : Nat :=
  signOf f o.neg + infBits f + ((o.code % 2 ^ o.f.frac * 2 ^ f.frac / 2 ^ o.f.frac) ||| 2 ^ (f.frac - 1))

/-- A sticky flag under a condition, by its bit of R70: 0 NX, 1 UF, 2 OF, 3 DZ, 4 NV, 5 SA. -/
def flagIf (bit : Nat) (p : Bool) : Flags := if p = true then BitVec.ofNat 6 (2 ^ bit) else 0

/-- How one exact number compares with another. -/
def order (a b : Rat) : Ordering := if a < b then .lt else if a = b then .eq else .gt

/-- Whether a magnitude goes to the upper of its two neighbours `lo` and `hi` under a code of FRM (R68): `side q` says how `q`
compares with the magnitude, `odd` that the lower neighbour is the odd one. -/
def upward (frm : Nat) (neg odd : Bool) (side : Rat → Ordering) (lo hi : Rat) : Bool :=
  let mid := side ((lo + hi) / 2)
  match frm with
  | 1 => false
  | 2 => neg && decide (side lo = .lt)
  | 3 => !neg && decide (side lo = .lt)
  | 4 => decide (mid ≠ .gt)
  | _ => decide (mid = .lt) || (decide (mid = .eq) && odd)

/-- `r` and `fl` are a nonzero magnitude of the given sign rounded once (R67 to R69): it lies on a rung or between two, goes up
or down as FRM says, NX tells of an inexact result and UF of one that is tiny after rounding as well; what reaches the infinity
overflows to the infinity or to the largest finite value, with OF and NX. -/
def RoundsMagnitude (f : Fmt) (frm : Nat) (neg : Bool) (side : Rat → Ordering) (r : Nat) (fl : Flags) : Prop :=
  ∃ n, side (ladder f n) ≠ .gt ∧ side (ladder f (n + 1)) = .gt ∧
    let m := if upward frm neg (decide (n % 2 = 1)) side (ladder f n) (ladder f (n + 1)) = true then n + 1 else n
    let least := ladder f (2 ^ f.frac)
    let below := least * (1 - (2 : Rat) ^ (-((f.frac : Int) + 1)))
    let tiny := decide (side least = .gt) && !(decide (side below ≠ .gt) && upward frm neg true side below least)
    let inexact := decide (side (ladder f n) ≠ .eq)
    if infBits f ≤ m then
      r = signOf f neg + (if frm = 1 ∨ (frm = 2 ∧ neg = false) ∨ (frm = 3 ∧ neg = true) then infBits f - 1 else infBits f) ∧
      fl = flagIf 2 true ||| flagIf 0 true
    else r = signOf f neg + m ∧ fl = flagIf 0 inexact ||| flagIf 1 (tiny && inexact)

/-- An exact value rounded once; a zero takes the sign `zero` and no flag. -/
def Rounds (f : Fmt) (frm : Nat) (v : Rat) (zero : Bool) (r : Nat) (fl : Flags) : Prop :=
  if v = 0 then r = signOf f zero ∧ fl = 0
  else RoundsMagnitude f frm (decide (v < 0)) (fun q => order q (if v < 0 then -v else v)) r fl

/-- A number, not a NaN, given in format `f` unchanged. -/
def SameNumber (f : Fmt) (o : Operand) (r : Nat) : Prop :=
  if o.inf = true then r = signOf f o.neg + infBits f
  else ∃ m, m < infBits f ∧ r = signOf f o.neg + m ∧ ladder f m = ladder o.f o.body

/-- The order of R73 on numbers, −0 below +0 where `zeros` says so. -/
def lower (zeros : Bool) (x y : Operand) : Bool :=
  if x.inf = true then x.neg && !(y.inf && y.neg)
  else if y.inf = true then !y.neg
  else if x.zero = true ∧ y.zero = true then zeros && x.neg && !y.neg
  else decide (x.value < y.value)

/-- The result of a zero sum of two terms of these signs under IEEE 754: theirs if they agree, else + but under RDN. -/
def zeroSign (frm : Nat) (a b : Bool) : Bool := if a = b then a else decide (frm = 2)

/-- The operands of an operation in the order in which R72 looks for a NaN. -/
def operands (op : VOp) (x y z : Operand) : List Operand :=
  match op with
  | .rcp | .rsq | .exp2 | .log2 => [x]
  | .fma => [x, y, z]
  | _ => [x, y]

/-- The invalid operations of R72, decided before any NaN is looked for. -/
def invalid (op : VOp) (x y z : Operand) : Bool :=
  let product := (x.zero && y.inf) || (x.inf && y.zero)
  match op with
  | .add => x.inf && y.inf && (x.neg != y.neg)
  | .sub => x.inf && y.inf && (x.neg == y.neg)
  | .mul => product
  | .fma => product || (!x.nan && !y.nan && (x.inf || y.inf) && z.inf && (z.neg != (x.neg != y.neg)))
  | .rsq => !x.nan && x.neg && !x.zero
  | .log2 => !x.nan && x.neg && !x.zero
  | _ => false

/-- The infinity or the zero that infinite operands and zero operands give, with its flag (R74, IEEE 754); none where the result
is an exact value rounded. -/
def special (op : VOp) (f : Fmt) (x y z : Operand) : Option (Nat × Flags) :=
  let infinity (neg : Bool) : Nat := signOf f neg + infBits f
  match op with
  | .add => if x.inf then some (infinity x.neg, 0) else if y.inf then some (infinity y.neg, 0) else none
  | .sub => if x.inf then some (infinity x.neg, 0) else if y.inf then some (infinity !y.neg, 0) else none
  | .mul => if x.inf || y.inf then some (infinity (x.neg != y.neg), 0) else none
  | .fma => if x.inf || y.inf then some (infinity (x.neg != y.neg), 0) else if z.inf then some (infinity z.neg, 0) else none
  | .rcp => if x.inf then some (signOf f x.neg, 0) else if x.zero then some (infinity x.neg, flagIf 3 true) else none
  | .rsq => if x.inf then some (0, 0) else if x.zero then some (infinity x.neg, flagIf 3 true) else none
  | .exp2 => if x.inf then some (if x.neg then 0 else infinity false, 0) else none
  | .log2 => if x.inf then some (infinity false, 0) else if x.zero then some (infinity true, flagIf 3 true) else none
  | _ => none

/-- The exact result of an operation on finite operands, rounded once (R67, R74). VEXP2 and VLOG2 are exact where their value is
rational; elsewhere they
are the model's evaluation of log 17, which is the rounding of a number between the powers of 2, or the integers, about the exact one. -/
def Computed (op : VOp) (f : Fmt) (frm : Nat) (x y z : Operand) (r : Nat) (fl : Flags) : Prop :=
  let xv := x.value
  match op with
  | .add => Rounds f frm (xv + y.value) (zeroSign frm x.neg y.neg) r fl
  | .sub => Rounds f frm (xv - y.value) (zeroSign frm x.neg !y.neg) r fl
  | .mul => Rounds f frm (xv * y.value) (x.neg != y.neg) r fl
  | .fma => Rounds f frm (xv * y.value + z.value) (zeroSign frm (x.neg != y.neg) z.neg) r fl
  | .rcp => Rounds f frm (1 / xv) false r fl
  | .rsq => RoundsMagnitude f frm false (fun q => order (q * q * xv) 1) r fl
  | .exp2 => ∀ k : Int,
      (xv = (k : Rat) → Rounds f frm ((2 : Rat) ^ k) false r fl) ∧
      ((k : Rat) < xv → xv < (k : Rat) + 1 → (r, fl) = f.exp2 (Rounding.ofFrm (BitVec.ofNat 3 frm)) (x.f.read x.code) ∧
        ∃ v : Rat, (2 : Rat) ^ k < v ∧ v < (2 : Rat) ^ (k + 1) ∧ Rounds f frm v false r fl)
  | .log2 => ∀ k : Int,
      (xv = (2 : Rat) ^ k → Rounds f frm (k : Rat) false r fl) ∧
      ((2 : Rat) ^ k < xv → xv < (2 : Rat) ^ (k + 1) → (r, fl) = f.log2 (Rounding.ofFrm (BitVec.ofNat 3 frm)) (x.f.read x.code) ∧
        ∃ v : Rat, (k : Rat) < v ∧ v < (k : Rat) + 1 ∧ Rounds f frm v false r fl)
  | _ => False

/-- R67, R69, R72 to R74: the code and the flags that a float operation gives on its operands at result format `f`. VABS and VNEG
act on the sign bit alone, NaNs included. VMIN and VMAX take a NaN only where both are. -/
def FloatResult (op : VOp) (f : Fmt) (frm : Nat) (x y z : Operand) (r : Nat) (fl : Flags) : Prop :=
  let nv := flagIf 4 ((operands op x y z).any Operand.signalling)
  let firstNan (p : Operand → Prop) : Prop := ∃ o, ((operands op x y z).filter Operand.nan).head? = some o ∧ p o
  match op with
  | .abs => r = x.body ∧ fl = 0
  | .neg => r = signOf f (!x.neg) + x.body ∧ fl = 0
  | .min | .max =>
    if x.nan = true ∧ y.nan = true then firstNan fun o => r = o.quieted f ∧ fl = nv
    else if x.nan = true then SameNumber f y r ∧ fl = nv
    else if y.nan = true then SameNumber f x r ∧ fl = nv
    else SameNumber f (if (if op = .max then lower true x y else lower true y x) = true then y else x) r ∧ fl = 0
  | _ =>
    if invalid op x y z = true then r = quietNan f ∧ fl = flagIf 4 true
    else if (operands op x y z).any Operand.nan = true then firstNan fun o => r = o.quieted f ∧ fl = nv
    else match special op f x y z with
      | some q => (r, fl) = q
      | none => Computed op f frm x y z r fl

/-- R73: whether a comparison of two operands holds, and its flags. -/
def floatHolds (r : Rel) (x y : Operand) : Bool :=
  let un := x.nan || y.nan
  match r with
  | .eq => !un && !lower false x y && !lower false y x
  | .ne => un || lower false x y || lower false y x
  | .lt => !un && lower false x y
  | .le => !un && !lower false y x

def floatHoldsFlags (r : Rel) (x y : Operand) : Flags :=
  flagIf 4 (if r = .eq ∨ r = .ne then x.signalling || y.signalling else x.nan || y.nan)

/-- The rounding mode in FRM: RNE for the codes 5 to 7, which no write leaves there (R68). -/
def frmOf (c : Ctx) : Nat := if 4 < c.csr.frm.toNat then 0 else c.csr.frm.toNat

/-- An element of a float register, or of an untagged one, which reads as +0. -/
def operand (t : Tag) (raw : Nat) : Operand :=
  match t with
  | .fp32 => ⟨⟨8, 23⟩, raw⟩
  | .fp16 => ⟨⟨5, 10⟩, raw⟩
  | .bf16 => ⟨⟨8, 7⟩, raw⟩
  | _ => ⟨⟨8, 23⟩, 0⟩

/-- An integer element as the number it stands for. -/
def asInt (t : Tag) (raw : Nat) : Int := if t.family = some .signed then Int.bmod raw (2 ^ (8 * t.width)) else raw

/-- A sum of data of one format, rounded once (R157): of no term +0; else the first NaN made quiet; the canonical NaN where
infinities of both signs meet; an infinity; or the exact sum, a zero taking its sign from its terms under FRM. -/
def SumResult (f : Fmt) (frm : Nat) (os : List Operand) (r : Nat) (fl : Flags) : Prop :=
  if os = [] then r = 0 ∧ fl = 0
  else if os.any Operand.nan = true then
    (∃ o, (os.filter Operand.nan).head? = some o ∧ r = o.quieted f) ∧ fl = flagIf 4 (os.any Operand.signalling)
  else if os.any (fun o => o.inf && o.neg) = true ∧ os.any (fun o => o.inf && !o.neg) = true then r = quietNan f ∧ fl = flagIf 4 true
  else if os.any Operand.inf = true then r = signOf f (os.any fun o => o.inf && o.neg) + infBits f ∧ fl = 0
  else Rounds f frm (os.map Operand.value).sum
    (os.all (fun o => o.zero && o.neg) || (decide (frm = 2) && !os.all (fun o => o.zero && !o.neg))) r fl

/-- The largest or the smallest of some data (R73, R157): of NaNs alone the first made quiet, else a number that no other
number passes. -/
def ExtremeResult (most : Bool) (f : Fmt) (os : List Operand) (r : Nat) (fl : Flags) : Prop :=
  fl = flagIf 4 (os.any Operand.signalling) ∧
  if os.all Operand.nan = true then ∃ o, os.head? = some o ∧ r = o.quieted f
  else ∃ o ∈ os, o.nan = false ∧ SameNumber f o r ∧
    ∀ p ∈ os, p.nan = false → (if most = true then lower true o p else lower true p o) = false

/-- The limits of an integer type, and an integer at a limit if it lies beyond (R65). -/
def intLow (T : Tag) : Int := if T.family = some .signed then -(2 ^ (8 * T.width - 1)) else 0
def intHigh (T : Tag) : Int := if T.family = some .signed then 2 ^ (8 * T.width - 1) - 1 else 2 ^ (8 * T.width) - 1
def intCode (T : Tag) (v : Int) : Nat := (v % 2 ^ (8 * T.width)).toNat
def clamped (T : Tag) (v : Int) : Int := max (intLow T) (min (intHigh T) v)

/-- A number rounded to an integer under FRM, saturated with NV, or with NX if inexact (R75). -/
def IntRounds (frm : Nat) (T : Tag) (v : Rat) (r : Nat) (fl : Flags) : Prop :=
  let a := if v < 0 then -v else v
  ∃ n : Nat, (n : Rat) ≤ a ∧ a < (n : Rat) + 1 ∧
    let m : Nat := if upward frm (decide (v < 0)) (decide (n % 2 = 1)) (fun q => order q a) n (n + 1) = true then n + 1 else n
    let k : Int := if v < 0 then -(m : Int) else m
    r = intCode T (clamped T k) ∧ fl = if clamped T k = k then flagIf 0 (decide (a ≠ (n : Rat))) else flagIf 4 true

/-- The magnitude of a logarithm under scale exponent `S`: an entry of the summation table in Q1.15 times a power of 2 (R77). -/
def lnsMag (S l : Int) : Rat :=
  let T : Nat := if l % 4 = 0 then 0x8000 else if l % 4 = 1 then 0x9837 else if l % 4 = 2 then 0xB505 else 0xD745
  (T : Rat) * (2 : Rat) ^ (l / 4 + S - 15)

/-- The code of a sign and a logarithm with selector `q`, and those of zero and NaN (R76). -/
def lnsByte (neg : Bool) (l : Int) (q : Nat) : Nat := (if neg = true then 128 else 0) + (l % 32).toNat * 4 + q

/-- A nonzero magnitude into LNS8 (R79): the logarithm whose magnitude is nearest in the logarithm, a tie going to the even one;
beyond 15 it saturates with OF and NX, below −15 it is zero with UF and NX, else NX tells of an inexact result. -/
def LnsRounds (neg : Bool) (a : Rat) (S : Int) (q r : Nat) (fl : Flags) : Prop :=
  let near (mid : Rat) (l : Int) (below : Bool) : Prop := (if below = true then mid < a * a else a * a < mid) ∨ (a * a = mid ∧ l % 2 = 0)
  ∃ l : Int, near (lnsMag S (l - 1) * lnsMag S l) l true ∧ near (lnsMag S l * lnsMag S (l + 1)) l false ∧
    if 15 < l then r = lnsByte neg 15 q ∧ fl = flagIf 2 true ||| flagIf 0 true
    else if l < -15 then r = 0x40 + q ∧ fl = flagIf 1 true ||| flagIf 0 true
    else r = lnsByte neg l q ∧ fl = flagIf 0 (decide (lnsMag S l ≠ a))

/-- What an LNS8 code stands for (R76, R77): nothing for a NaN. -/
def lnsValue (S : Int) (x : Nat) : Option Rat :=
  let l : Int := Int.bmod (x / 4 : Nat) 32
  if x / 4 % 64 = 0x30 then none
  else if x / 4 % 64 = 0x10 then some 0
  else some (if x / 128 % 2 = 1 then -lnsMag S l else lnsMag S l)

/-- R75, R77, R79: an element converted from type `A` to type `T`, at scale exponent `S` of an LNS8 source and `U` and selector
`q` of an LNS8 target. -/
def Converted (frm : Nat) (A T : Tag) (S U : Int) (q x r : Nat) (fl : Flags) : Prop :=
  let intoLns (v : Rat) : Prop := if v = 0 then r = 0x40 + q ∧ fl = 0 else LnsRounds (decide (v < 0)) (if v < 0 then -v else v) U q r fl
  if A = T then r = x ∧ fl = 0
  else match A.family, T.family with
    | some .float, some .float =>
      ∃ f, T.fmt = some f ∧
        let o := operand A x
        if o.nan = true then r = o.quieted f ∧ fl = flagIf 4 o.signalling
        else if o.inf = true then r = signOf f o.neg + infBits f ∧ fl = 0
        else Rounds f frm o.value o.neg r fl
    | some .float, some .lns =>
      let o := operand A x
      if o.nan = true then r = 0xC0 + q ∧ fl = flagIf 4 o.signalling
      else if o.inf = true then r = lnsByte o.neg 15 q ∧ fl = flagIf 2 true ||| flagIf 0 true
      else intoLns o.value
    | some .float, some _ =>
      let o := operand A x
      if o.nan = true then r = 0 ∧ fl = flagIf 4 true
      else if o.inf = true then r = intCode T (if o.neg = true then intLow T else intHigh T) ∧ fl = flagIf 4 true
      else IntRounds frm T o.value r fl
    | some .lns, some .float =>
      ∃ f, T.fmt = some f ∧ (match lnsValue S x with
        | none => r = quietNan f ∧ fl = 0
        | some v => Rounds f frm v false r fl)
    | some .lns, some _ => match lnsValue S x with
      | none => r = 0 ∧ fl = flagIf 4 true
      | some v => IntRounds frm T v r fl
    | some _, some .float => ∃ f, T.fmt = some f ∧ Rounds f frm (asInt A x : Rat) false r fl
    | some _, some .lns => intoLns (asInt A x : Rat)
    | some _, some _ => r = intCode T (clamped T (asInt A x)) ∧ fl = flagIf 5 (decide (clamped T (asInt A x) ≠ asInt A x))
    | _, _ => True

/-- The exact integer result of an operation at type `T` and whether it saturates (R153). -/
def intResult (op : VOp) (T : Tag) (x y z : Int) : Option (Int × Bool) :=
  let w := 8 * T.width
  let lo : Int := if T.family = some .signed then -(2 ^ (w - 1)) else 0
  let hi : Int := if T.family = some .signed then 2 ^ (w - 1) - 1 else 2 ^ w - 1
  let sat (v : Int) : Int × Bool := (max lo (min hi v), decide (v < lo ∨ hi < v))
  match op with
  | .add => some (x + y, false)
  | .sub => some (x - y, false)
  | .mul => some (x * y, false)
  | .fma => some (x * y + z, false)
  | .mulh => some ((x * y).fdiv (2 ^ w), false)
  | .adds => some (sat (x + y))
  | .subs => some (sat (x - y))
  | .min => some (min x y, false)
  | .max => some (max x y, false)
  | .abs => some (max x (-x), false)
  | .neg => some (-x, false)
  | .shl => some (x * 2 ^ (y.toNat % w), false)
  | .shr => some (x.fdiv (2 ^ (y.toNat % w)), false)
  | .and => none
  | .or => none
  | .xor => none
  | .rcp => none
  | .rsq => none
  | .exp2 => none
  | .log2 => none

/-- Whether an operation takes a type (R153). -/
def takes (op : VOp) (T : Tag) : Prop :=
  match op with
  | .add | .sub | .fma | .min | .max | .abs | .neg => T.family = some .signed ∨ T.family = some .unsigned ∨ T.family = some .float
  | .mul => T ≠ .untagged
  | .mulh | .adds | .subs | .and | .or | .xor | .shl | .shr => T.family = some .signed ∨ T.family = some .unsigned
  | .rcp | .rsq | .exp2 | .log2 => T.family = some .float

/-- What major 0x19 checks of its operands at type `T` and group width `W` (R135 to R137, R153). -/
def ArithLegal (s : State) (op : VOp) (vd va : BitVec 5) (y : Second) (scalar unary : Bool) (T : Tag) (W : Nat) : Prop :=
  let tx := (s.me.v va).tag
  let tz := (s.me.v vd).tag
  let shift := op = .shl ∨ op = .shr
  (if unary = true ∨ shift then tx ≠ .untagged ∧ T = tx else if op = .fma then ResultType [tx, y.tag, tz] T else ResultType [tx, y.tag] T) ∧
  takes op T ∧
  (scalar = true → tx ≠ .untagged) ∧
  (shift → y.tag.family = some .signed ∨ y.tag.family = some .unsigned) ∧
  (T = .lns8 → tx = .lns8 ∧ y.tag = .lns8) ∧
  W = max (max T.width tx.width) (max y.tag.width (if op = .fma then tz.width else 0)) ∧ s.me.csr.vl * W ≤ 1024 ∧
  (va = vd ∨ y.reg = some vd ∨ op = .fma → tz ≠ .untagged ∧ tz.width = T.width)

end Sys2Proof.Claims

/-- R149 to R151: VSETL writes the smaller of s[a] and 1,024 to VL and to s[d], once older vector work is complete; VCFG
changes the tag of its register, and for the tag 0 discards its contents; VSYNC runs once older vector work is complete; VSETL
and VSYNC wait until then. -/
def Obligations.VectorConfiguration : Prop :=
  ∀ (s : State) (d a vd tag : BitVec 5) (T : Tag), OnCore s →
    (s.me.vecs = [] → ∃ c', exec (.vsetl d a) s = .next (s.setCtx s.cur c') ∧
      Wrote { s.me with csr := { s.me.csr with vl := min (s.me.x a).toNat 1024 } } c' d (BitVec.ofNat 64 (min (s.me.x a).toNat 1024)) (s.me.pc + 4)) ∧
    (T.code = tag.toNat → ∃ v, exec (.vcfg vd tag) s = .next (s.setCtx s.cur { gone s.me (s.me.pc + 4) with
        vregs := s.me.vregs.set vd.toNat v vd.isLt }) ∧ v.tag = T ∧
      (T ≠ .untagged → v.data = (s.me.v vd).data ∧ v.hwm = (s.me.v vd).hwm) ∧ (T = .untagged → v.hwm = 0)) ∧
    (s.me.vecs = [] → ∃ t, exec .vsync s = .next t ∧ VecEnd s t s.me) ∧
    (s.me.vecs ≠ [] → Waits .vsync s .poll ∧ Waits (.vsetl d a) s .poll)

/-- R152, R153 on integer types: each instruction of major 0x19 whose operands are legal completes; every active element
below VL that the restart pattern leaves gets the exact integer result wrapped or saturated to its type, SA telling of
saturation, every other element keeps its value, and vd has the result's tag and mark. -/
def Obligations.VectorIntegerArithmetic : Prop :=
  ∀ (s : State) (i : Instr) (op : VOp) (vd va : BitVec 5) (yo : Option (BitVec 5 × BitVec 1)) (km : BitVec 3) (T : Tag) (W : Nat),
    let y := second s va yo
    let shift := op = .shl ∨ op = .shr
    OnCore s → arithOf i = some (op, vd, va, yo, km) → T.family = some .signed ∨ T.family = some .unsigned →
    ArithLegal s op vd va y (decide ((yo.map (·.2)) = some 1)) (decide (yo = none)) T W →
    let val (e : Nat) : Nat × Bool :=
      let x := asInt (s.me.v va).tag (rawElem (s.me.v va) e)
      let yv := if shift then (y.raw e : Int) else asInt y.tag (y.raw e)
      let z := asInt (s.me.v vd).tag (rawElem (s.me.v vd) e)
      match intResult op T x yv z with
      | some (r, sat) => ((r % 2 ^ (8 * T.width)).toNat, sat)
      | none =>
        let xb := (x % 2 ^ (8 * T.width)).toNat
        let yb := (yv % 2 ^ (8 * T.width)).toNat
        (if op = .and then xb &&& yb else if op = .or then xb ||| yb else xb ^^^ yb, false)
    let runs (e : Nat) : Bool := decide (e < s.me.csr.vl) && active s.me km e && toRun s.me.rst W e
    ∃ t c fl, exec i s = .next t ∧ VecEnd s t c ∧ VecChanged s.me c fl ∧ Destination s.me c vd T ∧
      (∀ e, e < 1024 / T.width → elemAt (c.v vd) T.width e = if runs e = true then (val e).1 else elemAt (s.me.v vd) T.width e) ∧
      fl = (if ∃ e < s.me.csr.vl, runs e = true ∧ (val e).2 = true then Flags.sa else 0)

namespace Sys2Proof.Claims

open Sys2Proof.Machine

/-- R152, R153 on float types: as for integers, each element being the operation of its format rounded once under FRM, the
flags of all elements gathered in VFLG; VABS and VNEG act on the sign bit alone, NaNs included, and set no flag. -/
def FloatInstructions : Prop :=
  ∀ (s : State) (i : Instr) (op : VOp) (vd va : BitVec 5) (yo : Option (BitVec 5 × BitVec 1)) (km : BitVec 3) (T : Tag) (W : Nat) (f : Fmt),
    let y := second s va yo
    OnCore s → arithOf i = some (op, vd, va, yo, km) → T.fmt = some f →
    ArithLegal s op vd va y (decide ((yo.map (·.2)) = some 1)) (decide (yo = none)) T W →
    let x (e : Nat) := operand (s.me.v va).tag (rawElem (s.me.v va) e)
    let z (e : Nat) := operand (s.me.v vd).tag (rawElem (s.me.v vd) e)
    let runs (e : Nat) : Bool := decide (e < s.me.csr.vl) && active s.me km e && toRun s.me.rst W e
    ∃ t c fl, ∃ g : Nat → Nat × Flags, exec i s = .next t ∧ VecEnd s t c ∧ VecChanged s.me c fl ∧ Destination s.me c vd T ∧
      (∀ e, runs e = true → FloatResult op f (frmOf s.me) (x e) (operand y.tag (y.raw e)) (z e) (g e).1 (g e).2) ∧
      (∀ e, e < 1024 / T.width → elemAt (c.v vd) T.width e = if runs e = true then (g e).1 else elemAt (s.me.v vd) T.width e) ∧
      fl = ((List.range s.me.csr.vl).filter runs).foldl (fun a e => a ||| (g e).2) 0

/-- R66 to R68, R72, R73: what the model's own operations on data, in which the statements on atomics speak, give on the codes of
the formats. -/
def FormatOperations : Prop :=
  fp32 = ⟨8, 23⟩ ∧ fp16 = ⟨5, 10⟩ ∧ bf16 = ⟨8, 7⟩ ∧
  ∀ (frm : BitVec 3) (x y : Nat), frm.toNat ≤ 4 → x < 2 ^ 32 → y < 2 ^ 32 →
    let o (n : Nat) : Operand := ⟨fp32, n⟩
    let gives (op : VOp) (q : Nat × Flags) : Prop := FloatResult op fp32 frm.toNat (o x) (o y) (o 0) q.1 q.2
    gives .add (fp32.add (Rounding.ofFrm frm) (fp32.read x) (fp32.read y)) ∧
    gives .min (fp32.minMax false (fp32.read x) (fp32.read y)) ∧
    gives .max (fp32.minMax true (fp32.read x) (fp32.read y))

end Sys2Proof.Claims

/-- R66 to R70, R72 to R74, R152, R153: the float arithmetic of major 0x19, and the operations on data that the statements on
atomics use. VEXP2 and VLOG2 are rounded as log 17 says. -/
def Obligations.VectorFloatArithmetic : Prop := FloatInstructions ∧ FormatOperations

/-- R80, R135: VMUL of two LNS8 registers adds the logarithms of its elements exactly; a sum above 15 saturates with OF and NX,
one below −15 is zero with UF and NX. -/
def Obligations.LogarithmicMultiply : Prop :=
  ∀ (s : State) (vd va vb : BitVec 5) (km : BitVec 3), OnCore s → (s.me.v va).tag = .lns8 → (s.me.v vb).tag = .lns8 →
    (s.me.v vd).tag = .lns8 → s.me.csr.vl ≤ 1024 →
    let code (r : BitVec 5) (e : Nat) : Nat := elemAt (s.me.v r) 1 e
    let lg (x : Nat) : Int := Int.bmod (x / 4) 32
    let sign (x : Nat) : Nat := x / 128
    let isNan (x : Nat) : Bool := decide (x / 4 = 0x30)
    let isZero (x : Nat) : Bool := decide (x / 4 = 0x10)
    let runs (e : Nat) : Bool := decide (e < s.me.csr.vl) && active s.me km e && toRun s.me.rst 1 e
    let val (e : Nat) : Nat × Flags :=
      let a := code va e
      let b := code vb e
      if isNan a || isNan b then (0xC0, 0) else if isZero a || isZero b then (0x40, 0)
      else if lg a + lg b < -15 then (0x40, flagIf 1 true ||| flagIf 0 true)
      else (((sign a + sign b) % 2) * 128 + (min (lg a + lg b) 15 % 32).toNat * 4,
        flagIf 2 (decide (15 < lg a + lg b)) ||| flagIf 0 (decide (15 < lg a + lg b)))
    ∃ t c fl, exec (.vmul vd va vb km 0) s = .next t ∧ VecEnd s t c ∧ VecChanged s.me c fl ∧ Destination s.me c vd .lns8 ∧
      (∀ e, e < 1024 → elemAt (c.v vd) 1 e = if runs e = true then (val e).1 else elemAt (s.me.v vd) 1 e) ∧
      fl = ((List.range s.me.csr.vl).filter runs).foldl (fun a e => a ||| (val e).2) 0

/-- R154, R73: a compare whose operands are legal completes and sets the bit of kd of every active element below VL that the
restart pattern leaves to the relation's truth: in the type's order for integers, per IEEE 754 for floats, where a
comparison with a NaN holds for VCNE alone and VFLG gathers NV of every element compared; every other bit of kd keeps its value, and a write to k0 is
discarded. -/
def Obligations.VectorCompares : Prop :=
  ∀ (s : State) (i : Instr) (r : Rel) (kd : BitVec 3) (va b : BitVec 5) (km : BitVec 3) (v : BitVec 1) (T : Tag) (W : Nat),
    let y := second s va (some (b, v))
    let tx := (s.me.v va).tag
    OnCore s →
    (r, i) = (.eq, .vceq kd va b km v) ∨ (r, i) = (.ne, .vcne kd va b km v) ∨ (r, i) = (.lt, .vclt kd va b km v) ∨
      (r, i) = (.le, .vcle kd va b km v) →
    ResultType [tx, y.tag] T → T ≠ .lns8 → (v = 1 → tx ≠ .untagged) → W = max T.width (max tx.width y.tag.width) →
    s.me.csr.vl * W ≤ 1024 →
    let x (e : Nat) := rawElem (s.me.v va) e
    let holds (e : Nat) : Bool :=
      if T.family = some .float then floatHolds r (operand tx (x e)) (operand y.tag (y.raw e))
      else
        let a := asInt tx (x e)
        let c := asInt y.tag (y.raw e)
        match r with
        | .eq => decide (a = c)
        | .ne => decide (a ≠ c)
        | .lt => decide (a < c)
        | .le => decide (a ≤ c)
    let runs (e : Nat) : Bool := decide (e < s.me.csr.vl) && active s.me km e && toRun s.me.rst W e
    ∃ t c fl, exec i s = .next t ∧ VecEnd s t c ∧
      c = { s.me with
        masks := c.masks
        csr := { s.me.csr with vflg := s.me.csr.vflg ||| fl } } ∧
      (∀ k, k ≠ 0 → k ≠ kd → ∀ e, active c k e = active s.me k e) ∧
      (kd ≠ 0 → ∀ e, active c kd e = if runs e = true then holds e else active s.me kd e) ∧
      fl = if T.family = some .float then ((List.range s.me.csr.vl).filter runs).foldl
        (fun a e => a ||| floatHoldsFlags r (operand tx (x e)) (operand y.tag (y.raw e))) 0 else 0

namespace Sys2Proof.Claims

open Sys2Proof.Machine

/-- A vector instruction whose register takes type `T`: the elements below `1024 / T.width` for which `new` gives a value have
it, the others keep theirs; tag and mark follow R138. -/
def VecWrites (s : State) (i : Instr) (vd : BitVec 5) (T : Tag) (fl : Flags) (new : Nat → Option Nat) : Prop :=
  ∃ t c, exec i s = .next t ∧ VecEnd s t c ∧ VecChanged s.me c fl ∧ Destination s.me c vd T ∧
    ∀ e, e < 1024 / T.width → elemAt (c.v vd) T.width e = (new e).getD (elemAt (s.me.v vd) T.width e)

/-- How many active elements lie below `e`. -/
def activeBelow (c : Ctx) (km : BitVec 3) (e : Nat) : Nat := howMany e (active c km)

/-- The `j`-th active element below VL. -/
def nthActive (c : Ctx) (km : BitVec 3) (j : Nat) : Option Nat := ((List.range c.csr.vl).filter (active c km))[j]?

/-- The count operand of a slide: a scalar whole, or element 0 of an integer register, with that register's width (R156). -/
def slideBy (s : State) (b : BitVec 5) (v : BitVec 1) (n w : Nat) : Prop :=
  (v = 1 ∧ n = (s.me.x b).toNat ∧ w = 0) ∨
  (v = 0 ∧ n = rawElem (s.me.v b) 0 ∧ w = (s.me.v b).tag.width ∧
    ((s.me.v b).tag.family = some .signed ∨ (s.me.v b).tag.family = some .unsigned))

/-- The terms of a reduction: the active elements below VL that a condition admits, ascending. -/
def terms (s : State) (va : BitVec 5) (km : BitVec 3) (p : Nat → Bool) : List Nat :=
  ((List.range s.me.csr.vl).filter fun e => active s.me km e && p e).map (elemAt (s.me.v va) (s.me.v va).tag.width)

/-- The sum of some elements of a type and its flags: modulo its width for integers; for floats the exact sum rounded once under
FRM (R157). -/
def SumOf (frm : Nat) (T : Tag) (xs : List Nat) (q : Nat × Flags) : Prop :=
  match T.fmt with
  | some f => SumResult f frm (xs.map (operand T)) q.1 q.2
  | none => q = (((xs.map (asInt T)).sum % 2 ^ (8 * T.width)).toNat, 0)

/-- The largest or smallest of some elements of a type and its flags (R73, R157). -/
def ExtremeOf (most : Bool) (T : Tag) (xs : List Nat) (q : Nat × Flags) : Prop :=
  match T.fmt with
  | some f => ExtremeResult most f (xs.map (operand T)) q.1 q.2
  | none => q.1 ∈ xs ∧ q.2 = 0 ∧ ∀ x ∈ xs, if most = true then asInt T x ≤ asInt T q.1 else asInt T q.1 ≤ asInt T x

/-- The types that reductions and scans take (R157). -/
def Addable (T : Tag) : Prop := T.family = some .signed ∨ T.family = some .unsigned ∨ T.family = some .float

/-- A mask after a mask operation: the quarters that the restart pattern leaves are new, the others keep their bits (R160). -/
def maskAfter (s : State) (kd : BitVec 3) (f : Nat → Bool) (e : Nat) : Bool :=
  let q := e / 256
  if s.me.rst.getLsbD (16 * q + 15) = false ∧ s.me.rst.toNat / 2 ^ (16 * q) % 2 ^ 11 ≤ 256 * q then f e else active s.me kd e

end Sys2Proof.Claims

/-- R155, R156: the cross-cluster permutes complete once older vector instructions of their context are complete. All sources
are read before any write, and with VL = 0 nothing is: VSLIDE1 moves the register down by one element and inserts the scalar at the top; VSLIDEDN and
VSLIDEUP move by their count, zero entering; VPERM gathers by index; VCMPR packs the active elements; VEXPD spreads them. -/
def Obligations.VectorPermutes : Prop :=
  ∀ (s : State) (vd va b : BitVec 5) (km : BitVec 3) (v : BitVec 1) (n w : Nat),
    let vl := s.me.csr.vl
    let T := (s.me.v va).tag
    let D := (s.me.v vd).tag
    let x (e : Nat) := elemAt (s.me.v va) T.width e
    let ix (e : Nat) := rawElem (s.me.v b) e
    let on (e : Nat) : Bool := decide (e < vl) && active s.me km e
    let fits (k : Nat) : Prop := vl * max T.width k ≤ 1024
    let same : Prop := D ≠ .untagged ∧ D.width = T.width
    OnCore s → s.me.vecs = [] →
    (D ≠ .untagged → vl * D.width ≤ 1024 → VecWrites s (.vslide1 vd b km) vd D 0 fun e =>
      if on e then some (if e + 1 < vl then elemAt (s.me.v vd) D.width (e + 1) else (s.me.x b).toNat % 2 ^ (8 * D.width)) else none) ∧
    (T ≠ .untagged → slideBy s b v n w → fits w → (va = vd ∨ (v = 0 ∧ b = vd) → same) →
      VecWrites s (.vslidedn vd va b km v) vd T 0 (fun e => if on e then some (if e + n < vl then x (e + n) else 0) else none) ∧
      VecWrites s (.vslideup vd va b km v) vd T 0 (fun e => if on e && decide (n ≤ e) then some (x (e - n)) else none)) ∧
    (T ≠ .untagged → ((s.me.v b).tag.family = some .signed ∨ (s.me.v b).tag.family = some .unsigned) → fits (s.me.v b).tag.width →
      (va = vd ∨ b = vd → same) →
      VecWrites s (.vperm vd va b km) vd T 0 fun e => if on e then some (if ix e < vl then x (ix e) else 0) else none) ∧
    (T ≠ .untagged → fits 0 → (va = vd → same) →
      VecWrites s (.vcmpr vd va km) vd T 0 (fun e => if e < vl then (nthActive s.me km e).map x else none) ∧
      VecWrites s (.vexpd vd va km) vd T 0 (fun e => if on e then some (x (activeBelow s.me km e)) else none))

/-- R156, R158, R159: VSEL, VCVT, VSPLAT and VMV complete; VSEL takes va where the mask is set and vb elsewhere, an untagged
one reading zero; VCVT converts each active element to its type, rounding and saturating as R75, R77 and R79 say; VSPLAT writes the scalar's low bytes; VMV copies. -/
def Obligations.VectorMoves : Prop :=
  ∀ (s : State) (vd va b : BitVec 5) (km : BitVec 3),
    let vl := s.me.csr.vl
    let A := (s.me.v va).tag
    let B := (s.me.v b).tag
    let D := (s.me.v vd).tag
    let runs (W e : Nat) : Bool := decide (e < vl) && toRun s.me.rst W e
    OnCore s →
    (∀ T, T ≠ .untagged → (A = T ∧ (B = T ∨ B = .untagged)) ∨ (A = .untagged ∧ B = T) → vl * T.width ≤ 1024 →
      (va = vd ∨ b = vd → D ≠ .untagged ∧ D.width = T.width) →
      VecWrites s (.vsel vd va b km) vd T 0 fun e =>
        if runs T.width e then some (if active s.me km e then rawElem (s.me.v va) e else rawElem (s.me.v b) e) else none) ∧
    (∀ (T : Tag) (tag : BitVec 4), T ≠ .untagged → T.code = tag.toNat → A ≠ .untagged → vl * max A.width T.width ≤ 1024 →
      (va = vd → A.width = T.width) →
      let on (e : Nat) : Bool := runs (max A.width T.width) e && active s.me km e
      ∃ g : Nat → Nat × Flags,
        (∀ e, on e = true → Converted (frmOf s.me) A T 0 0 0 (rawElem (s.me.v va) e) (g e).1 (g e).2) ∧
        VecWrites s (.vcvt vd va km tag) vd T (((List.range vl).filter on).foldl (fun a e => a ||| (g e).2) 0)
          fun e => if on e = true then some (g e).1 else none) ∧
    (∀ (T : Tag) (tag : BitVec 5), T ≠ .untagged → T.code = tag.toNat → vl * T.width ≤ 1024 →
      VecWrites s (.vsplat vd tag b km) vd T 0 fun e =>
        if runs T.width e && active s.me km e then some ((s.me.x b).toNat % 2 ^ (8 * T.width)) else none) ∧
    (A ≠ .untagged → vl * A.width ≤ 1024 →
      VecWrites s (.vmv vd va km) vd A 0 fun e => if runs A.width e && active s.me km e then some (rawElem (s.me.v va) e) else none)

/-- R159: VINS writes one element of a tagged register, whatever VL is; VEXT brings one element to a scalar register, extended
by its family; VIOTA numbers the elements by the set mask bits below them. The latter two wait for older vector instructions. -/
def Obligations.VectorInsertExtractIota : Prop :=
  ∀ (s : State) (vd va a b d : BitVec 5) (km : BitVec 3), OnCore s →
    let D := (s.me.v vd).tag
    let A := (s.me.v va).tag
    (D ≠ .untagged → (s.me.x a).toNat * D.width < 1024 →
      ∃ t c, exec (.vins vd a b) s = .next t ∧ VecEnd s t c ∧ VecChanged s.me c 0 ∧ (∀ r, r ≠ vd → c.v r = s.me.v r) ∧
        if toRun s.me.rst D.width (s.me.x a).toNat = true then
          (c.v vd).tag = D ∧ (c.v vd).hwm = max (s.me.v vd).hwm ((((s.me.x a).toNat + 1) * D.width + 63) / 64) ∧
          ∀ e, e < 1024 / D.width → elemAt (c.v vd) D.width e =
            if e = (s.me.x a).toNat then (s.me.x b).toNat % 2 ^ (8 * D.width) else elemAt (s.me.v vd) D.width e
        else c.v vd = s.me.v vd) ∧
    (A ≠ .untagged → (s.me.x b).toNat * A.width < 1024 → s.me.vecs = [] →
      ∃ t c k, exec (.vext d va b) s = .next t ∧ VecEnd s t c ∧
        Wrote s.me k d (BitVec.ofInt 64 (asInt A (rawElem (s.me.v va) (s.me.x b).toNat))) s.me.pc ∧ c = { k with wait := s.me.wait }) ∧
    (∀ T, T = (if D = .untagged then Tag.i32 else D) → T.family = some .signed ∨ T.family = some .unsigned → s.me.vecs = [] →
      s.me.csr.vl * T.width ≤ 1024 →
      VecWrites s (.viota vd km) vd T 0 fun e =>
        if e < s.me.csr.vl then some (activeBelow s.me km e % 2 ^ (8 * T.width)) else none) ∧
    (s.me.vecs ≠ [] → Waits (.vext d va b) s .poll ∧ Waits (.viota vd km) s .poll)

/-- R157: reductions write element 0 alone, and scans every active element, with the sum of the active elements, or of those
up to or below each (a float sum being exact and rounded once); VRMAX and VRMIN write the largest or the smallest, per R73 for
floats, and with no active element change no register, as nothing does with VL = 0. -/
def Obligations.ReductionsAndScans : Prop :=
  ∀ (s : State) (vd va : BitVec 5) (km : BitVec 3),
    let T := (s.me.v va).tag
    let vl := s.me.csr.vl
    let all := terms s va km fun _ => true
    let same (i : Instr) : Prop := ∃ t, exec i s = .next t ∧ VecEnd s t s.me
    let one (i : Instr) (is : Nat × Flags → Prop) : Prop := ∃ t c q, exec i s = .next t ∧ VecEnd s t c ∧ VecChanged s.me c q.2 ∧ is q ∧
      (∀ k, k ≠ vd → c.v k = s.me.v k) ∧ (c.v vd).tag = T ∧ (c.v vd).hwm = max (s.me.v vd).hwm 1 ∧
      ∀ e, e < 1024 / T.width → elemAt (c.v vd) T.width e = if e = 0 then q.1 else elemAt (s.me.v vd) T.width e
    OnCore s → s.me.vecs = [] → Addable T → vl * T.width ≤ 1024 →
    (0 < vl → one (.vrsum vd va km) (SumOf (frmOf s.me) T all)) ∧
    (all ≠ [] → one (.vrmax vd va km) (ExtremeOf true T all) ∧ one (.vrmin vd va km) (ExtremeOf false T all)) ∧
    (vl = 0 → same (.vrsum vd va km)) ∧
    (all = [] → same (.vrmax vd va km) ∧ same (.vrmin vd va km)) ∧
    (∀ i p, (i = .vscan vd va km ∧ p = fun e j => decide (j ≤ e)) ∨ (i = .vscanx vd va km ∧ p = fun (e j : Nat) => decide (j < e)) →
      ∃ g : Nat → Nat × Flags,
        (∀ e, e < vl → active s.me km e = true → SumOf (frmOf s.me) T (terms s va km (p e)) (g e)) ∧
        VecWrites s i vd T (((List.range vl).filter (active s.me km)).foldl (fun a e => a ||| (g e).2) 0)
          fun e => if e < vl ∧ active s.me km e = true then some (g e).1 else none)

/-- R160: KAND, KOR, KXOR, KNOT and KMV work on all 1,024 bits (each quarter that a restart pattern leaves), a write to k0
being discarded; KPOP counts the set bits below VL, and KFF gives the lowest of them or VL. -/
def Obligations.MaskOperations : Prop :=
  ∀ (s : State) (kd ka kb : BitVec 3) (d : BitVec 5), OnCore s →
    let A := active s.me ka
    let B := active s.me kb
    let vl := s.me.csr.vl
    (∀ i f, (i, f) = (Instr.kand kd ka kb, fun e => A e && B e) ∨ (i, f) = (.kor kd ka kb, fun e => A e || B e) ∨
        (i, f) = (.kxor kd ka kb, fun e => A e != B e) ∨ (i, f) = (.knot kd ka, fun e => !A e) ∨ (i, f) = (.kmv kd ka, A) →
      ∃ t c, exec i s = .next t ∧ VecEnd s t c ∧ c = { s.me with masks := c.masks } ∧
        (∀ k, k ≠ kd → ∀ e, active c k e = active s.me k e) ∧
        (kd ≠ 0 → ∀ e, e < 1024 → active c kd e = maskAfter s kd f e)) ∧
    (s.me.vecs = [] → ∀ i n, (i = .kpop d ka ∧ n = howMany vl A) ∨ (i = .kff d ka ∧ n ≤ vl ∧ (∀ e < n, A e = false) ∧ (n < vl → A n = true)) →
      ∃ t c k, exec i s = .next t ∧ VecEnd s t c ∧ Wrote s.me k d (BitVec.ofNat 64 n) s.me.pc ∧ c = { k with wait := s.me.wait })

/-- R27, R40, R41, R145, R148, R352: every instruction of the vector unit raises ILLEGAL-INSTRUCTION on a QCC, and every tile
instruction on a vector core, before any other check, with TVAL the instruction's word; a word of a reserved major is no
instruction; an S-level instruction at level U raises PRIVILEGE with TVAL its word; vector arithmetic on untagged sources
alone, or with VL x W above 1,024, raises ILLEGAL-OPERAND and keeps the restart pattern in EPX. -/
def Obligations.RefusedInstructions : Prop :=
  (∀ w : BitVec 32, (w.toNat / 2 ^ 26 = 0 → decode w = .error .zeroMajor) ∧
    (0x2F ≤ w.toNat / 2 ^ 26 → w.toNat / 2 ^ 26 ≤ 0x3E → decode w = .error .reservedMajor) ∧
    (w.toNat / 2 ^ 26 = 0x3F → decode w = .error .undefinedMajor)) ∧
  ∀ (s : State) (i : Instr), MayTrap s →
    (∀ w, encode i = some w → 128 ≤ s.cur.unit.val → 0x18 ≤ w.toNat / 2 ^ 26 → w.toNat / 2 ^ 26 ≤ 0x23 →
      Traps i s 0x01 (BitVec.ofNat 64 w.toNat)) ∧
    (∀ w, encode i = some w → OnCore s → w.toNat / 2 ^ 26 = 0x27 ∨ w.toNat / 2 ^ 26 = 0x28 → Traps i s 0x01 (BitVec.ofNat 64 w.toNat)) ∧
    (∀ d a r b c o, s.me.sup = false →
      i ∈ [.start d a, .bist d, .tlbi a, .tlbiAll, .rcommit, .sendMsg r a b 1 o, .putMsg r a b c 1 o, .getMsg r a b c 1] →
      Traps i s 0x0C (wordVal i)) ∧
    (∀ op vd va b v km, OnCore s → arithOf i = some (op, vd, va, some (b, v), km) →
      ((s.me.v va).tag = .untagged ∧ (s.me.v b).tag = .untagged ∧ (s.me.v vd).tag = .untagged) ∨
        1024 < s.me.csr.vl * (s.me.v va).tag.width →
      exec i s = .next (s.setCtx s.cur (entered s.me false 0x02 0 s.me.pc s.me.rst)))

namespace Sys2Proof.Claims

open Sys2Proof.Machine

/-! ## Vector memory instructions -/

/-- A vector memory access as its operands make it: register, mask, element bytes, group width, element addresses, and what
is checked first (R112). -/
structure VecAccess where
  vd   : BitVec 5
  km   : BitVec 3
  EW   : Nat
  W    : Nat
  ea   : Nat → Word
  good : Prop

/-- An index register: its tag is I or N and it holds VL elements. -/
def Indexes (s : State) (c : BitVec 5) : Prop :=
  ((s.me.v c).tag.family = some .signed ∨ (s.me.v c).tag.family = some .unsigned) ∧ s.me.csr.vl * (s.me.v c).tag.width ≤ 1024

/-- The three address forms (R112), modulo 2^64. -/
def unitEa (s : State) (base : BitVec 5) (EW e : Nat) : Word := BitVec.ofNat 64 ((s.me.x base).toNat + e * EW)
def strideEa (s : State) (base c : BitVec 5) (e : Nat) : Word := BitVec.ofNat 64 ((s.me.x base).toNat + e * (s.me.x c).toNat)
def indexEa (s : State) (base c : BitVec 5) (e : Nat) : Word :=
  BitVec.ofInt 64 ((s.me.x base).toNat + asInt (s.me.v c).tag (rawElem (s.me.v c) e))

def vecLoadOf (s : State) : Instr → Option VecAccess
  | .vld d b k _ _ _ w => some ⟨d, k, 2 ^ w.toNat, 2 ^ w.toNat, unitEa s b (2 ^ w.toNat), True⟩
  | .vlds d b c k _ _ _ w => some ⟨d, k, 2 ^ w.toNat, 2 ^ w.toNat, strideEa s b c, True⟩
  | .vldx d b c k _ _ _ w => some ⟨d, k, 2 ^ w.toNat, max (2 ^ w.toNat) (s.me.v c).tag.width, indexEa s b c, Indexes s c⟩
  | _ => none

def vecStoreOf (s : State) : Instr → Option VecAccess
  | .vst d b k _ _ _ w => some ⟨d, k, 2 ^ w.toNat, 2 ^ w.toNat, unitEa s b (2 ^ w.toNat), True⟩
  | .vsts d b c k _ _ _ w => some ⟨d, k, 2 ^ w.toNat, 2 ^ w.toNat, strideEa s b c, True⟩
  | .vstx d b c k _ _ _ w => some ⟨d, k, 2 ^ w.toNat, max (2 ^ w.toNat) (s.me.v c).tag.width, indexEa s b c, Indexes s c⟩
  | _ => none

/-- The elements that an access performs. -/
def VecAccess.runs (x : VecAccess) (s : State) (e : Nat) : Bool :=
  decide (e < s.me.csr.vl) && active s.me x.km e && toRun s.me.rst x.W e

/-- The access may be performed whole: legal operands, and every element to perform aligned and in DRAM, under flat addresses
and outside a fork. -/
def VecAccess.Clear (x : VecAccess) (s : State) : Prop :=
  OnCore s ∧ s.me.chunk = none ∧ Flat s s.me.sup s.me.csr.ptroot ∧ x.good ∧ s.me.csr.vl * x.EW ≤ 1024 ∧
  ∀ e, x.runs s e = true → (x.ea e).toNat % x.EW = 0 ∧ (x.ea e).toNat + x.EW ≤ s.dramEnd

/-- Operands are legal, some element to perform is misaligned, `f` the lowest such, and the aligned ones are in DRAM; the context may
take its trap. -/
def VecAccess.Fails (x : VecAccess) (s : State) (f : Nat) : Prop :=
  OnCore s ∧ MayTrap s ∧ s.me.vecs = [] ∧ Flat s s.me.sup s.me.csr.ptroot ∧ x.good ∧ s.me.csr.vl * x.EW ≤ 1024 ∧
  (∀ e, x.runs s e = true → (x.ea e).toNat % x.EW = 0 → (x.ea e).toNat + x.EW ≤ s.dramEnd) ∧
  x.runs s f = true ∧ (x.ea f).toNat % x.EW ≠ 0 ∧ ∀ e, e < f → x.runs s e = true → (x.ea e).toNat % x.EW = 0

/-- Where cluster `q` stops: its first misaligned element, or 1024, past every element (R145). -/
def VecAccess.stop (x : VecAccess) (s : State) (q : Nat) : Nat :=
  ((List.range s.me.csr.vl).find? fun e => x.runs s e && decide ((x.ea e).toNat % x.EW ≠ 0) && decide (x.W * e / 64 % 4 = q)).getD 1024

/-- The elements that are performed before the clusters stop. -/
def VecAccess.gets (x : VecAccess) (s : State) (e : Nat) : Bool := x.runs s e && decide (e < x.stop s (x.W * e / 64 % 4))

/-- The context `c` takes the trap MISALIGNED of element `f` of the instruction at the PC, EPX recording where the clusters stopped. -/
def VecAccess.trapped (x : VecAccess) (s : State) (f : Nat) (c : Ctx) : Ctx :=
  entered c false 0x03 (x.ea f) s.me.pc (fieldsOf ((List.range 4).map fun q => (16 * q, 11, x.stop s q)))

/-- The byte at an address lies in element `e`, addresses being taken modulo 2^64. -/
def VecAccess.covers (x : VecAccess) (e a : Nat) : Bool := decide (a < 2 ^ 64) && decide ((BitVec.ofNat 64 a - x.ea e).toNat < x.EW)

/-- A vector atomic: data, base, index, mask, element bytes, whether its data tag is allowed, and the operation on the old
value and the element (R236, R237). -/
def vecAtomicOf (s : State) : Instr → Option (VecAccess × (Nat → Nat → Nat × Flags))
  | .vamoAdd d b c k _ _ w => some (⟨d, k, 4 + 4 * w.toNat, 0, indexEa s b c, ints d w ∧ Indexes s c⟩,
      fun old x => ((old + x) % 2 ^ (8 * (4 + 4 * w.toNat)), 0))
  | .vamoMin d b c k _ _ w => some (⟨d, k, 4 + 4 * w.toNat, 0, indexEa s b c, ints d w ∧ Indexes s c⟩,
      fun old x => (if asInt (s.me.v d).tag x < asInt (s.me.v d).tag old then x else old, 0))
  | .vamoMax d b c k _ _ w => some (⟨d, k, 4 + 4 * w.toNat, 0, indexEa s b c, ints d w ∧ Indexes s c⟩,
      fun old x => (if asInt (s.me.v d).tag old < asInt (s.me.v d).tag x then x else old, 0))
  | .vamoFadd d b c k _ _ => some (⟨d, k, 4, 0, indexEa s b c, (s.me.v d).tag = .fp32 ∧ Indexes s c⟩,
      fun old x => fp32.add (Rounding.ofFrm s.me.csr.frm) (fp32.read old) (fp32.read x))
  | _ => none
where
  ints (d : BitVec 5) (w : BitVec 1) : Prop :=
    ((s.me.v d).tag.family = some .signed ∨ (s.me.v d).tag.family = some .unsigned) ∧ (s.me.v d).tag.width = 4 + 4 * w.toNat

/-- Memory as a function, and the number in `n` bytes of it. -/
def number (m : Nat → Byte) (a n : Nat) : Nat := ((List.range n).map fun k => (m (a + k)).toNat * 256 ^ k).sum

/-- Memory with the `n` low bytes of a number at an address. -/
def withNumber (m : Nat → Byte) (a n v : Nat) : Nat → Byte := fun b => if a ≤ b ∧ b < a + n then BitVec.ofNat 8 (v / 256 ^ (b - a)) else m b

/-- Elements performed one after the other as atomics: memory and the flags gathered. -/
def performed (x : VecAccess) (elem : Nat → Nat) (op : Nat → Nat → Nat × Flags) (m : Nat → Byte) (es : List Nat) : (Nat → Byte) × Flags :=
  es.foldl (fun acc e =>
    let r := op (number acc.1 (x.ea e).toNat x.EW) (elem e)
    (withNumber acc.1 (x.ea e).toNat x.EW r.1, acc.2 ||| r.2)) (m, 0)

/-- The operation of a VAMO some of whose passes are still to be made (R237). -/
def passOp (y : VamoRest) (old x : Nat) : Nat × Flags :=
  if y.fn = 0 then ((old + x) % 2 ^ (8 * y.ew), 0)
  else if y.fn = 1 then (if asInt y.tag x < asInt y.tag old then x else old, 0)
  else if y.fn = 2 then (if asInt y.tag old < asInt y.tag x then x else old, 0)
  else fp32.add (Rounding.ofFrm y.frm) (fp32.read old) (fp32.read x)

/-- The elements of the next pass, the first at each address, or the others, which lose (R237). -/
def inPass (y : VamoRest) (wins : Bool) : List (Word × Nat × Nat) :=
  (y.elems.zipIdx.filter fun p => (y.elems.take p.2).all (fun q => decide (q.1 ≠ p.1.1)) == wins).map (·.1)

/-- One pass: the elements in order, each an atomic at its physical address. -/
def passed (y : VamoRest) (m : Nat → Byte) : (Nat → Byte) × Flags :=
  (inPass y true).foldl (fun acc e =>
    let r := passOp y (number acc.1 e.2.1 y.ew) e.2.2
    (withNumber acc.1 e.2.1 y.ew r.1, acc.2 ||| r.2)) (m, 0)

/-- Groups of a vector instruction have entered their pipes: energy is debited, and what a context traces is noted (R349, R379). -/
def GroupsEntered (s t : State) : Prop :=
  t = { s with
    ctxs := t.ctxs
    rings := t.rings
    cores := t.cores } ∧ OthersKept s t ∧ (s.me.csr.trcctl.toNat % 4 = 0 → ∀ u : CtxId, t.core u.die u.unit.val = s.core u.die u.unit.val)

/-- A context as a store may leave it (R249, R286, R381). -/
def StoredFrom (c c' : Ctx) : Prop :=
  c' = { c with
    woken := c'.woken
    relFence := c'.relFence }

end Sys2Proof.Claims

/-- R112: a vector load that may be performed whole completes: every active element below VL gets the little-endian number at
its address, the other elements keep their values; vd keeps its tag if its width is the access's, else takes the signed tag
of that width, and its mark covers VL elements; memory is as it was. R113, R145: with a misaligned element each cluster stops at its
first one; tag, mark and the elements below stand, and the trap of the lowest is taken, EPX holding the four points. -/
def Obligations.VectorLoads : Prop :=
  ∀ (s : State) (i : Instr) (x : VecAccess), vecLoadOf s i = some x → s.poison = [] → loadsOut s s.cur < 31 →
    let T := if (s.me.v x.vd).tag.width = x.EW then (s.me.v x.vd).tag
      else if x.EW = 1 then .i8 else if x.EW = 2 then .i16 else if x.EW = 4 then .i32 else .i64
    (x.Clear s → ∃ s1 t k c, exec i s = .next t ∧ s1 = { s with regions := s1.regions } ∧
      VecEndOf (decide (0 < s.me.csr.vl)) false false s1 t c ∧ Noted k c ∧ VecChanged s.me k 0 ∧
      Destination s.me k x.vd T ∧
      ∀ e, e < 1024 / x.EW → elemAt (k.v x.vd) x.EW e =
        if x.runs s e = true then littleEndian s.mem (x.ea e).toNat x.EW else elemAt (s.me.v x.vd) x.EW e) ∧
    (∀ f, x.Fails s f → ∃ (s0 s1 : State) (k c : Ctx), exec i s = .next (s1.setCtx s.cur (x.trapped s f c)) ∧
      s0 = { s with regions := s0.regions } ∧ GroupsEntered s0 s1 ∧ Noted k c ∧ VecChanged s.me k 0 ∧ Destination s.me k x.vd T ∧
      ∀ e, e < 1024 / x.EW → elemAt (k.v x.vd) x.EW e =
        if x.gets s e = true then littleEndian s.mem (x.ea e).toNat x.EW else elemAt (s.me.v x.vd) x.EW e)

/-- R112, R114: a vector store, outside a rollback domain, that may be performed whole completes: a byte that some active element
below VL covers holds the value of the highest such element, at a restart the value stored before if that element is not to be
performed again; every other byte of memory is as it was, and no register changes. R113, R145: with a misaligned element each
cluster stops at its first one; what the elements below wrote stands, and the trap of the lowest is taken. -/
def Obligations.VectorStores : Prop :=
  ∀ (s : State) (i : Instr) (x : VecAccess), vecStoreOf s i = some x → s.me.sealing = false → storesOut s s.cur < 31 →
    s.me.rin = 0 → Memory.wf s.mem = true →
    let highest (a : Nat) (p : Nat → Bool) : Option Nat :=
      (List.range s.me.csr.vl).reverse.find? fun e => active s.me x.km e && x.covers e a && p e
    let byte (a e : Nat) : Byte :=
      if x.runs s e = true then BitVec.ofNat 8 (elemAt (s.me.v x.vd) x.EW e / 256 ^ (a - (x.ea e).toNat)) else memGet s.mem a
    (x.Clear s → ∃ s1 t, exec i s = .next t ∧ StoreFrame s s1 ∧ StoredFrom s.me s1.me ∧
      VecEndOf false (decide (0 < s.me.csr.vl)) false s1 t s1.me ∧
      ∀ a, memGet t.mem a = ((highest a fun _ => true).map (byte a)).getD (memGet s.mem a)) ∧
    (∀ f, x.Fails s f → ∃ (s0 s1 : State) (c : Ctx), exec i s = .next (s1.setCtx s.cur (x.trapped s f c)) ∧ StoreFrame s s0 ∧
      StoredFrom s.me s0.me ∧ GroupsEntered s0 s1 ∧ Noted s0.me c ∧
      ∀ a, memGet s1.mem a = ((highest a fun e => !x.runs s e || x.gets s e).map (byte a)).getD (memGet s.mem a))

/-- R236 to R238: a VAMO, outside a rollback domain, whose operands are legal and whose active elements are aligned and in DRAM
completes once older vector instructions are complete, and waits until then: the elements are performed in ascending order, each
replacing its word by the operation on the word and the element, their flags go to VFLG, every other byte of memory and every
register is as it was. Of a VAMO between whose passes other parties' atomics have fallen, the next pass performs, of the elements left,
the first at each address. -/
def Obligations.VectorAtomics : Prop :=
  (∀ (s : State) (i : Instr) (q : VecAccess × (Nat → Nat → Nat × Flags)), vecAtomicOf s i = some q → OnCore s → s.me.chunk = none →
    s.me.sealing = false → s.me.vecs ≠ [] → Waits i s .poll) ∧
  (∀ (s : State) (i : Instr) (x : VecAccess) (op : Nat → Nat → Nat × Flags), vecAtomicOf s i = some (x, op) →
    OnCore s → s.me.chunk = none → Flat s s.me.sup s.me.csr.ptroot → x.good → s.me.csr.vl * x.EW ≤ 1024 →
    s.me.sealing = false → s.me.vecs = [] → storesOut s s.cur < 31 → s.poison = [] → s.me.rin = 0 →
    Memory.wf s.mem = true →
    let run := (List.range s.me.csr.vl).filter (active s.me x.km)
    (∀ e ∈ run, (x.ea e).toNat % x.EW = 0 ∧ (x.ea e).toNat + x.EW ≤ s.dramEnd) →
    let after := performed x (elemAt (s.me.v x.vd) x.EW) op (memGet s.mem) run
    ∃ s1 t c, exec i s = .next t ∧ StoreFrame s s1 ∧ StoredFrom s.me s1.me ∧
      VecEndOf false true true s1 t c ∧ VecChanged s1.me c after.2 ∧
      c.vregs = s.me.vregs ∧ ∀ a, memGet t.mem a = after.1 a) ∧
  ∀ (s : State) (u : CtxId) (v : VecPend) (rest : List VecPend) (y : VamoRest), (s.ctx u).vecs = v :: rest → v.rest = some y → y.tag ≠ .untagged →
    (s.ctx u).rin = 0 → (s.ctx u).chunk = none → s.poison = [] → Memory.wf s.mem = true → (∀ e ∈ y.elems, e.2.1 + y.ew ≤ s.dramEnd) →
    ∃ t, exec (.vectorInstructionComplete u) s = .next t ∧ StoreFrame { s with cur := u } { t with cur := u } ∧ t.cur = s.cur ∧
      (∀ a, memGet t.mem a = (passed y (memGet s.mem)).1 a) ∧
      t.ctx u = { s.ctx u with
        vecs := { v with rest := if inPass y false = [] then none else some { y with elems := inPass y false } } :: rest
        woken := (t.ctx u).woken
        relFence := (t.ctx u).relFence
        csr := { (s.ctx u).csr with vflg := (s.ctx u).csr.vflg ||| (passed y (memGet s.mem)).2 } }

/-- R249, R250: an evaluation of GCSLP that finds its condition met, or no element armed, completes: kd below VL tells the
elements whose location holds the expected value, its other bits and every other mask are as they were, and memory is as it
was. One that does not sleeps, watching the sectors of its locations, until a write to one of them; then GCSLP_WAKE lets it
evaluate afresh. -/
def Obligations.GuardedSleep : Prop :=
  ∀ (s : State) (kd : BitVec 3) (va vb : BitVec 5) (km : BitVec 3) (all : BitVec 1),
    let EW := (s.me.v vb).tag.width
    let armed := (List.range s.me.csr.vl).filter (active s.me km)
    let ea (e : Nat) : Nat := elemAt (s.me.v va) 8 e
    let sat (e : Nat) : Prop := littleEndian s.mem (ea e) EW = elemAt (s.me.v vb) EW e
    let done := armed = [] ∨ (all = 0 ∧ ∃ e ∈ armed, sat e) ∨ (all = 1 ∧ ∀ e ∈ armed, sat e)
    OnCore s → s.me.chunk = none → Flat s s.me.sup s.me.csr.ptroot → s.poison = [] → s.me.csr.vl ≤ 64 →
    ((s.me.v va).tag = .i64 ∨ (s.me.v va).tag = .n64) →
    ((s.me.v vb).tag ∈ [Tag.i32, .n32, .i64, .n64]) →
    (∀ e ∈ armed, ea e % EW = 0 ∧ ea e + EW ≤ s.dramEnd) →
    (done → ∃ s1 t c, exec (.gcslp kd va vb km all) s = .next t ∧ s1 = { s with regions := s1.regions } ∧ VecEnd s1 t c ∧
      c = { s.me with
        masks := c.masks
        seen := c.seen
        watch := []
        woken := false
        csr := { s.me.csr with scopechk := c.csr.scopechk } } ∧
      (∀ k, k ≠ 0 → k ≠ kd → ∀ e, active c k e = active s.me k e) ∧
      (kd ≠ 0 → ∀ e, active c kd e = true ↔ if e < s.me.csr.vl then e ∈ armed ∧ sat e else active s.me kd e = true)) ∧
    (¬done → ∃ t : State, exec (.gcslp kd va vb km all) s = .next t ∧
      t = { s with
        ctxs := t.ctxs
        regions := t.regions } ∧
      OthersKept s t ∧
      t.me = { s.me with
        watch := armed.map fun e => ea e / 64
        woken := false
        wait := some .sleep
        blocked := if s.me.wait = some .sleep then s.me.blocked else s.time } ∧
      ∀ b, exec (.gcslpWake s.cur) (t.setCtx s.cur { t.me with woken := b }) =
        .next (t.setCtx s.cur (if b then { t.me with
          wait := some .poll
          woken := false
          watch := [] } else { t.me with woken := false })))

namespace Sys2Proof.Claims

open Sys2Proof.Machine

/-! ## Forked loops -/

/-- Iterations of chunk `k` (R169). -/
def iterations (trip n k : Nat) : Word := BitVec.ofNat 64 (min n (trip - k * n))

/-- The vector registers and masks that FKVEC names (R166). -/
def namesV (fkvec : Word) (r : Nat) : Bool :=
  (List.range 4).any fun i => fkvec.getLsbD (8 * i + 5) && decide (fkvec.toNat / 2 ^ (8 * i) % 32 = r)
def namesK (fkvec : Word) (k : Nat) : Bool := decide (k ≠ 0) && fkvec.getLsbD (32 + k)

/-- The context has nothing of its own outstanding. -/
def Settled (c : Ctx) : Prop := c.vecs = [] ∧ c.accs = [] ∧ c.copies = []

/-- The instruction word at an ISTORE address of the issuing unit. -/
def wordAt (s : State) (a : Nat) : Nat := littleEndian (s.core s.cur.die s.cur.unit.val).istore a 4

/-- The issuing context runs chunk `ch` of fork `x`, outside a local fork. -/
def Runs (s : State) (x : Fork) (ch : Chunk) : Prop :=
  OnCore s ∧ s.me.chunk = some ch ∧ s.me.inner = none ∧ s.fork (s.forkIdOf s.cur) = some x

/-- Memory after the stores of some versions (those with W set, R185) have become committed ones: the last version that stored a
byte gives it. -/
def sewn (m : List Host.Cell) (vs : List Version) (a : Nat) : Byte :=
  match vs.reverse.find? fun v => v.w && decide (v.sector = a / 64) && v.bm.getLsbD (a % 64) with
  | some v => BitVec.ofNat 8 (v.data.toNat / 256 ^ (a % 64))
  | none => memGet m a

/-- What committing stores may touch beside memory: sleepers, other threads' forks, receive engines, poison, and the region
directory (R107). -/
def SewFrame (s t : State) : Prop :=
  t = { s with
    ctxs := t.ctxs
    rings := t.rings
    quads := t.quads
    forks := t.forks
    net := t.net
    mem := t.mem
    poison := t.poison
    regions := t.regions } ∧
  OthersWoken s t ∧ (∀ d q, t.quad d q = { s.quad d q with
    engines := (t.quad d q).engines
    werr := (t.quad d q).werr })

/-- A thread has moved from one context to another: the mutexes that it holds and its held device stores are its own there (R26,
R243, R325). -/
def ThreadMoved (s t : State) (a b : Holder) : Prop :=
  t.owners = s.owners.map (fun kh => (kh.1, if kh.2 = a then b else kh.2)) ∧
  ∀ d, t.die d = { s.die d with holds := (s.die d).holds.map fun h => if h.who = a then { h with who := b } else h }

/-- A value that a chunk has used, or may use. -/
def used : Incoming → Option Word
  | .await => none
  | .pred v => some v
  | .early v => some v
  | .final v => some v

/-- An unpick is due from chunk `j` on, unless one is due already from it or an older one. -/
def unpickDue (x : Fork) (j : Nat) (cause : SquashCause) (r : Option (BitVec 5 × Incoming)) : Option (Nat × SquashCause × Option (BitVec 5 × Incoming)) :=
  match x.due with
  | some d => if d.1 ≤ j then x.due else some (j, cause, r)
  | none => some (j, cause, r)

/-- A chunk holds a version of the sector. -/
def versionOf (ch : Chunk) (sector : Nat) (v : Version) : Prop := ch.versions.find? (fun w => decide (w.sector = sector)) = some v

end Sys2Proof.Claims

/-- R169, R172, R195, R198, R201: a FORK outside a chunk whose target is a JOIN word and whose context has nothing outstanding
completes: with chunks, chunk 0 starts here at PC + 4 with the registers of the fork, the iteration count in s[d], and the
vector registers and masks that FKVEC names; with none, the context is in the join phase at the JOIN. In a chunk it makes a
local fork, whose chunks its CHEND runs one after the other here, until its JOIN ends it. Any other JOIN, and one that is not the
first instruction of the join phase after entering or returning to it, raises ILLEGAL-OPERAND (R201). That a local FORK with no
iterations goes to its join phase is the model's choice (log 122). -/
def Obligations.ForkLoops : Prop :=
  ∀ (s : State) (d a b : BitVec 5) (off : BitVec 8) (ch : Chunk) (i : InnerFork),
    let trip := (s.me.x a).toNat
    let n := (s.me.x b).toNat
    let join := BitVec.ofNat 64 (s.me.pc.toNat + 4 * off.toNat)
    let count := (trip + n - 1) / n
    OnCore s →
    (s.me.inner = none → s.me.joinPhase = false → join.toNat < limit s.cur → wordAt s join.toNat = 0x90000300 → n ≠ 0 →
      (s.me.chunk = none → Settled s.me → (d ≠ 0 → s.me.csr.fkliv.getLsbD d.toNat = false) →
        ∃ t x, exec (.fork d a b off) s = .next t ∧
          t = { s with
            ctxs := t.ctxs
            forks := t.forks
            rings := t.rings } ∧
          OthersKept s t ∧ t.fork (s.forkIdOf s.cur) = some x ∧
          x.info = { x.info with
            addr := s.me.pc
            join := join
            d := d
            trip := trip
            n := n
            count := count
            oldest := 0
            lim := s.me.csr.fklim
            nopred := s.me.csr.nopred
            fkliv := s.me.csr.fkliv
            fkvec := s.me.csr.fkvec
            regs := s.me.regs
            vl := s.me.csr.vl } ∧
          (count = 0 → t.me = { s.me with
            joinPhase := true
            joinFirst := true
            pc := join
            wait := none }) ∧
          (0 < count → x.started = 1 ∧ ∃ c, t.me.chunk = some c ∧ c.number = 0 ∧ c.versions = [] ∧ c.through = false ∧ c.trap = none ∧
            t.me = { s.me with
              status := .live
              regs := t.me.regs
              vregs := t.me.vregs
              masks := t.me.masks
              pc := s.me.pc + 4
              epx := 0
              rst := 0
              prior := 0
              chunk := some c
              wait := none
              joinFirst := false
              passed := 0
              last := s.time } ∧
            (∀ r, t.me.x r = if r ≠ 0 ∧ r = d then iterations trip n 0 else s.me.x r) ∧
            (∀ r, t.me.v r = if namesV s.me.csr.fkvec r.toNat then s.me.v r else ⟨0, .untagged, 0⟩) ∧
            (∀ k : Fin 8, t.me.masks[k] = if namesK s.me.csr.fkvec k.val then s.me.masks[k] else 0))) ∧
      (s.me.chunk = some ch → ∃ c', exec (.fork d a b off) s = .next (s.setCtx s.cur c') ∧
        (count = 0 → c' = { gone s.me join with
          inner := some ⟨d, trip, n, 0, 0, s.me.pc + 4, join, true⟩
          joinFirst := true }) ∧
        (0 < count → Wrote { s.me with inner := some ⟨d, trip, n, count, 0, s.me.pc + 4, join, false⟩ } c' d
          (iterations trip n 0) (s.me.pc + 4)))) ∧
    (s.me.inner = some i → i.joining = false → ∃ c', exec .chend s = .next (s.setCtx s.cur c') ∧
      (i.number + 1 < i.count → Wrote { s.me with inner := some { i with number := i.number + 1 } } c' i.d
        (iterations i.trip i.n (i.number + 1)) i.body) ∧
      (i.count ≤ i.number + 1 → c' = { gone s.me i.join with
        inner := some { i with joining := true }
        joinFirst := true })) ∧
    (s.me.inner = some i → i.joining = true → s.me.joinFirst = true → s.me.pc = i.join →
      exec .join s = .next (s.setCtx s.cur { gone s.me (s.me.pc + 4) with
        inner := none
        joinFirst := false })) ∧
    (∀ x, (s.me.inner = some i ∧ (i.joining = false ∨ s.me.pc ≠ i.join)) ∨
        (s.me.inner = none ∧ s.fork (s.forkIdOf s.cur) = some x ∧ (s.me.joinPhase = false ∨ s.me.pc ≠ x.info.join)) ∨
        (s.me.inner = none ∧ s.fork (s.forkIdOf s.cur) = none) ∨ s.me.joinFirst = false → MayTrap s → Traps .join s 0x02 0)

/-- R184 to R187, R200, R202: CHEND of the oldest chunk, outside a rollback domain and with nothing outstanding, commits the
stores of its versions, every other byte of memory keeping its value. The last chunk's context goes on in the join phase;
another's hands its thread on with the token, with the mutexes and held device stores of the thread, and is free, and its carried
registers leave for the next chunk. CHUNK_OLDEST
brings the token there, and a trap that the chunk has recorded is now taken, with TCAUSE.DEF set (R191); JOIN in the join phase ends the fork and brings its flags. -/
def Obligations.ForkEnds : Prop :=
  ∀ (s : State) (x : Fork) (ch : Chunk), let f := s.forkIdOf s.cur
    (Runs s x ch → Settled s.me → s.me.sealing = false → s.me.rin = 0 → ch.number = x.info.oldest → Memory.wf s.mem = true →
      ∃ t, exec .chend s = .next t ∧ SewFrame s { t with
          dies := s.dies
          owners := s.owners } ∧
        (∀ a, memGet t.mem a = if ch.through then memGet s.mem a else sewn s.mem ch.versions a) ∧
        (x.info.count ≤ ch.number + 1 → t.dies = s.dies ∧ t.owners = s.owners ∧
          t.me = { gone s.me x.info.join with
            chunk := none
            joinPhase := true
            joinFirst := true
            woken := t.me.woken } ∧
          t.fork f = some { x with
            info := { x.info with oldest := x.info.count }
            flags := (x.flags.1 ||| s.me.csr.fflg, x.flags.2 ||| s.me.csr.vflg) }) ∧
        (ch.number + 1 < x.info.count → ThreadMoved s t (.here s.cur) (.here (s.chunkCtx f x (ch.number + 1))) ∧
          t.me.status = .free ∧ t.me.chunk = none ∧
          ∃ y h, t.fork f = some y ∧ y.token = some (ch.number + 1) ∧ y.handover = some h ∧ h.regs = s.me.regs ∧
            y.flags = (x.flags.1 ||| s.me.csr.fflg, x.flags.2 ||| s.me.csr.vflg) ∧
            (ch.sent = false → ∀ r : BitVec 5, r ≠ 0 → x.info.fkliv.getLsbD r.toNat = true →
              ⟨ch.number + 1, r, s.me.x r, true⟩ ∈ y.forwards))) ∧
    (∀ k h, s.fork f = some x → x.token = some k → x.handover = some h → x.quiet = true → k < x.started →
      let u := s.chunkCtx f x k
      let y := { x with
        info := { x.info with oldest := k }
        token := none
        handover := none }
      (((s.ctx u).chunk.map (·.trap)).getD none = none → ∃ c', exec (.chunkOldest f) s = .next ((s.setFork f y).setCtx u c') ∧
        c'.regs = (s.ctx u).regs ∧ c'.pc = (s.ctx u).pc ∧ c'.chunk = (s.ctx u).chunk ∧ c'.trb = h.trb ∧ c'.rin = h.rin ∧
        c'.slots = h.slots ∧ c'.snaps = h.snaps) ∧
      (∀ p c, (s.ctx u).chunk = some c → c.trap = some p → c.through = false → h.rin = 0 → (s.ctx u).csr.exl = false →
        (handler (s.ctx u) false).toNat < limit u → Memory.wf s.mem = true →
        ∃ t, exec (.chunkOldest f) s = .next t ∧ (∀ a, memGet t.mem a = sewn s.mem c.versions a) ∧
          (t.ctx u).chunk = some { c with
            trap := none
            versions := []
            through := true
            request := none } ∧
          (t.ctx u).sup = true ∧ (t.ctx u).pc = handler (s.ctx u) false ∧ (t.ctx u).epx = p.epx ∧ (t.ctx u).csr.xpc = p.xpc ∧
          (t.ctx u).csr.tval = p.tval ∧ (t.ctx u).csr.tcause = BitVec.ofNat 10 (p.cause.toNat + 512) ∧
          (t.ctx u).csr.exl = true ∧ (t.ctx u).csr.ie = false ∧ (t.ctx u).csr.plvl = (s.ctx u).sup ∧
          (t.ctx u).csr.pie = (s.ctx u).csr.ie ∧ (t.ctx u).regs = (s.ctx u).regs)) ∧
    (OnCore s → s.me.inner = none → s.fork f = some x → s.me.joinPhase = true → s.me.joinFirst = true → s.me.pc = x.info.join →
      exec .join s = .next ((s.dropFork f).setCtx s.cur { gone s.me (s.me.pc + 4) with
        joinPhase := false
        joinFirst := false
        csr := { s.me.csr with
          fflg := s.me.csr.fflg ||| x.flags.1
          vflg := s.me.csr.vflg ||| x.flags.2 } }))

/-- R173, R174, R199, R201, R203: FWD of a carried register sends its value to the next chunk, if there is one, and goes on;
NSPEC outside a fork has no effect; CHIDX gives the chunk's number, 0 outside a fork. A value arriving at a chunk that waits
for it becomes the register's, unless the chunk has written it; where it has used that very value nothing changes but
the state, where it has used another an unpick is due. A value for a chunk that an unpick due is to stop waits for the unpick, and values given at the start arrive in their order from the
first that differs: both are the model's reading (log 27). In the join phase of a local fork CHIDX is 0 by
the model's choice (log 28). -/
def Obligations.ForkForwards : Prop :=
  ∀ (s : State) (x : Fork) (ch : Chunk) (a d : BitVec 5), let f := s.forkIdOf s.cur
    (Runs s x ch → x.info.fkliv.getLsbD a.toNat = true →
      (ch.number + 1 < x.info.count → exec (.fwd a) s = .next ((s.setFork f { x with
        forwards := x.forwards ++ [⟨ch.number + 1, a, s.me.x a, false⟩] }).setCtx s.cur (gone s.me (s.me.pc + 4)))) ∧
      (x.info.count ≤ ch.number + 1 → GoesTo (.fwd a) s (s.me.pc + 4))) ∧
    (Runs s x ch → Writes (.chidx d) s d (BitVec.ofNat 64 ch.number) (s.me.pc + 4)) ∧
    (OnCore s → s.me.chunk = none → s.me.inner = none →
      GoesTo (.fwd a) s (s.me.pc + 4) ∧ Writes (.chidx d) s d 0 (s.me.pc + 4) ∧ GoesTo .nspec s (s.me.pc + 4)) ∧
    (∀ w rest, s.fork f = some x → x.forwards = w :: rest →
      let u := s.chunkCtx f x w.target
      let now := if w.fin then Incoming.final w.value else .early w.value
      (x.stopped w.target = true → exec (.forwardArrival f) s = .next s) ∧
      (x.stopped w.target = false → x.started ≤ w.target → exec (.forwardArrival f) s = .next (s.setFork f { x with
        forwards := rest
        given := x.given ++ [(w.target, w.reg, w.value, w.fin)] })) ∧
      (x.stopped w.target = false → w.target < x.started → (s.ctx u).chunk = some ch →
        (ch.incoming.find? fun p => decide (p.1 = w.reg)) = some (w.reg, .await) →
        ∃ c', exec (.forwardArrival f) s = .next ((s.setFork f { x with forwards := rest }).setCtx u c') ∧
          c' = { s.ctx u with
            regs := c'.regs
            chunk := some { ch with incoming := ch.incoming.map fun p => if p.1 = w.reg then (w.reg, now) else p } } ∧
          ∀ r : Fin 32, c'.regs[r] = if r.val = w.reg.toNat ∧ ch.written.getLsbD r.val = false then w.value else (s.ctx u).regs[r]) ∧
      (∀ i, x.stopped w.target = false → w.target < x.started → (s.ctx u).chunk = some ch →
        (ch.incoming.find? fun p => decide (p.1 = w.reg)) = some (w.reg, i) → used i = some w.value → (∀ v, i ≠ .final v) →
        exec (.forwardArrival f) s = .next ((s.setFork f { x with forwards := rest }).setCtx u { s.ctx u with
          chunk := some { ch with incoming := ch.incoming.map fun p => if p.1 = w.reg then (w.reg, if w.fin then .final w.value else i) else p } })) ∧
      (∀ i v, x.stopped w.target = false → w.target < x.started → (s.ctx u).chunk = some ch → (ch.incoming.find? fun p => decide (p.1 = w.reg)) = some (w.reg, i) →
        used i = some v → v ≠ w.value →
        ∃ y, exec (.forwardArrival f) s = .next (s.setFork f y) ∧ y = { x with
          forwards := rest
          info := { x.info with awaited := y.info.awaited }
          due := unpickDue x w.target .liv (some (w.reg, now)) }))

namespace Sys2Proof.Claims

open Sys2Proof.Machine

/-- R170, R175, R178 to R182: the next chunk of a fork starts on the next core of the ring when its context is free, with the
fork's registers and its own iteration count; a sector it asks for is filled from the nearest older chunk that has a version
of it, else from memory, and not before a store notice of the sector that is on its way to it, which is the model's reading (log 119); a
store of an older chunk, or a write from outside, to a sector it has read makes an unpick due, and
so does an oldest chunk that finds no way for a version; UNPICK frees the chunks from its first on, and they may start again. -/
def ChunkProgress : Prop :=
  ∀ (s : State) (f : ForkId) (x : Fork) (k : Nat), s.fork f = some x →
    let at_ (j : Nat) : CtxId := s.chunkCtx f x j
    let live (j : Nat) : Option Chunk := (s.ctx (s.chunkCtx f x j)).chunk
    (k = x.started → k ≠ 0 → k < x.info.count → k < x.sewn + s.effLimit f x → k < x.sewn + s.ringLen f.die f.quad.val → x.due = none →
      (s.ctx (at_ k)).status = .free → x.token.isSome = true ∨ (s.ctx (s.oldestCtx f x)).status = .live →
      (∀ p ∈ x.kept, p.1 ≠ k) → (∀ p ∈ x.given, p.1 ≠ k) →
      ∃ c', exec (.chunkStart f k) s = .next ((s.setFork f { x with started := k + 1 }).setCtx (at_ k) c') ∧
        c'.status = .live ∧ c'.pc = x.info.addr + 4 ∧ (x.info.d ≠ 0 → c'.x x.info.d = iterations x.info.trip x.info.n k) ∧
        (∀ r, r ≠ x.info.d → x.info.fkliv.getLsbD r.toNat = false → c'.x r = x.image.x r) ∧
        ∃ ch, c'.chunk = some ch ∧ ch.number = k ∧ ch.versions = []) ∧
    (∀ u ch sector rd (pa : BitVec 48), s.forkIdOf u = f → (s.ctx u).chunk = some ch → ch.request = some (sector, rd) →
      pa.toNat / 64 = sector → s.wayFor u ch sector = true → x.stopped ch.number = false →
      (∀ j, x.sewn ≤ j → j < ch.number → ∀ o, live j = some o → ∀ v ∈ o.versions, v.sector ≠ sector) →
      s.isPoisoned (64 * sector) 64 = false → (∀ m ∈ x.notices, m.sector = sector → ch.number < m.target) →
      ∃ t v, exec (.versionRequest u pa) s = .next t ∧ t = { s with
          ctxs := t.ctxs
          regions := t.regions } ∧
        t.ctx u = { s.ctx u with chunk := some { ch.putVersion v with request := none } } ∧
        v.sector = sector ∧ v.w = false ∧ v.bm = 0 ∧ v.rd = rd ∧
        ∀ b, b < 64 → v.data.toNat / 256 ^ b % 256 = (memGet s.mem (64 * sector + b)).toNat) ∧
    (∀ u ch sector rd (pa : BitVec 48), s.forkIdOf u = f → (s.ctx u).chunk = some ch → ch.request = some (sector, rd) →
      (∃ m ∈ x.notices, m.sector = sector ∧ m.target ≤ ch.number) → exec (.versionRequest u pa) s = .next s) ∧
    (∀ m rest ch v, x.notices = m :: rest → m.target < x.started → live m.target = some ch → versionOf ch m.sector v →
      m.mask &&& ~~~v.bm ≠ 0 →
      (v.rd = true → m.stamp = none → exec (.storeNotice f) s = .next (s.setFork f { x with
        notices := rest
        due := unpickDue x m.target .mem none })) ∧
      (v.rd = false → ∃ v', exec (.storeNotice f) s = .next ((s.setFork f { x with
          notices := { m with
            target := m.target + 1
            mask := m.mask &&& ~~~v.bm
            stamp := some (m.target, v.sc + 1) } :: rest }).setCtx (at_ m.target)
          { s.ctx (at_ m.target) with chunk := some (ch.putVersion v') }) ∧
        v' = { v with
          data := v'.data
          sc := v.sc + 1 } ∧
        ∀ b, b < 64 → v'.data.toNat / 256 ^ b % 256 =
          (if m.mask.getLsbD b && !v.bm.getLsbD b then m.data.toNat else v.data.toNat) / 256 ^ b % 256)) ∧
    (∀ (pa : BitVec 48) j ch v, pa.toNat / 64 ∈ x.conflict → x.info.oldest < j → j < x.started → live j = some ch →
      versionOf ch (pa.toNat / 64) v → v.rd = true →
      (∀ i, x.info.oldest < i → i < j → ∀ o, live i = some o → ∀ w ∈ o.versions, w.sector ≠ pa.toNat / 64) →
      exec (.conflictingWrite f pa) s = .next (s.setFork f { x with
        conflict := x.conflict.filter fun a => decide (a ≠ pa.toNat / 64)
        due := unpickDue x j .mem none })) ∧
    (∀ u y ch sector rd set m j far, s.fork (s.forkIdOf u) = some y → (s.ctx u).chunk = some ch → ch.number = y.info.oldest →
      ch.request = some (sector, rd) → set = sector / 2 % 128 → s.wayFor u ch sector = false →
      s.wayVictim set (slotMates u) none = some (m, j, far) → s.forkIdOf m = f →
      exec (.l1WayReclaim u set) s = .next (s.setFork f { x with due := unpickDue x j .cap none })) ∧
    (∀ j c r, x.due = some (j, c, r) → j < x.started →
      ∃ t y, exec (.unpick f j c) s = .next t ∧ t.fork f = some y ∧ y.started = j ∧ y.due = none ∧
        t = { s with
          ctxs := t.ctxs
          forks := t.forks
          cores := t.cores
          free := t.free } ∧
        ∀ i, j ≤ i → i < x.started → (t.ctx (at_ i)).status = .free ∧ (t.ctx (at_ i)).chunk = none)


/-- The context of a waiting instruction that has asked for a sector of its chunk. -/
def asking (s : State) (ch : Chunk) (sector : Nat) (rd : Bool) : Ctx :=
  { s.me with
    chunk := some { ch with request := some (sector, rd) }
    wait := some .poll
    blocked := if s.me.wait = some .poll then s.me.blocked else s.time }

/-- A chunk with one of its versions become another. -/
def withVersion (ch : Chunk) (v : Version) : Chunk :=
  { ch with versions := ch.versions.map fun w => if w.sector = v.sector then v else w }

/-- The bytes of a sector that an access touches. -/
def touched (pa n b : Nat) : Bool := decide (pa % 64 ≤ b) && decide (b < pa % 64 + n)

/-- R111, R177, R178: a scalar load of a chunk, from memory of normal kind, reads the chunk's own version of its sector where it
has one, and a basted chunk notes that it has read a byte it did not store; with no version the oldest chunk reads memory, and a
basted one waits, asking for the sector. -/
def ChunkLoads : Prop :=
  ∀ (s s1 : State) (x : Fork) (ch : Chunk) (i : Instr) (d base : BitVec 5) (off : BitVec 13) (n : Nat) (signed : Bool) (m : Mapping),
    let sec := m.pa / 64
    let oldest : Prop := ch.number = x.info.oldest
    loadOf i = some (d, base, off, n, signed) → Runs s x ch →
    Mapped s .load true (address s base off) n m s1 → IsMemory s m.pa → m.kind = 0 →
    (∀ v, versionOf ch sec v → ∃ t c, exec i s = .next t ∧ t = { s1 with ctxs := t.ctxs } ∧ OthersKept s t ∧
      Noted { s.me with chunk := some (if decide (ch.number = x.info.oldest) || (List.range 64).all fun b => !touched m.pa n b || v.bm.getLsbD b then ch
        else withVersion ch { v with rd := true }) } c ∧
      Wrote c t.me d (loaded n signed (v.data.toNat / 256 ^ (m.pa % 64) % 256 ^ n)) (s.me.pc + 4)) ∧
    ((∀ v ∈ ch.versions, v.sector ≠ sec) → oldest → s.isPoisoned m.pa n = false → ∃ t c, exec i s = .next t ∧
      t = { s1 with
        ctxs := t.ctxs
        regions := t.regions } ∧
      OthersKept s t ∧ Noted s.me c ∧ Wrote c t.me d (loaded n signed (littleEndian s.mem m.pa n)) (s.me.pc + 4)) ∧
    ((∀ v ∈ ch.versions, v.sector ≠ sec) → ¬oldest → exec i s = .next (s1.setCtx s.cur (asking s ch sec true)))

/-- R179, R187: a scalar store of a chunk, to memory of normal kind, changes its bytes of the chunk's version alone, and a store
notice with its stamp leaves for the next chunk that runs; with no version it waits, asking for the sector; a chunk that has been
sewn through stores to memory, and its notice has no stamp. -/
def ChunkStores : Prop :=
  ∀ (s s1 : State) (x : Fork) (ch : Chunk) (i : Instr) (d base : BitVec 5) (off : BitVec 13) (n : Nat) (m : Mapping),
    let sec := m.pa / 64
    let notice (k : Notice) : Prop := k.target = ch.number + 1 ∧ k.sector = sec ∧
      ∀ b, b < 64 → k.mask.getLsbD b = touched m.pa n b ∧
        (touched m.pa n b = true → k.data.toNat / 256 ^ b % 256 = (s.me.x d).toNat / 256 ^ (b - m.pa % 64) % 256)
    storeOf i = some (d, base, off, n) → Runs s x ch → s.me.sealing = false → storesOut s s.cur < 31 →
    Mapped s .store true (address s base off) n m s1 → IsMemory s m.pa → m.kind = 0 →
    (∀ v, ch.through = false → versionOf ch sec v → ∃ t v' k, exec i s = .next t ∧
      t = { s1 with
        ctxs := t.ctxs
        forks := t.forks
        lines := t.lines } ∧
      OthersKept s t ∧
      t.me = { gone s.me (s.me.pc + 4) with
        chunk := some (withVersion ch v')
        accs := s.me.accs ++ [⟨true, 0⟩]
        relFence := none
        csr := { s.me.csr with pmc := t.me.csr.pmc } } ∧
      v' = { v with
        w := true
        bm := v'.bm
        sc := v.sc + 1
        data := v'.data } ∧
      (∀ b, b < 64 → v'.bm.getLsbD b = (v.bm.getLsbD b || touched m.pa n b) ∧ v'.data.toNat / 256 ^ b % 256 =
        if touched m.pa n b = true then (s.me.x d).toNat / 256 ^ (b - m.pa % 64) % 256 else v.data.toNat / 256 ^ b % 256) ∧
      notice k ∧ k.stamp = some (ch.number, v.sc + 1) ∧
      t.fork (s.forkIdOf s.cur) = some (if ch.number + 1 < x.started then { x with notices := x.notices ++ [k] } else x)) ∧
    ((∀ v ∈ ch.versions, v.sector ≠ sec) → ch.through = false → exec i s = .next (s1.setCtx s.cur (asking s ch sec false))) ∧
    (ch.through = true → s.me.rin = 0 → ∃ t k y, exec i s = .next t ∧ StoreFrame s1 t ∧ Stored s.mem t.mem m.pa n (s.me.x d) ∧
      t.me = { gone s.me (s.me.pc + 4) with
        accs := s.me.accs ++ [⟨true, 0⟩]
        woken := t.me.woken
        relFence := none
        csr := { s.me.csr with pmc := t.me.csr.pmc } } ∧
      notice k ∧ k.stamp = none ∧ t.fork (s.forkIdOf s.cur) = some y ∧
      y.notices = if ch.number + 1 < x.started then x.notices ++ [k] else x.notices)

/-- The instructions of R188, with the conditions under which each is reached: its level, no check before it that fails. -/
def Irrevocable (s : State) (i : Instr) : Prop :=
  (∃ (r : BitVec 4) (a b c : BitVec 5) (op : BitVec 2) (o : BitVec 1) (k : BitVec 3),
    (s.me.binding = none ∧ i = .dsbind r a b) ∨ ((∀ q ∈ s.net, q.src ≠ some (.here s.cur)) ∧ i = .sendt r a b o) ∨
    i ∈ [.sendMsg r a b 0 o, .putMsg r a b c 0 o, .getMsg r a b c 0, .ramo r a b c op 0 o, .vscacc a b k, .vscfl]) ∨
  (∃ (n : BitVec 6) (a b c : BitVec 5), i ∈ [.cpy n a b c, .cpy2 n a b, .wtany a, .wtall a, .ffrdy a c, .trbclr a, .waitc a b c c, .wtml a b, .seala, .sealw]) ∨
  (∃ (d a b : BitVec 5) (w : BitVec 1) (o : BitVec 2) (c : BitVec 3), i ∈ [.amoadd d a b c o w, .amoand d a b c o w, .amoor d a b c o w, .amoxor d a b c o w,
    .amomin d a b c o w, .amomax d a b c o w, .amominu d a b c o w, .amomaxu d a b c o w, .amoswap d a b c o w, .amocas d a b c o w,
    .famoFadd d a b c o, .famoFmin d a b c o, .famoFmax d a b c o, .vamoAdd d a b c 0 0 w, .vamoMin d a b c 0 0 w, .vamoMax d a b c 0 0 w,
    .vamoFadd d a b c 0 0, .gcslp c a b 0 w]) ∨
  (∃ (d a : BitVec 5) (o : BitVec 2) (c : BitVec 3) (r : BitVec 1), (s.me.evld = none ∧ i = .evld d a) ∨ i ∈ [.fence c o, .bararr d a c r, .barwt d a c, .evsig d a, .spawn a, .wfe a,
    .trcmkStart a, .trcmkStop a]) ∨
  (∃ (d a : BitVec 5), s.me.sup = true ∧ i ∈ [.start d a, .tlbi a, .tlbiAll, .rcommit, .bist a, .eret]) ∨
  ∃ (d a : BitVec 5) (n : BitVec 12), (n = 0x001 ∨ n = 0x002 ∨ n = 0x003) ∧
    (i = .csrw d a n ∨ (a ≠ 0 ∧ i ∈ [.csrs d a n, .csrc d a n]))

/-- R188, R187, R202: a basted chunk waits at an irrevocable instruction, and at NSPEC, until it is the oldest. The oldest chunk is
sewn through first, its stores so far becoming memory, and then issues the instruction; an NSPEC that has waited only sews, one
that has not has no effect. -/
def ChunkIrrevocables : Prop :=
  ∀ (s : State) (x : Fork) (ch : Chunk) (i : Instr), Runs s x ch → s.me.sealing = false →
    (ch.number ≠ x.info.oldest → Irrevocable s i ∨ i = .nspec → Waits i s .poll) ∧
    (ch.number = x.info.oldest → ch.through = false → s.me.rin = 0 → Memory.wf s.mem = true →
      ∃ s1, SewFrame s s1 ∧ (∀ a, memGet s1.mem a = sewn s.mem ch.versions a) ∧
        s1.me = { s.me with
          woken := s1.me.woken
          chunk := some { ch with
            versions := []
            through := true
            request := none } } ∧
        (Irrevocable s i → exec i s = exec i s1) ∧
        (s.me.wait ≠ none → exec .nspec s = .next (s1.setCtx s1.cur (gone s1.me (s.me.pc + 4))))) ∧
    (ch.number = x.info.oldest → s.me.wait = none → GoesTo .nspec s (s.me.pc + 4))

/-- R191: a trap in a basted chunk, ECALL and BRK among them, is recorded with its values, and the chunk stops; in the oldest
chunk, once sewn through, it is taken at once. -/
def ChunkTraps : Prop :=
  ∀ (s : State) (x : Fork) (ch : Chunk) (i : Instr) (d base : BitVec 5) (off : BitVec 13) (n : Nat) (cause : BitVec 8) (val : Word),
    Runs s x ch → s.me.sealing = false →
    (∃ c : BitVec 12, i = .ecall c ∧ cause = 0x0B ∧ val = BitVec.ofNat 64 c.toNat) ∨
      (∃ c : BitVec 12, i = .brk c ∧ cause = 0x0A ∧ val = BitVec.ofNat 64 c.toNat) ∨
      ((∃ g, loadOf i = some (d, base, off, n, g)) ∨ storeOf i = some (d, base, off, n)) ∧ (address s base off).toNat % n ≠ 0 ∧
        cause = 0x03 ∧ val = address s base off →
    (ch.number ≠ x.info.oldest → exec i s = .next (s.setCtx s.cur { s.me with
      wait := some .poll
      chunk := some { ch with trap := some ⟨cause, val, s.me.pc, 0⟩ } })) ∧
    (ch.number = x.info.oldest → ch.through = true → s.me.csr.exl = false → (handler s.me false).toNat < limit s.cur →
      exec i s = .next (s.setCtx s.cur (entered s.me false cause val s.me.pc 0)))

end Sys2Proof.Claims

/-- How chunks start, get versions and values and are unpicked, and what their loads, stores, irrevocable actions and traps do. -/
def Obligations.ChunkEvents : Prop := ChunkProgress ∧ ChunkLoads ∧ ChunkStores ∧ ChunkIrrevocables ∧ ChunkTraps

namespace Sys2Proof.Claims

open Sys2Proof.Machine

/-! ## Tile instructions -/

/-- A tile instruction of a QCC may issue: no tile fault waits to be raised, and the queue is not full (R212, R213). -/
def TileReady (s : State) : Prop :=
  128 ≤ s.cur.unit.val ∧ s.me.chunk = none ∧ s.me.tile.fault = none ∧ s.me.tile.queue.length < 8

/-- The instruction is queued as the newest operation, with the next number unless it is a TZERO. -/
def Queues (i : Instr) (s : State) (acc : BitVec 2) (k : TileKind) (lv : Bool) (llen : Nat) : Prop :=
  let num : Option Word := if k = .zero then none else some (s.me.tile.issue + 1)
  exec i s = .next (({ s with seq := s.seq + 1 } : State).setCtx s.cur { gone s.me (s.me.pc + 4) with tile := { s.me.tile with
    lv := lv
    llen := llen
    issue := num.getD s.me.tile.issue
    queue := s.me.tile.queue ++ [{
      num := num
      order := s.seq
      acc := acc
      kind := k
      started := false
      done := false
      flags := 0
      rows := none
      reads := []
      writes := []
      owed := []
      half := false }] } })

/-- K-group, K limit and element width of the operand formats of TMMA (R207). -/
def shapeOf (a b c : Nat) : Option (Nat × Nat × Nat) :=
  if a ≠ b then none
  else if a = 11 ∧ c = 11 then some (2, 64, 4)
  else if (a = 9 ∨ a = 10) ∧ c = 11 then some (8, 128, 2)
  else if a = 1 ∧ c = 3 then some (32, 256, 1)
  else if a = 12 ∧ c = 11 then some (32, 256, 1)
  else none

/-- A scale record set of LNS8 operands lies aligned in the QSPM (R208, R221). -/
def ScaleFits (w : Word) : Prop :=
  w.toNat % 4 = 0 ∧ w.toNat % 2 ^ 22 + (if w.getLsbD 63 then 256 else 4) ≤ 0x400000

/-- The retained K indices of a mask (R222). -/
def kept (mask : BitVec 256) (k : Nat) : List Nat := (List.range k).filter fun j => mask.getLsbD j

def tileMask (t : Tile) (km : BitVec 3) : BitVec 256 := if km = 0 then BitVec.allOnes 256 else t.masks[km.toNat]'km.isLt

/-- Where QSPM of a QCC context's own quad begins (R104). -/
def ownQspm (u : CtxId) : Nat := 0x100000000000 + 0x8000000 * u.die.val + 0x400000 * u.quad

/-- A byte of memory as a signed number. -/
def signedByte (b : Nat) : Int := Int.bmod b 256

/-- Element `e` of an accumulator (R205). -/
def accAt (a : Acc) (e : Nat) : Nat := if a.live then a.data.toNat / 2 ^ (32 * e) % 2 ^ 32 else 0

/-- Saturation to 32 bits. -/
def sat32 (x : Int) : Int := max (-(2 ^ 31)) (min (2 ^ 31 - 1) x)

/-- A list cut into groups of `n`, the last one holding the rest (R222). -/
def groupsOf {α : Type} (n : Nat) (l : List α) : List (List α) := (List.range ((l.length + n - 1) / n)).map fun g => (l.drop (n * g)).take n

/-- An I32 element to which groups of products are added, each sum being exact and then saturated, and whether one was (R82, R222). -/
def addGroups (x : Int) (gs : List (List Int)) : Int × Bool :=
  gs.foldl (fun x g => (sat32 (x.1 + g.sum), x.2 || decide (sat32 (x.1 + g.sum) ≠ x.1 + g.sum))) (x, false)

/-- A product of a K-group at its K index: whether it has a NaN operand, and a signalling one; whether it is 0 × ∞, or an infinity;
its sign; its exact value. -/
structure Term where
  k       : Nat
  nan     : Bool
  sig     : Bool
  invalid : Bool
  inf     : Bool
  neg     : Bool
  val     : Rat

/-- The exact product of two floats (R81). -/
def floatTerm (k : Nat) (x y : Operand) : Term :=
  let nan := x.nan || y.nan
  let invalid := (x.zero && y.inf) || (x.inf && y.zero)
  ⟨k, nan, x.signalling || y.signalling, !nan && invalid, !nan && !invalid && (x.inf || y.inf), x.neg != y.neg, x.value * y.value⟩

/-- The exact product of two LNS8 codes at their scale exponents, from the table entry of the summed logarithms (R81). -/
def lnsTerm (k : Nat) (S U : Int) (x y : Nat) : Term :=
  let lg (n : Nat) : Int := Int.bmod (n / 4 : Nat) 32
  let neg := (x / 128 + y / 128) % 2 = 1
  let v := if x / 4 % 64 = 0x10 ∨ y / 4 % 64 = 0x10 then 0 else lnsMag (S + U) (lg x + lg y)
  ⟨k, decide (x / 4 % 64 = 0x30 ∨ y / 4 % 64 = 0x30), false, false, false, decide neg, if neg then -v else v⟩

/-- The matrix NaN of a unit and a K index (R83). -/
def matrixNanOf (unit k : Nat) : Nat := 0x7FC00000 + unit % 2 ^ 10 * 2 ^ 12 + k

/-- One K-group added to an FP32 element with one RNE rounding (R81, R83): an element that holds a NaN keeps it; a NaN of the group
is recorded with the lowest K index among its causes, an infinity met by its opposite in the element with 0xFFF; an exact zero is
+0. -/
def GroupSum (unit x : Nat) (ts : List Term) (r : Nat) (fl : Flags) : Prop :=
  let o : Operand := ⟨⟨8, 23⟩, x⟩
  let both (m : Nat) : Bool := ts.any (fun t => t.inf && t.neg && decide (t.k ≤ m)) && ts.any (fun t => t.inf && !t.neg && decide (t.k ≤ m))
  let causes := (ts.filter fun t => t.nan || t.invalid || (t.inf && both t.k)).map (·.k)
  if o.nan = true then r = x ∧ fl = flagIf 4 (ts.any (·.sig))
  else match causes.min? with
    | some m => r = matrixNanOf unit m ∧ fl = flagIf 4 (ts.any fun t => t.sig || t.invalid || (t.inf && both t.k))
    | none => match ts.find? (·.inf) with
      | some t => if o.inf = true ∧ o.neg ≠ t.neg then r = matrixNanOf unit 0xFFF ∧ fl = flagIf 4 true
        else r = signOf ⟨8, 23⟩ t.neg + infBits ⟨8, 23⟩ ∧ fl = 0
      | none => if o.inf = true then r = x ∧ fl = 0 else Rounds ⟨8, 23⟩ 0 (o.value + (ts.map (·.val)).sum) false r fl

/-- Groups added to an element one after the other, their flags gathered. -/
def GroupSums (unit : Nat) : Nat → List (List Term) → Nat → Flags → Prop
  | x, [], r, fl => r = x ∧ fl = 0
  | x, g :: gs, r, fl => ∃ y a b, GroupSum unit x g y a ∧ GroupSums unit y gs r b ∧ fl = a ||| b

/-- R84: the sum of two FP32 elements in TACCR. Of two NaNs the one whose low 22 bits are smaller stays, of one the one; ∞ − ∞
makes the matrix NaN with index 0xFFF. -/
def AccrSum (unit x y r : Nat) (fl : Flags) : Prop :=
  let o (n : Nat) : Operand := ⟨⟨8, 23⟩, n⟩
  if (o x).nan = true ∧ (o y).nan = true then r = (if y % 2 ^ 22 < x % 2 ^ 22 then y else x) ∧ fl = 0
  else if (o x).nan = true then r = x ∧ fl = 0
  else if (o y).nan = true then r = y ∧ fl = 0
  else if invalid .add (o x) (o y) (o 0) = true then r = matrixNanOf unit 0xFFF ∧ fl = flagIf 4 true
  else FloatResult .add ⟨8, 23⟩ 0 (o x) (o y) (o 0) r fl

/-- An operand element of TMMA of a float format. -/
def tileOperand (fmt raw : Nat) : Operand := ⟨if fmt = 9 then ⟨5, 10⟩ else if fmt = 10 then ⟨8, 7⟩ else ⟨8, 23⟩, raw⟩

/-- The scale exponent that an LNS8 code of row or column `r` names in a set of scale records (R78, R221). -/
def scaleOf (byte : Nat → Nat) (w : Word) (r code : Nat) : Int :=
  signedByte (byte (w.toNat % 2 ^ 22 + (if w.getLsbD 63 = true then 4 * r else 0) + code % 4))

/-- Every scale exponent of a set lies in its range. -/
def ScalesGood (byte : Nat → Nat) (w : Word) : Prop := ∀ r q, r < 64 → q < 4 → -32 ≤ scaleOf byte w r q ∧ scaleOf byte w r q ≤ 31

/-- The one operation of a context's queue has not started, its unit is free and nobody waits for its accumulator. -/
def Alone (s : State) (u : CtxId) (op : TileOp) : Prop :=
  128 ≤ u.unit.val ∧ (s.ctx u).tile.queue = [op] ∧ op.started = false ∧ op.done = false ∧ op.rows = none ∧
    (s.ctx (siblingOf u)).tile.queue = [] ∧ s.readAwaited u op = false ∧ s.poison = [] ∧ (s.ctx u).rin = 0

/-- The 64 B sectors of QSPM that a list of places and lengths touches. -/
def sectorsHit (l : List (Nat × Nat)) : Nat :=
  ((List.range 65536).filter fun k => l.any fun p => decide (p.2 ≠ 0 ∧ p.1 < 64 * k + 64 ∧ 64 * k < p.1 + p.2)).length

/-- An operation starts: only accumulators, counters and allowance may change, and the operation is marked, with the debits of the
cycles that it is going to run (R349) and what it reads and writes. -/
def Starts (s : State) (u : CtxId) (op : TileOp) (fl : Flags) (rows : Option (BitVec 131072)) (accs : Vector Acc 4) (owed : List Nat) : Prop :=
  ∃ t rd wr, exec (.tileOpStart u) s = .next t ∧
    t = { s with
      ctxs := t.ctxs
      rings := t.rings } ∧
    (∀ v, v ≠ u → t.ctx v = s.ctx v) ∧
    t.ctx u = { s.ctx u with
      csr := { (s.ctx u).csr with pmc := (t.ctx u).csr.pmc }
      tile := { (s.ctx u).tile with
        accs := accs
        queue := [{ op with
          started := true
          flags := fl
          rows := rows
          reads := rd
          writes := wr
          owed := owed }] } }

end Sys2Proof.Claims

/-- R212, R218, R221, R223, R225: TGATH, TZERO, TMMA, TST and TACCR whose operands pass the checks at issue enter their
context's queue and take the next number (TZERO none), and the context goes on; TGATH sets LV and LLEN. TLDK brings a 256-bit
mask from QSPM, a write to k0 being discarded (R219); TRD gives one element of an accumulator that no queued operation names,
sign-extended from I32 (R224); TSEQ gives the last number issued (R226); WTML goes on once the named context has completed the
number in s[b], and waits until then (R227). -/
def Obligations.TileInstructions : Prop :=
  ∀ (s : State) (acc : BitVec 2) (km : BitVec 3) (a b : BitVec 5) (tag : BitVec 4), TileReady s →
    let t := s.me.tile
    let x := (s.me.x a).toNat
    let y := (s.me.x b).toNat
    let e := (s.me.x b).toNat
    let A := t.accs[acc.toNat]'acc.isLt
    let fmt (i : Nat) := s.me.csr.tfmt.toNat / 16 ^ i % 16
    let rlen := s.me.csr.apitch.toNat / 2 ^ 16 % 2 ^ 9
    let sp := s.me.csr.apitch.toNat / 2 ^ 32 % 2 ^ 16
    (x % 2 = 0 → x + 128 ≤ 0x400000 → y % 8 = 0 → y < 0x400000 → Queues (.tgath a b) s 0 (.gath x y) true rlen) ∧
    (fmt 2 ≠ 0 → Queues (.tzero acc) s acc .zero t.lv t.llen) ∧
    (∀ T, T ≠ .untagged → T.code = tag.toNat → s.me.sealing = false → x % T.width = 0 → sp % T.width = 0 → 64 * T.width ≤ sp →
      x + 63 * sp + 64 * T.width ≤ 0x400000 → Queues (.tst acc a tag) s acc (.st T x) t.lv t.llen) ∧
    (x ≤ 31 → x ≠ s.cur.quad → s.partOf s.cur.die x = s.partOfCtx s.cur → Queues (.taccr acc a) s acc (.accr x none) t.lv t.llen) ∧
    (∀ kg lim w, shapeOf (fmt 0) (fmt 1) (fmt 2) = some (kg, lim, w) → kg ≤ y → y ≤ lim → y % kg = 0 → t.lv = true → y * w ≤ t.llen →
      (∀ op ∈ t.queue, op.acc ≠ acc) →
      t.accs[acc.toNat]'acc.isLt = { t.accs[acc.toNat]'acc.isLt with int := decide (fmt 2 = 3) } ∨ (t.accs[acc.toNat]'acc.isLt).live = false →
      x % 64 = 0 → x < 0x400000 → x + (kept (tileMask t km) y).length * 64 * w ≤ 0x400000 →
      (fmt 0 = 12 → ScaleFits s.me.csr.scla ∧ ScaleFits s.me.csr.sclb) →
      Queues (.tmma acc km a b) s acc (.mma x y (tileMask t km) false) t.lv t.llen) ∧
    (s.poison = [] → (s.me.x a).toNat % 32 = 0 → (s.me.x a).toNat + 32 ≤ 0x400000 →
      ∃ (u : State) (m : Vector (BitVec 256) 8) (pmc : Vector Word 15), exec (.tldk km a) s = .next (u.setCtx s.cur { gone s.me (s.me.pc + 4) with
          tile := { t with masks := m }
          csr := { s.me.csr with pmc := pmc } }) ∧
        u = { s with regions := u.regions } ∧ ∀ k : Fin 8, m[k] = if km ≠ 0 ∧ k.val = km.toNat then
          BitVec.ofNat 256 (littleEndian s.mem (ownQspm s.cur + (s.me.x a).toNat) 32) else t.masks[k]) ∧
    (e ≤ 4095 → (∀ op ∈ t.queue, op.acc ≠ acc) →
      Writes (.trd acc a b) s a (if A.int then BitVec.ofInt 64 (Int.bmod (accAt A e) (2 ^ 32)) else BitVec.ofNat 64 (accAt A e)) (s.me.pc + 4)) ∧
    Writes (.tseq a) s a t.issue (s.me.pc + 4) ∧
    (s.me.chunk = none → (s.me.x a).toNat < 64 →
      let n := s.ctx (mkCtxId s.cur.die.val (128 + (s.me.x a).toNat % 32) ((s.me.x a).toNat / 32))
      (e ≤ n.tile.tln.toNat → GoesTo (.wtml a b) s (s.me.pc + 4)) ∧
      (n.tile.tln.toNat < e → exec (.wtml a b) s = .next (s.setCtx s.cur { s.me with
        wait := some .poll
        blocked := if s.me.wait = some .poll then s.me.blocked else s.time })))

namespace Sys2Proof.Claims

open Sys2Proof.Machine

/-- R205, R206, R216 to R225: the one operation of a queue starts and has its effect: TZERO makes the accumulator live and zero;
TGATH gathers its 64 rows; TST stores the converted elements, every other byte of memory keeping its value. An operation that has
run completes: it leaves the queue, TLN takes its number, its flags reach FFLG, and the latch takes the rows of a TGATH (R214). That
an operation has its effect when it starts is the model's choice (log 38). What an operation debits in the cycles that it runs is two
units for each sector of a TGATH or TST, and it completes only after them (R216, R349). -/
def TileEffects : Prop :=
  ∀ (s : State) (u : CtxId) (op : TileOp), Alone s u op →
    let c := s.ctx u
    let A := c.tile.accs[op.acc.toNat]'op.acc.isLt
    let fmt (i : Nat) := c.csr.tfmt.toNat / 16 ^ i % 16
    let byte (o : Nat) : Nat := (memGet s.mem (ownQspm u + o)).toNat
    (op.kind = .zero → Starts s u op 0 none (c.tile.accs.set op.acc.toNat ⟨true, decide (fmt 2 = 3), 0⟩ op.acc.isLt) []) ∧
    (∀ x y, op.kind = .gath x y →
      let idx (i : Nat) : Nat := byte (x + 2 * i) + 256 * byte (x + 2 * i + 1)
      let pitch := c.csr.apitch.toNat % 2 ^ 16
      let rlen := c.csr.apitch.toNat / 2 ^ 16 % 2 ^ 9
      rlen ≤ 256 → (∀ i < 64, idx i ≠ 0xFFFF → y + idx i * pitch + rlen ≤ 0x400000) →
      ∃ rows ow, Starts s u op 0 (some rows) c.tile.accs ow ∧
        (x + 128 ≤ 0x400000 → ow.sum = 2 * sectorsHit ((x, 128) :: ((List.range 64).filter fun i => decide (idx i ≠ 0xFFFF)).map fun i =>
          (y + idx i * pitch, rlen))) ∧ ∀ i < 64, ∀ k < 256, rows.toNat / 2 ^ (2048 * i + 8 * k) % 256 =
        if idx i = 0xFFFF ∨ rlen ≤ k then 0 else byte (y + idx i * pitch + k)) ∧
    (∀ T x, op.kind = .st T x → T ≠ .untagged →
      let sp := c.csr.apitch.toNat / 2 ^ 32 % 2 ^ 16
      64 * T.width ≤ sp → x + 63 * sp + 64 * T.width ≤ 0x400000 → Memory.wf s.mem = true →
      let at_ (i n : Nat) : Nat := ownQspm u + x + i * sp + n * T.width
      ∃ t fl rd wr, ∃ ow : List Nat, ∃ g : Nat → Nat × Flags, exec (.tileOpStart u) s = .next t ∧
        t = { s with
          ctxs := t.ctxs
          rings := t.rings
          quads := t.quads
          forks := t.forks
          mem := t.mem } ∧
        (t.ctx u).tile = { c.tile with queue := [{ op with
          started := true
          flags := fl
          reads := rd
          writes := wr
          owed := ow }] } ∧
        ow.sum = 2 * sectorsHit ((List.range 64).map fun i => (x + i * sp, 64 * T.width)) ∧
        (∀ e < 4096, if A.live = true then Converted 0 (if A.int = true then .i32 else .fp32) T 0 0 0 (accAt A e) (g e).1 (g e).2
          else g e = (if T = .lns8 then 0x40 else 0, 0)) ∧
        fl = (List.range 4096).foldl (fun a e => a ||| (g e).2) 0 ∧
        (∀ i < 64, ∀ n < 64, littleEndian t.mem (at_ i n) T.width = (g (64 * i + n)).1) ∧
        ∀ a, (∀ i < 64, ∀ n < 64, a < at_ i n ∨ at_ i n + T.width ≤ a) → memGet t.mem a = memGet s.mem a) ∧
    (∀ o : TileOp, o.started = true → o.done = false → o.unserved = none → o.owed = [] →
      let r := s.setCtx u { c with tile := { c.tile with queue := [o] } }
      exec (.tileOpComplete u) r = .next (r.setCtx u { c with
        csr := { c.csr with fflg := c.csr.fflg ||| o.flags }
        tile := { c.tile with
          queue := []
          tln := o.num.getD c.tile.tln
          latch := if o.isGath then o.rows.getD c.tile.latch else c.tile.latch } }))

/-- R81 to R83, R207, R221, R222, R349: TMMA adds to each element of its accumulator the K-groups of the retained products in ascending
order, of every combination of formats; its flags tell of saturation, of rounding and of invalid sums. Each of its K-step cycles debits 64 units. A scale exponent out of
range, or an accumulator of the other format at a check deferred to the start, makes a tile fault. -/
def MatrixProducts : Prop :=
  ∀ (s : State) (u : CtxId) (op : TileOp) (b k kg lim w : Nat) (mask : BitVec 256) (late : Bool), Alone s u op →
    let c := s.ctx u
    let A := c.tile.accs[op.acc.toNat]'op.acc.isLt
    let fmt (i : Nat) := c.csr.tfmt.toNat / 16 ^ i % 16
    let byte (o : Nat) : Nat := (memGet s.mem (ownQspm u + o)).toNat
    let js := kept mask k
    let aRaw (i j : Nat) : Nat := c.tile.latch.toNat / 2 ^ (2048 * i + 8 * w * j) % 2 ^ (8 * w)
    let bRaw (p n : Nat) : Nat := littleEndian s.mem (ownQspm u + b + w * (64 * p + n)) w
    op.kind = .mma b k mask late → shapeOf (fmt 0) (fmt 1) (fmt 2) = some (kg, lim, w) → k ≤ lim →
    (A.live = false ∨ A.int = decide (fmt 2 = 3) → (fmt 0 = 12 → ScalesGood byte c.csr.scla ∧ ScalesGood byte c.csr.sclb) →
      ∃ accs fl new, ∃ f : Nat → Flags, Starts s u op fl none accs (List.replicate ((js.length + kg - 1) / kg) 64) ∧ (∀ m : Fin 4, m.val ≠ op.acc.toNat → accs[m] = c.tile.accs[m]) ∧
        accs[op.acc.toNat]'op.acc.isLt = ⟨true, decide (fmt 2 = 3), new⟩ ∧ fl = (List.range 4096).foldl (fun a e => a ||| f e) 0 ∧
        ∀ i < 64, ∀ n < 64,
          let r : Nat := new.toNat / 2 ^ (32 * (64 * i + n)) % 2 ^ 32
          let x : Nat := accAt A (64 * i + n)
          (fmt 2 = 3 →
            let q := addGroups (Int.bmod x (2 ^ 32)) (groupsOf kg (js.mapIdx fun p j => signedByte (aRaw i j) * signedByte (bRaw p n)))
            Int.bmod r (2 ^ 32) = q.1 ∧ f (64 * i + n) = flagIf 5 q.2) ∧
          (fmt 2 ≠ 3 → GroupSums u.unit.val x (groupsOf kg (js.mapIdx fun p j =>
            if fmt 0 = 12 then lnsTerm j (scaleOf byte c.csr.scla i (aRaw i j)) (scaleOf byte c.csr.sclb n (bRaw p n)) (aRaw i j) (bRaw p n)
            else floatTerm j (tileOperand (fmt 0) (aRaw i j)) (tileOperand (fmt 1) (bRaw p n)))) r (f (64 * i + n)))) ∧
    (late = true → A.live = true → A.int ≠ decide (fmt 2 = 3) → c.tile.fault = none →
      ∃ t, exec (.tileOpStart u) s = .next t ∧ (t.ctx u).tile.fault = some ⟨0x02, BitVec.ofNat 64 b, 0⟩ ∧ (t.ctx u).tile.accs = c.tile.accs) ∧
    (A.live = false ∨ A.int = false → fmt 0 = 12 → c.tile.fault = none → c.csr.scla.getLsbD 63 = false →
      ¬(∀ q < 4, -32 ≤ scaleOf byte c.csr.scla 0 q ∧ scaleOf byte c.csr.scla 0 q ≤ 31) →
      ∃ t, exec (.tileOpStart u) s = .next t ∧ (t.ctx u).tile.accs = c.tile.accs ∧
        (t.ctx u).tile.fault = some ⟨0x02, BitVec.ofNat 64 (c.csr.scla.toNat % 2 ^ 22), 0⟩)

/-- R84, R225: a TACCR that has started is served by its neighbour once no older operation there names the accumulator: each
element gets the sum of both, saturating for I32 and rounded for FP32, one that is not live counting as zeros; the result has the
format of the one that is live. Different formats make a tile fault. -/
def AccumulatorReads : Prop :=
  ∀ (s : State) (u : CtxId) (op : TileOp) (q : Nat), Alone s u op →
    let c := s.ctx u
    let A := c.tile.accs[op.acc.toNat]'op.acc.isLt
    let v := mkCtxId u.die.val (128 + q) u.slot.val
    let B := (s.ctx v).tile.accs[op.acc.toNat]'op.acc.isLt
    let p := s.part (s.partOf u.die q)
    let int := if A.live = true then A.int else B.int
    op.kind = .accr q none → q < 32 → q ≠ u.quad → (s.ctx v).tile.queue = [] → p.pstate ≠ .switching → p.pstate ≠ .saved →
    ∃ t t', exec (.tileOpStart u) s = .next t ∧ exec (.taccrReadServe u) t = .next t' ∧
      t' = { s with
        ctxs := t'.ctxs
        rings := t'.rings
        seq := s.seq + 1 } ∧
      (∀ x, x ≠ u → t'.ctx x = s.ctx x) ∧
      (A.live = false → B.live = false → (t'.ctx u).tile.accs = c.tile.accs) ∧
      (A.live = true → B.live = true → A.int ≠ B.int → c.tile.fault = none →
        (t'.ctx u).tile.fault = some ⟨0x02, 0, 0⟩ ∧ (t'.ctx u).tile.accs = c.tile.accs) ∧
      ((A.live = true ∨ B.live = true) → (A.live = true ∧ B.live = true → A.int = B.int) →
        ∃ new o, ∃ f : Nat → Flags, (t'.ctx u).tile.queue = [o] ∧ o.flags = (List.range 4096).foldl (fun a e => a ||| f e) 0 ∧
          (t'.ctx u).tile.accs[op.acc.toNat]'op.acc.isLt = ⟨true, int, new⟩ ∧ ∀ e < 4096,
            let r : Nat := new.toNat / 2 ^ (32 * e) % 2 ^ 32
            (int = true →
              let z := Int.bmod (accAt A e) (2 ^ 32) + Int.bmod (accAt B e) (2 ^ 32)
              Int.bmod r (2 ^ 32) = sat32 z ∧ f e = flagIf 5 (decide (sat32 z ≠ z))) ∧
            (int = false → AccrSum u.unit.val (accAt A e) (accAt B e) r (f e)))

end Sys2Proof.Claims

/-- What the operations of a tile queue do when they run. -/
def Obligations.TileOperations : Prop := TileEffects ∧ MatrixProducts ∧ AccumulatorReads

namespace Sys2Proof.Claims

open Sys2Proof.Machine

/-! ## Messages -/

def slotOf (c : Ctx) (ds : BitVec 4) : DSlot := c.slots[ds.toNat]'ds.isLt

/-- Beats of 64 bytes (R264). -/
def beatsIn (n : Nat) : Nat := (n + 63) / 64

/-- What a release at the slot's target waits for (R279, R294). Unless the release goes into the egress hold itself, behind them, what
the hold keeps of the context counts as not yet performed: that is the model's reading of R290 and R325 (log 135). -/
def MayRelease (s : State) (x : DSlot) (held : Bool) : Prop :=
  let sc := narrowest s (endpointOf s s.cur) x.ep
  Performed s s.cur sc ∧ (held = false →
    (∀ r ∈ s.net, r.src = some (.here s.cur) → (∃ n, r.stage = .held n) → sc < 5 ∧ sc < narrowest s (endpointOf s s.cur) r.target) ∧
    ∀ h ∈ (s.die s.cur.die).holds, h.who ≠ Holder.here s.cur)

/-- The path allowance of a slot (R263). -/
def pathRoom (s : State) (x : DSlot) : Nat :=
  if s.xoff.contains (BitVec.ofNat 18 (x.ep.toNat / 2 ^ 14)) = true then 0 else if x.infl = 0 then 256 else x.pmax - x.infl

/-- The free egress hold of a die: 65,536 beats less those of held requests and of held device stores (R280, R325). -/
def holdRoom (s : State) (d : Fin 8) : Nat :=
  65536 - (((s.net.filter fun r => match r.src, r.stage with
    | some h, .held _ => decide (holderDie h = d)
    | _, _ => false).map (·.beats)).sum + (s.die d).holds.length)

/-- ALW of a slot; a request with IMM does not look at the hold (R262, R263, R280). -/
def allowanceOf (s : State) (d : Fin 8) (x : DSlot) (imm : Bool) : Nat :=
  let w := min x.wc (pathRoom s x)
  if x.bnd = false then 0 else if x.out = true ∧ imm = false then min w (holdRoom s d) else w

/-- A slot covers `beats` beats: it is bound, no refusal is pending, and its allowance reaches (R262, R265). -/
def Covers (s : State) (u : CtxId) (x : DSlot) (beats : Nat) (imm : Bool) : Prop :=
  x.bnd = true ∧ x.rst = false ∧ x.refusal = none ∧ 1 ≤ beats ∧ beats ≤ 256 ∧ beats ≤ allowanceOf s u.die x imm

/-- What every message instruction needs before its own checks (R269, R270, R281). -/
def MaySend (s : State) (imm : Bool) : Prop :=
  s.me.chunk = none ∧ s.me.sealing = false ∧ s.me.msgFault = none ∧ (imm = true → s.me.sup = true)

/-- A slot that has been debited (R263). -/
def debited (x : DSlot) (beats time : Nat) : DSlot :=
  { x with
    wc := x.wc - beats
    infl := x.infl + beats
    since := time
    refusal := none }

/-- The request of an instruction at a slot: held in the egress hold if it leaves the domain and is not immediate (R325). -/
def request (s : State) (u : CtxId) (ds : BitVec 4) (fn : BitVec 3) (imm rel : Bool) (beats : Nat) (kind : ReqKind) : Req :=
  let x := slotOf (s.ctx u) ds
  { src := some (.here u)
    srcEp := endpointOf s u
    ds := ds
    fn := fn
    target := x.ep
    win := x.win
    inc := x.inc
    rin := (s.ctx u).rin
    dom := (s.ctx u).dom
    part := some (s.partOfCtx u)
    out := x.out
    imm := imm
    rel := rel
    beats := beats
    credited := true
    tries := 0
    kind := kind
    stage := if x.out && !imm then .held s.seq else .flying
    via := []
    ce := false }

/-- `exec i s` sends the request of the issuing context: the slot is debited, and the context goes on. -/
def Emits (i : Instr) (s : State) (ds : BitVec 4) (fn : BitVec 3) (imm rel : Bool) (beats : Nat) (kind : ReqKind) : Prop :=
  ∃ t, exec i s = .next t ∧
    t = { s with
      ctxs := t.ctxs
      rings := t.rings
      regions := t.regions
      seq := if (slotOf s.me ds).out && !imm then s.seq + 1 else s.seq
      net := s.net ++ [request s s.cur ds fn imm rel beats kind] } ∧
    OthersKept s t ∧
    t.me = { gone s.me (s.me.pc + 4) with
      slots := s.me.slots.set ds.toNat (debited (slotOf s.me ds) beats s.time) ds.isLt
      csr := { s.me.csr with pmc := t.me.csr.pmc } }

/-- `exec i s` sends one request to each of some owners: each slot is debited, held requests entering the hold in order. -/
def EmitsAll (t s : State) (slot : Nat → BitVec 4) (fn : BitVec 3) (beats : Nat → Nat) (kind : Nat → ReqKind) (os : List Nat) : Prop :=
  ∃ rs : List Req, t = { s with
      ctxs := t.ctxs
      rings := t.rings
      seq := t.seq
      net := s.net ++ rs } ∧
    (rs.map fun r => { r with stage := .flying }) = (os.map fun o => { request s s.cur (slot o) fn false false (beats o) (kind o) with stage := .flying }) ∧
    (∀ r ∈ rs, if r.out = true then ∃ n, r.stage = .held n else r.stage = .flying) ∧
    t.me.slots = os.foldl (fun v o => v.set (slot o).toNat (debited (slotOf s.me (slot o)) (beats o) s.time) (slot o).isLt) s.me.slots

/-- Bytes of memory from an address on. -/
def bytesAt (m : List Host.Cell) (a n : Nat) : List Byte := (List.range n).map fun k => memGet m (a + k)

/-- Local bytes that a message reads or writes: aligned, in DRAM, under flat addresses. -/
def LocalBytes (s : State) (a : Word) (n : Nat) : Prop :=
  Flat s s.me.sup s.me.csr.ptroot ∧ s.poison = [] ∧ a.toNat % 8 = 0 ∧ n % 8 = 0 ∧ a.toNat + n ≤ s.dramEnd

/-- OWNTBL: owners, and the slot and the shift of each (R275). -/
def owners (c : Ctx) : Nat := c.csr.owntbl.toNat / 2 ^ 9 % 2 ^ 5
def ownerSlot (c : Ctx) (o : Nat) : BitVec 4 := BitVec.ofNat 4 (c.csr.owntbl.toNat / 2 ^ 5 % 2 ^ 4 + o)
def ownerOf (c : Ctx) (index : Nat) : Nat := index / 2 ^ (c.csr.owntbl.toNat % 2 ^ 5)

/-- The contributions that VSCACC sends to an owner: offset, value and type of the active elements in order (R276). -/
def contributions (c : Ctx) (va vb : BitVec 5) (km : BitVec 3) (ty o : Nat) : List (Nat × BitVec 32 × Nat) :=
  ((List.range c.csr.vl).filter fun e => active c km e && decide (ownerOf c (elemAt (c.v va) 4 e) = o)).map fun e =>
    (4 * (elemAt (c.v va) 4 e - o * 2 ^ (c.csr.owntbl.toNat % 2 ^ 5)), BitVec.ofNat 32 (elemAt (c.v vb) 4 e), ty)

/-- The target of a request or slot is a quad unit or die agent of the module (R16). -/
def TargetIs (s : State) (ep : BitVec 32) (d : Fin 8) (unit : Nat) : Prop :=
  ep.toNat = s.pkg.toNat * 2 ^ 14 + d.val * 2 ^ 10 + unit ∧ (unit < 160 ∨ unit = 1023)

/-- The request issued in this package, or comes from the control node (R16). -/
def OwnSource (s : State) (r : Req) : Prop := r.srcEp.toNat / 2 ^ 14 = s.pkg.toNat ∨ r.srcEp = 0xFFFFC000

/-- The hub has dropped and counted packets to an absent unit (R18). -/
def dropped (h : Hub) (n : Nat) : Hub := { h with drops := h.drops.set 0 (h.drops[0] + n) }

/-- The window that a request names: word, base and size (R257). -/
def windowOf (s : State) (d : Fin 8) (unit : Nat) (w : BitVec 2) : Word := (s.gate d unit).rwin[w.toNat]'w.isLt
def baseOf (w : Word) : Nat := w.toNat / 2 ^ 16 % 2 ^ 32 * 2 ^ 16
def sizeOf_ (w : Word) : Nat := w.toNat / 2 ^ 48 * 2 ^ 16

/-- Whether a window permits a function: 1 SEND, 2 SENDT, 3 PUT, 4 GET, the others RAMO and combining stores (R257). -/
def permitsFn (w : Word) (fn : Nat) : Bool :=
  let ring := w.getLsbD 4
  let ist := w.getLsbD 6
  if fn = 1 ∨ fn = 2 then w.getLsbD 2 && ring
  else if fn = 3 then w.getLsbD 2 && !ring
  else if fn = 4 then w.getLsbD 1 && !ring && !ist
  else w.getLsbD 3 && !ring && !ist

/-- A quad unit's window belongs to the rollback domain, with its quad's partition (R421). -/
def insideDomain (s : State) (d : Fin 8) (unit : Nat) : Bool :=
  match s.domain with
  | none => false
  | some x => decide (unit < 160) && decide (s.partOf d (quadOf unit) ≠ 0) && x.parts.getLsbD (s.partOf d (quadOf unit))

/-- The reason for which a target refuses, by checks 2 to 5 of R258; a window takes nothing before step 10 of bring-up and while
its quad is under test (R385, R395). -/
def refusalOf (s : State) (d : Fin 8) (unit : Nat) (w : Word) (src : BitVec 32) (member : Bool) (fn : Option Nat) : Option (BitVec 4) :=
  if s.hub.step < 10 ∨ w.getLsbD 0 = false ∨ (unit < 160 ∧ (s.gate d unit).bist.toNat % 4 = 1) then some 1
  else if w.toNat / 2 ^ 8 % 8 < narrowest s src (BitVec.ofNat 32 (s.pkg.toNat * 2 ^ 14 + d.val * 2 ^ 10 + unit)) then some 4
  else if insideDomain s d unit = true ∧ w.getLsbD 5 = false ∧ w.getLsbD 6 = false ∧ member = false then some 5
  else match fn with
    | none => none
    | some f => if permitsFn w f = true then none else some 3

/-- The incarnation of a unit or die agent (R256). -/
def incarnation (s : State) (d : Fin 8) (unit : Nat) : BitVec 8 := if unit = 1023 then (s.die d).agentInc else (s.core d unit).inc

/-- The credit that a window has to give: free beats of the pool, or of a ring whose TAIL is valid (R260, R264). -/
def creditOf (g : Quad) (win : BitVec 2) : Nat :=
  let w := g.rwin[win.toNat]'win.isLt
  let e := g.engines[win.toNat]'win.isLt
  let tail := (if w.getLsbD 5 = true then e.sealed else e.tail).toNat
  if w.getLsbD 4 = false then g.pool
  else if e.head.toNat < tail ∨ sizeOf_ w - 64 < e.head.toNat - tail then 0
  else (sizeOf_ w - 64 - (e.head.toNat - tail)) / 64 - e.granted

/-- A thread's context that packets reach: it holds a thread in no chunk, and its partition is in no switch (R367). -/
def Reached (s : State) (u : CtxId) : Prop :=
  (s.ctx u).status ≠ .free ∧ (s.ctx u).chunk = none ∧ (s.part (s.partOfCtx u)).pstate ≠ .switching

/-- Request `n`, of a thread of the module, comes to a unit of the module with the incarnation in force. -/
def Comes (s : State) (n : Nat) (r : Req) (d : Fin 8) (unit : Nat) : Prop :=
  s.net[n]? = some r ∧ r.stage = .flying ∧ r.isStart = false ∧ (∃ u, r.src = some (.here u) ∧ (s.part (s.partOfCtx u)).pstate ≠ .switching) ∧
    TargetIs s r.target d unit ∧ r.inc = incarnation s d unit

/-- Request `n`, of a thread outside every domain, comes to a window that admits it (R258). -/
def Arrives (s : State) (n : Nat) (r : Req) (d : Fin 8) (unit : Nat) : Prop :=
  Comes s n r d unit ∧ r.dom = false ∧ s.poison = [] ∧ refusalOf s d unit (windowOf s d unit r.win) r.srcEp r.dom (some r.fn.toNat) = none

/-- The request has been answered at its target. -/
def Answered (s t : State) (n : Nat) (r : Req) (st : ReqStage) : Prop :=
  t = { s with
    ctxs := t.ctxs
    quads := t.quads
    forks := t.forks
    cores := t.cores
    mem := t.mem
    regions := t.regions
    net := s.net.set n { r with stage := st } } ∧
  (∀ u, t.ctx u = { s.ctx u with woken := (t.ctx u).woken })

/-- The request is refused: only the window error counter of the target and the credit of its beats change (R258). -/
def RefusedBy (ev : Instr) (s : State) (n : Nat) (r : Req) (d : Fin 8) (unit : Nat) (reason : BitVec 4) : Prop :=
  ∃ t, exec ev s = .next t ∧ t = { s with
      quads := t.quads
      net := s.net.set n { r with stage := .refused reason } } ∧
    (t.gate d unit).werr = (s.gate d unit).werr + 1

/-- Memory, in its canonical form before, with a list of bytes at an address and nothing else changed. -/
def BytesPut (m m' : List Host.Cell) (a : Nat) (bs : List Byte) : Prop :=
  Memory.wf m = true → ∀ b, memGet m' b = if a ≤ b ∧ b < a + bs.length then bs.getD (b - a) 0 else memGet m b

/-- The integer nearest to a number, a tie going to the even one. -/
def nearestInt (v : Rat) : Int :=
  let n := v.floor
  if 1 < 2 * (v - n) ∨ (2 * (v - n) = 1 ∧ n % 2 = 1) then n + 1 else n

/-- A contribution joins an entry (R276). -/
def joined (e : Comb) (v : BitVec 32) : Comb :=
  let o : Operand := ⟨⟨8, 23⟩, v.toNat⟩
  let big := o.inf || decide (2 ^ 63 ≤ o.value) || decide (o.value ≤ -(2 ^ 63))
  let f := nearestInt (o.value * 2 ^ 64)
  if e.ty ≠ 0 then { e with acc := BitVec.ofNat 128 ((e.acc.toNat + v.toNat) % 2 ^ 32) }
  else if o.nan = true then { e with nan := true }
  else if big = true then (if o.neg = true then { e with ninf := true } else { e with pinf := true })
  else { e with
    acc := e.acc + BitVec.ofInt 128 f
    inexact := e.inexact || decide ((f : Rat) ≠ o.value * 2 ^ 64) }

/-- What a flush of an entry writes over `old`, and its flags (R276): a location that holds a NaN or an infinity keeps it as a sum
with zero would. -/
def FlushOf (e : Comb) (old new : Nat) (fl : Flags) : Prop :=
  let o : Operand := ⟨⟨8, 23⟩, old⟩
  if e.ty ≠ 0 then new = (old + e.acc.toNat) % 2 ^ 32 ∧ fl = 0
  else ∃ f, fl = f ||| flagIf 0 e.inexact ∧
    (if e.nan = true ∨ (e.pinf = true ∧ e.ninf = true) then new = 0x7FC00000 ∧ f = flagIf 4 true
    else if e.pinf = true then new = 0x7F800000 ∧ f = 0
    else if e.ninf = true then new = 0xFF800000 ∧ f = 0
    else if o.nan = true ∨ o.inf = true then FloatResult .add ⟨8, 23⟩ 0 o ⟨⟨8, 23⟩, 0⟩ ⟨⟨8, 23⟩, 0⟩ new f
    else Rounds ⟨8, 23⟩ 0 (o.value + (e.acc.toInt : Rat) / 2 ^ 64) false new f)

/-- A request's beats are in flight no more: INFL and PMAX of its slot (R263). -/
def acked (x : DSlot) (beats : Nat) (mark : Bool) : DSlot :=
  { x with
    infl := x.infl - beats
    pmax := if mark then max 16 (x.pmax / 2) else min 256 (x.pmax + 4) }

def withSlot (c : Ctx) (ds : BitVec 4) (x : DSlot) : Ctx := { c with slots := c.slots.set ds.toNat x ds.isLt }

/-- Credit of `n` beats has come back to a quad or die agent: to its pool, or to the free space of the ring (R264). -/
def credited (g : Quad) (win : BitVec 2) (n : Nat) : Quad :=
  let e := g.engines[win.toNat]'win.isLt
  if n = 0 then g
  else if (g.rwin[win.toNat]'win.isLt).getLsbD 4 = true then { g with engines := g.engines.set win.toNat { e with granted := e.granted - n } win.isLt }
  else { g with pool := min 512 (g.pool + n) }

/-- The credit of a bound slot comes from the quad of this unit of the module, or from this die agent. -/
def drawsOn (s : State) (x : DSlot) (d : Fin 8) (unit : Nat) : Bool :=
  let of (k : Nat) : Nat := if k = 1023 then 32 else quadOf k
  let k := x.ep.toNat % 2 ^ 10
  x.bnd && decide (x.ep.toNat / 2 ^ 10 = s.pkg.toNat * 16 + d.val) && decide (k < 160 ∨ k = 1023) && decide (of k = of unit)

/-- The unused credit of these slots has gone back to a quad or die agent. -/
def gainedFrom (s : State) (l : List DSlot) (d : Fin 8) (unit : Nat) : Quad :=
  (l.filter (drawsOn s · d unit)).foldl (fun g x => credited g x.win x.wc) (s.gate d unit)

/-- Between `s` and `t` the unused credit of these slots has gone back to their targets in the module. -/
def GivenBack (s t : State) (l : List DSlot) : Prop :=
  ∀ (d : Fin 8) (unit : Nat), unit < 160 ∨ unit = 1023 → t.gate d unit = gainedFrom s l d unit

end Sys2Proof.Claims

/-- R263, R268, R270 to R273, R279: SEND, SENDT in its cycle, PUT, GET and RAMO whose operands are legal and whose slot covers their
beats send one request with the bytes read at issue, debit the slot by its beats, and the context goes on; a PUT or GET of length
0 only goes on. A SENDT before its phase waits; SENDT_LAUNCH sends it in its cycle, or raises SLOT-VIOLATION with reason 2; a
slot that is not the thread's and a phase that has passed raise it with reasons 0 and 1. That a release counts what the egress hold keeps
only where it goes there itself is the model's choice (log 135). -/
def Obligations.MessagesSent : Prop :=
  ∀ (s : State) (ds : BitVec 4) (a b c : BitVec 5) (op : BitVec 2) (im rel : BitVec 1),
    let x (r : BitVec 5) : Nat := (s.me.x r).toNat
    let I := decide (im = 1)
    let R := decide (rel = 1)
    let slot := slotOf s.me ds
    let phase := s.me.csr.slotcfg.toNat / 2 ^ 60
    let n := s.time / 16 % 64
    let violation (k : Nat) : Word := BitVec.ofNat 64 (s.time % 2 ^ 62 + k * 2 ^ 62)
    MaySend s I → storesOut s s.cur < 31 → loadsOut s s.cur < 31 → (rel = 1 → MayRelease s slot (slot.out && !I)) →
    (LocalBytes s (s.me.x a) (x b) → 8 ≤ x b → x b ≤ 4088 → Covers s s.cur slot (beatsIn (x b + 8)) I →
      Emits (.sendMsg ds a b im rel) s ds 1 I R (beatsIn (x b + 8)) (.send (bytesAt s.mem (x a) (x b)))) ∧
    (LocalBytes s (s.me.x a) (x b) → 8 ≤ x b → x b ≤ 4088 → (∀ r ∈ s.net, r.src = some (.here s.cur) → ∀ k, r.stage ≠ .timed k) →
      slot.bnd = true → slot.rst = false → beatsIn (x b + 8) ≤ 16 - phase →
      (n < 60 → s.me.csr.slotcfg.getLsbD n = true → s.time % 16 = phase → Covers s s.cur slot (beatsIn (x b + 8)) false →
        Emits (.sendt ds a b rel) s ds 2 false R (beatsIn (x b + 8)) (.send (bytesAt s.mem (x a) (x b)))) ∧
      (n < 60 → s.me.csr.slotcfg.getLsbD n = true → s.time % 16 < phase → ∃ (t : State) (r : Req),
        exec (.sendt ds a b rel) s = .next t ∧ t.net = s.net ++ [r] ∧
        r = { request s s.cur ds 2 false R (beatsIn (x b + 8)) (.send (bytesAt s.mem (x a) (x b))) with
          stage := .timed (s.time - s.time % 16 + phase) } ∧ t.me.pc = s.me.pc ∧ t.me.wait = some .poll) ∧
      (60 ≤ n ∨ s.me.csr.slotcfg.getLsbD n = false → MayTrap s → Traps (.sendt ds a b rel) s 0x08 (violation 0)) ∧
      (n < 60 → s.me.csr.slotcfg.getLsbD n = true → phase < s.time % 16 → MayTrap s → Traps (.sendt ds a b rel) s 0x08 (violation 1))) ∧
    (LocalBytes s (s.me.x b) (x c) → x c ≤ 16384 → x a % 8 = 0 →
      (x c = 0 → slot.bnd = true → slot.rst = false → GoesTo (.putMsg ds a b c im rel) s (s.me.pc + 4)) ∧
      (x c ≠ 0 → Covers s s.cur slot (beatsIn (x c)) I →
        Emits (.putMsg ds a b c im rel) s ds 3 I R (beatsIn (x c)) (.put (x a) (bytesAt s.mem (x b) (x c))))) ∧
    (LocalBytes s (s.me.x a) (x c) → x c ≤ 16384 → x b % 8 = 0 →
      (x c = 0 → slot.bnd = true → slot.rst = false → GoesTo (.getMsg ds a b c im) s (s.me.pc + 4)) ∧
      (x c ≠ 0 → Covers s s.cur slot (beatsIn (x c)) I →
        ∃ ps, Emits (.getMsg ds a b c im) s ds 4 I false (beatsIn (x c)) (.get (x b) (x c) ps) ∧
          ps.flatMap (fun p => (List.range p.2).map (p.1 + ·)) = (List.range (x c)).map (x a + ·))) ∧
    (x a % (if op = 3 then 4 else 8) = 0 → Covers s s.cur slot 1 I →
      Emits (.ramo ds a b c op im rel) s ds 5 I R 1 (.ramo op.toNat (x a) (s.me.x b) (s.me.x c) s.me.csr.frm c)) ∧
    (∀ (u : CtxId) r pre, s.net = pre ++ [r] → (∀ q ∈ pre, q.src ≠ some (Holder.here u)) → r.src = some (.here u) →
      r.stage = .timed s.time → (s.ctx u).chunk = none → (slotOf (s.ctx u) r.ds).bnd = true →
      (r.beats ≤ allowanceOf s u.die (slotOf (s.ctx u) r.ds) false → ∃ t, exec (.sendtLaunch u) s = .next t ∧
        t = { s with
          ctxs := t.ctxs
          rings := t.rings
          seq := if r.out && !r.imm then s.seq + 1 else s.seq
          net := pre ++ [{ r with stage := if r.out && !r.imm then .held s.seq else .flying }] } ∧
        t.ctx u = { gone (withSlot (s.ctx u) r.ds (debited (slotOf (s.ctx u) r.ds) r.beats s.time)) ((s.ctx u).pc + 4) with
          csr := { (s.ctx u).csr with pmc := (t.ctx u).csr.pmc } }) ∧
      (allowanceOf s u.die (slotOf (s.ctx u) r.ds) false < r.beats → (s.ctx u).csr.exl = false → (handler (s.ctx u) false).toNat < limit u →
        exec (.sendtLaunch u) s = .next (({ s with net := pre } : State).setCtx u
          (entered (s.ctx u) false 0x08 (violation 2) (s.ctx u).pc 0))))

/-- R275 to R277: VSCACC sends each owner its contributions, in element order, once older vector work is complete; VSCFL sends
every owner a flush. A contribution joins the entry of its offset or makes one, as an FP32 value in fixed point, or modulo
2^32; a flush adds the entry to its word of the window, every other byte keeping its value, and frees it. That its reply carries the
flags of the premature flushes since the last is the model's reading (log 44), the word at the base that the window has by then
its choice (log 93), and a sum with a NaN or an infinity its reading (log 117). -/
def Obligations.CombiningStores : Prop :=
  ∀ (s : State), MaySend s false →
    let c := s.me
    (∀ va vb km ty, OnCore s → c.vecs = [] → owners c ≠ 0 → owners c ≤ 16 → c.csr.vl ≤ 256 →
      ((c.v va).tag = .i32 ∨ (c.v va).tag = .n32) →
      ((c.v vb).tag, ty) ∈ [(Tag.fp32, 0), (.i32, 1), (.n32, 2)] →
      (∀ e, e < c.csr.vl → active c km e = true → 0 ≤ asInt (c.v va).tag (elemAt (c.v va) 4 e) ∧
        ownerOf c (elemAt (c.v va) 4 e) < owners c ∧ (slotOf c (ownerSlot c (ownerOf c (elemAt (c.v va) 4 e)))).bnd = true) →
      let os := (List.range (owners c)).filter fun o => decide (contributions c va vb km ty o ≠ [])
      let beats (o : Nat) := beatsIn (8 * (contributions c va vb km ty o).length)
      storesOut s s.cur + os.length ≤ 31 → (∀ o ∈ os, Covers s s.cur (slotOf c (ownerSlot c o)) (beats o) false) →
      ∃ s1 t, exec (.vscacc va vb km) s = .next t ∧ VecEnd s1 t s1.me ∧
        EmitsAll s1 s (ownerSlot c) 6 beats (fun o => .pairs (contributions c va vb km ty o)) os ∧
        s1.me = { c with
          slots := s1.me.slots
          csr := { c.csr with pmc := s1.me.csr.pmc } }) ∧
    (∀ os, os = List.range (owners c) → os ≠ [] → owners c ≤ 16 → storesOut s s.cur + os.length ≤ 31 →
      (∀ r ∈ s.net, r.src = some (.here s.cur) → ∀ ps, r.kind ≠ .pairs ps) →
      (∀ o ∈ os, Covers s s.cur (slotOf c (ownerSlot c o)) 1 false) →
      ∃ t, exec .vscfl s = .next t ∧ EmitsAll t s (ownerSlot c) 7 (fun _ => 1) (fun _ => .flush) os ∧
        t.me = { gone c (c.pc + 4) with
          slots := t.me.slots
          csr := { c.csr with pmc := t.me.csr.pmc } }) ∧
    ∀ n r d unit, Arrives s n r d unit →
      let g := s.gate d unit
      let w := windowOf s d unit r.win
      (∀ off v ty, r.kind = .pairs [(off, v, ty)] → off + 4 ≤ sizeOf_ w → g.comb.length < 4096 →
        let mine (e : Comb) : Bool := decide (e.win = r.win) && decide (e.off = off)
        let put (e : Comb) : Comb := { joined e v with
          rin := r.rin
          dom := false }
        (∀ e ∈ g.comb, mine e = true → e.ty = ty) →
        ∃ t, exec (.combiningPair n) s = .next t ∧ Answered s t n r .performed ∧ t.mem = s.mem ∧
          (t.gate d unit).comb = if g.comb.any mine = true then g.comb.map fun e => if mine e = true then put e else e
            else g.comb ++ [put ⟨r.win, off, ty, 0, false, false, false, false, 0, false⟩]) ∧
      (∀ e, r.kind = .flush → (g.comb.filter fun e => decide (e.win = r.win)) = [e] →
        ∃ t new fl, exec (.combiningFlush n) s = .next t ∧
          FlushOf e (littleEndian s.mem (baseOf w + e.off) 4) new fl ∧
          Answered s t n r (.answered [] (g.combFlags[r.win.toNat]'r.win.isLt ||| fl) (g.premature.getLsbD r.win.toNat)) ∧
          (t.gate d unit).comb = g.comb.filter (fun e => decide (e.win ≠ r.win)) ∧
          Stored s.mem t.mem (baseOf w + e.off) 4 (BitVec.ofNat 64 new))

/-- R18, R256, R258 to R260, R272, R273: a request that its window admits is performed at its target: a PUT writes its bytes
there (in an ISTORE window to the ISTORE), a SEND appends descriptor, payload and padding to the ring and moves HEAD, a GET
answers with the bytes, a RAMO with the old value while the new one takes its place; no other byte of memory changes. A request
that a check refuses is answered with the reason of the first that fails and counts a window error; one to a unit that does not
exist is dropped, counted and refused with reason 6; one with a stale incarnation is dropped and counted at the gateway. -/
def Obligations.MessageArrivals : Prop :=
  ∀ (s : State) (n : Nat) (r : Req) (d : Fin 8) (unit : Nat),
    let w := windowOf s d unit r.win
    let base := baseOf w
    let packets := max 1 ((r.beats + 63) / 64)
    let events := [Instr.ingressPut n, .ingressSend n, .ingressGet n, .ingressRamo n, .combiningPair n, .combiningFlush n]
    (Arrives s n r d unit →
      (∀ off data, r.kind = .put off data →
        (sizeOf_ w < off + data.length → RefusedBy (.ingressPut n) s n r d unit 2) ∧
        (off + data.length ≤ sizeOf_ w → w.getLsbD 6 = false →
          ∃ t, exec (.ingressPut n) s = .next t ∧ Answered s t n r .performed ∧ BytesPut s.mem t.mem (base + off) data) ∧
        (off + data.length ≤ sizeOf_ w → w.getLsbD 6 = true →
          let q := quadOf unit
          let at_ := if w.toNat / 2 ^ 11 % 8 = 4 then 128 + q else 4 * q + w.toNat / 2 ^ 11 % 8
          ∃ t, exec (.ingressPut n) s = .next t ∧ Answered s t n r .performed ∧ t.mem = s.mem ∧
            BytesPut (s.core d at_).istore (t.core d at_).istore off data)) ∧
      (∀ data, r.kind = .send data →
        let e := (s.gate d unit).engines[r.win.toNat]'r.win.isLt
        let tail := if w.getLsbD 5 then e.sealed else e.tail
        let area := sizeOf_ w - 64
        let len := 64 * beatsIn (data.length + 8)
        let record := bytesOf 8 (data.length % 2 ^ 13 + r.srcEp.toNat * 2 ^ 32) ++ data
        let place (j : Nat) : Nat := base + 64 + (e.head.toNat + 64 * (j / 64)) % area + j % 64
        (e.head.toNat < tail.toNat ∨ area < e.head.toNat - tail.toNat + len → RefusedBy (.ingressSend n) s n r d unit 2) ∧
        (tail.toNat ≤ e.head.toNat → e.head.toNat - tail.toNat + len ≤ area → Memory.wf s.mem = true →
          ∃ t, exec (.ingressSend n) s = .next t ∧ Answered s t n r .performed ∧
            (∀ j, j < len → memGet t.mem (place j) = record.getD j 0) ∧
            (∀ k, k < 8 → memGet t.mem (base + k) = BitVec.ofNat 8 ((e.head.toNat + len) % 2 ^ 64 / 256 ^ k)) ∧
            (∀ a, (∀ j, j < len → a ≠ place j) → (a < base ∨ base + 8 ≤ a) → memGet t.mem a = memGet s.mem a))) ∧
      (∀ off len ps, r.kind = .get off len ps → off + len ≤ sizeOf_ w →
        ∃ t, exec (.ingressGet n) s = .next t ∧ Answered s t n r (.answered (bytesAt s.mem (base + off) len) 0 false) ∧ t.mem = s.mem) ∧
      (∀ op off x cmp rm b, r.kind = .ramo op off x cmp rm b → op < 4 →
        let size := if op = 3 then 4 else 8
        let old := littleEndian s.mem (base + off) size
        off + size ≤ sizeOf_ w →
        ∃ t fl, exec (.ingressRamo n) s = .next t ∧ Answered s t n r (.answered (bytesAt s.mem (base + off) size) fl false) ∧
          (op ≠ 3 → fl = 0) ∧ (op = 0 → Stored s.mem t.mem (base + off) 8 (BitVec.ofNat 64 old + x)) ∧
          (op = 1 → Stored s.mem t.mem (base + off) 8 x) ∧
          (op = 2 → if old = cmp.toNat then Stored s.mem t.mem (base + off) 8 x else t.mem = s.mem) ∧
          (op = 3 → ∃ new, FloatResult .add ⟨8, 23⟩ (if rm.toNat < 5 then rm.toNat else 0) ⟨⟨8, 23⟩, old⟩ ⟨⟨8, 23⟩, x.toNat % 2 ^ 32⟩ ⟨⟨8, 23⟩, 0⟩ new fl ∧
            Stored s.mem t.mem (base + off) 4 (BitVec.ofNat 64 new)))) ∧
    (∀ e, Comes s n r d unit → refusalOf s d unit w r.srcEp r.dom (some r.fn.toNat) = some e →
      ∀ ev ∈ events, RefusedBy ev s n r d unit e) ∧
    (s.net[n]? = some r → r.stage = .flying → r.isStart = false →
      (∃ u, r.src = some (.here u) ∧ (s.part (s.partOfCtx u)).pstate ≠ .switching) →
      (TargetIs s r.target d unit → r.inc ≠ incarnation s d unit → ∃ t, exec (.staleIncarnationDrop n) s = .next t ∧
        Answered s { t with dies := s.dies } n r .stale ∧ t.mem = s.mem ∧ (t.die d).stales = (s.die d).stales + packets) ∧
      (∀ k, r.target.toNat = s.pkg.toNat * 2 ^ 14 + k → k < 2 ^ 14 → (160 ≤ k % 2 ^ 10 ∨ 8 ≤ k / 2 ^ 10) → (k % 2 ^ 10 ≠ 1023 ∨ 9 ≤ k / 2 ^ 10 ∧ k / 2 ^ 10 < 12) →
        OwnSource s r → ∀ ev ∈ events, exec ev s = .next { s with
          net := s.net.set n { r with stage := .refused 6 }
          hub := dropped s.hub packets }))

/-- R255, R263, R264, R271 to R273, R278: an acknowledged request leaves its slot's path and completes; a refused one leaves a
pending REMOTE-NACK fault; a GET's bytes are written and a RAMO's old value reaches its register; a reset notice ends its
flow; a packet not acknowledged is sent again, 16 times at most. DSBIND unbinds its slot, whose unused credit goes back to its
target, and waits for the reply, which binds it with its initial grant; BALW branches when the allowance covers s[a]. A demand is
answered by credit or a refusal, which a grant brings; the agents of the hub and the optical dies refuse it, one with a stale
incarnation is dropped and counted; credit unused for 65,536 cycles goes back to its target; a port's XOFF stands until its XON. That
a negative acknowledgement takes its beats out of INFL and leaves PMAX is the model's choice (log 85), and so is that the slot's credit
is dropped when a reset notice ends its flow (log 86). -/
def Obligations.MessageCompletions : Prop :=
  ∀ (s : State) (u : CtxId) (n : Nat) (r : Req) (ds : BitVec 4),
    let c := s.ctx u
    let x := slotOf c ds
    let rest := s.net.take n ++ s.net.drop (n + 1)
    (s.net[n]? = some r → r.src = some (.here u) → r.ds = ds → r.isStart = false → Reached s u →
      (∀ mark, r.stage = .performed → r.isLoad = false →
        exec (.acknowledgement n mark) s = .next (({ s with net := rest } : State).setCtx u (withSlot c ds (acked x r.beats (mark || r.ce))))) ∧
      (∀ mark bs fl pf, r.stage = .answered bs fl pf → r.kind = .flush →
        exec (.acknowledgement n mark) s = .next (({ s with net := rest } : State).setCtx u { withSlot c ds { acked x r.beats (mark || r.ce) with pfl := x.pfl || pf } with
          csr := { c.csr with fflg := c.csr.fflg ||| fl } })) ∧
      (∀ e reason, r.stage = .refused e → c.msgFault = none →
        exec (.negativeAcknowledgement n reason) s = .next (({ s with net := rest } : State).setCtx u
          { withSlot c ds { x with infl := x.infl - r.beats } with
            msgFault := some ⟨0x07, BitVec.ofNat 64 (ds.toNat + 16 * r.fn.toNat + 2 ^ 8 * e.toNat + 2 ^ 12 * r.offset), 0⟩ })) ∧
      (∀ bs fl pf op off v cmp rm d data, r.stage = .answered bs fl pf → r.kind = .ramo op off v cmp rm d →
        bs.length = (if op = 3 then 4 else 8) →
        ∃ c', exec (.getResponse n data) s = .next (({ s with net := rest } : State).setCtx u c') ∧
          Wrote { withSlot c ds (acked x r.beats r.ce) with csr := { c.csr with fflg := c.csr.fflg ||| fl } }
            { c' with wait := none } d (BitVec.ofNat 64 (ofBytes bs)) c.pc ∧ c'.wait = c.wait) ∧
      (∀ bs fl pf off a data, r.stage = .answered bs fl pf → r.kind = .get off bs.length [(a, bs.length)] → r.rin = 0 →
        ∃ t, exec (.getResponse n data) s = .next t ∧ BytesPut s.mem t.mem a bs ∧ t.net = rest ∧
          slotOf (t.ctx u) ds = acked x r.beats r.ce ∧ (t.ctx u).pc = c.pc) ∧
      (r.stage = .stale → ∃ t, exec (.resetNotice (.here u) ds) s = .next t ∧ (∀ q ∈ t.net, q ∈ s.net ∧ q ≠ r) ∧
        (slotOf (t.ctx u) ds).bnd = false ∧ (slotOf (t.ctx u) ds).rst = true ∧ (slotOf (t.ctx u) ds).wc = 0 ∧
        (c.msgFault = none → ∃ p, (t.ctx u).msgFault = some p ∧ p.cause = 0x09)) ∧
      (r.stage = .flying → r.tries < 16 → exec (.retransmissionTimeout n) s = .next { s with
        net := s.net.set n { r with tries := r.tries + 1 } }) ∧
      (r.stage = .flying → 16 ≤ r.tries → ∃ t, exec (.retransmissionTimeout n) s = .next t ∧ (∀ q ∈ t.net, q ∈ s.net ∧ q ≠ r) ∧
        (slotOf (t.ctx u) ds).bnd = false ∧ (slotOf (t.ctx u) ds).rst = true ∧
        (c.msgFault = none → ∃ p, (t.ctx u).msgFault = some p ∧ p.cause = 0x09 ∧ p.tval.toNat / 2 ^ 8 % 16 = 1))) ∧
    (∀ a b, MaySend s false → s.me.binding = none → (s.me.x a).toNat < 2 ^ 32 → (s.me.x b).toNat < 4 →
      (∀ r ∈ s.net, r.src = some (.here s.cur) → r.ds ≠ ds) →
      let y := slotOf s.me ds
      ∃ t, exec (.dsbind ds a b) s = .next t ∧ t = { s with
          ctxs := t.ctxs
          quads := t.quads } ∧
        (y.bnd = false → t.quads = s.quads) ∧
        (y.demand = none → GivenBack s t [y]) ∧
        t.me = { withSlot s.me ds { y with
            bnd := false
            rst := false
            wc := 0
            demand := none
            refusal := none } with
          binding := some ⟨ds, (s.me.x a).setWidth 32, (s.me.x b).setWidth 2⟩
          wait := some .bind
          blocked := if s.me.wait = some .bind then s.me.blocked else s.time }) ∧
    (∀ b (reply : BindReply), c.binding = some b → b.ds = ds → c.chunk = none →
      let bound (out : Bool) (inc : BitVec 8) (wc : Nat) : Ctx := { gone (withSlot c ds { x with
            ep := b.ep
            win := b.win
            bnd := true
            out := out
            rst := false
            inc := inc
            wc := wc
            infl := 0
            pmax := 256
            since := s.time
            init := wc }) (c.pc + 4) with binding := none }
      (b.ep.toNat / 2 ^ 14 ≠ s.pkg.toNat → reply.refused = none →
        exec (.bindReply u reply) s =
          .next (s.setCtx u (bound (c.dom && (reply.outDomain || decide (b.ep = 0xFFFFC000))) reply.inc reply.credit))) ∧
      (∀ d unit, TargetIs s b.ep d unit → ∃ t, exec (.bindReply u reply) s = .next t ∧
        let g := s.gate d unit
        let w := windowOf s d unit b.win
        let grant := if refusalOf s d unit w (endpointOf s u) c.dom none ≠ none ∨ [1, 3, 4, 5].any (permitsFn w) = false then 0 else min 16 (creditOf g b.win)
        t = { s with
          ctxs := t.ctxs
          quads := t.quads } ∧
        t.ctx u = bound (c.dom && !insideDomain s d unit) (incarnation s d unit) grant)) ∧
    (∀ a (off : BitVec 17), s.me.chunk = none → s.me.msgFault = none →
      let t := relative s.me.pc off
      ((s.me.x a).toNat ≤ allowanceOf s s.cur.die (slotOf s.me ds) false → t.toNat < limit s.cur → GoesTo (.balw ds a off) s t) ∧
      (allowanceOf s s.cur.die (slotOf s.me ds) false < (s.me.x a).toNat → GoesTo (.balw ds a off) s (s.me.pc + 4))) ∧
    (Reached s u → x.bnd = true →
      (∀ dm k, x.demand = some dm → dm.answer = none → dm.order = none → dm.stale = false → x.ep.toNat = s.pkg.toNat * 2 ^ 14 + 2 ^ 10 * k + 1023 →
        k = 8 ∨ 12 ≤ k ∧ k < 16 → exec (.demand (.here u) ds) s = .next (s.setCtx u (withSlot c ds { x with
          demand := some { dm with answer := some (.refusal 1) } }))) ∧
      (∀ dm d unit, x.demand = some dm → dm.answer = none → dm.order = none → dm.stale = false → TargetIs s x.ep d unit →
        x.inc ≠ incarnation s d unit → exec (.demand (.here u) ds) s = .next ((s.setDie d { s.die d with stales := (s.die d).stales + 1 }).setCtx u
          (withSlot c ds { x with demand := some { dm with stale := true } }))) ∧
      (∀ dm d unit, x.demand = some dm → dm.answer = none → dm.order = none → dm.stale = false → TargetIs s x.ep d unit → x.inc = incarnation s d unit →
        (∀ v, v ≠ u → ∀ k : Fin 16, (s.ctx v).slots[k].demand = none) → (∀ e : Fin 8, (s.die e).swaps = []) → s.outs = [] →
        (∀ p, (s.part p).saves = []) → (∀ k : Fin 16, k.val ≠ ds.toNat → c.slots[k].demand = none) →
        let w := windowOf s d unit x.win
        (refusalOf s d unit w (endpointOf s u) c.dom (some dm.fn) = none → dm.beats - x.wc ≤ creditOf (s.gate d unit) x.win →
          ∃ t, exec (.demand (.here u) ds) s = .next t ∧ t.ctx u = withSlot c ds { x with demand := some { dm with
            order := some s.seq
            answer := some (.credit (dm.beats - x.wc)) } }) ∧
        (∀ e, refusalOf s d unit w (endpointOf s u) c.dom (some dm.fn) = some e →
          ∃ t, exec (.demand (.here u) ds) s = .next t ∧ t.quads = s.quads ∧ t.ctx u = withSlot c ds { x with demand := some { dm with
            order := some s.seq
            answer := some (.refusal e) } })) ∧
      (∀ dm g k, x.demand = some dm → dm.answer = some (.credit k) → x.ep.toNat / 2 ^ 14 = s.pkg.toNat →
        exec (.grant (.here u) ds g) s = .next (s.setCtx u (withSlot c ds { x with
          demand := none
          wc := x.wc + k
          since := s.time }))) ∧
      (∀ dm g e, x.demand = some dm → dm.answer = some (.refusal e) → x.ep.toNat / 2 ^ 14 = s.pkg.toNat →
        exec (.grant (.here u) ds g) s = .next (s.setCtx u (withSlot c ds { x with
          demand := none
          refusal := some (dm.fn, e) }))) ∧
      (x.wc ≠ 0 → x.since + 65536 ≤ s.time → ∃ t, exec (.creditReturn (.here u) ds) s = .next t ∧
        t = { s with
          ctxs := t.ctxs
          quads := t.quads } ∧ GivenBack s t [x] ∧
        t.ctx u = withSlot c ds { x with
          wc := 0
          since := s.time })) ∧
    (∀ pkg, exec (.portXoff pkg) s = .next (if s.xoff.contains pkg then s else { s with xoff := pkg :: s.xoff }) ∧
      exec (.portXon pkg) s = .next { s with xoff := s.xoff.filter fun p => decide (p ≠ pkg) })

namespace Sys2Proof.Claims

open Sys2Proof.Machine

/-! ## Threads -/

/-- A context outside any fork. -/
def Unforked (c : Ctx) : Prop := c.chunk = none ∧ c.joinPhase = false ∧ c.inner = none

/-- The thread of a context has nothing under way, and no message request of its own. -/
def Finished (s : State) (u : CtxId) : Prop :=
  Settled (s.ctx u) ∧ (s.ctx u).tile.queue = [] ∧ (∀ r ∈ s.net, r.src ≠ some (Holder.here u)) ∧
  ∀ h ∈ (s.die u.die).holds, h.who ≠ Holder.here u

/-- The 64 bytes of a thread record, as a number, field by field (R334). -/
def recordFrom (n : Nat) : Record :=
  let w (i : Nat) : Nat := n / 2 ^ (64 * i) % 2 ^ 64
  { pc := w 0 % 2 ^ 17
    rlen := w 0 / 2 ^ 17 % 4
    qcc := decide (w 0 / 2 ^ 19 % 2 = 1)
    pri := BitVec.ofNat 3 (w 0 / 2 ^ 20)
    cls := w 0 / 2 ^ 23 % 4
    sup := decide (w 0 / 2 ^ 25 % 2 = 1)
    slot := w 0 / 2 ^ 26 % 4
    codeid := BitVec.ofNat 32 (w 0 / 2 ^ 32)
    aff := BitVec.ofNat 32 (w 1)
    cwa := BitVec.ofNat 64 (w 2)
    sp := BitVec.ofNat 64 (w 3)
    args := #v[BitVec.ofNat 64 (w 4), BitVec.ofNat 64 (w 5), BitVec.ofNat 64 (w 6), BitVec.ofNat 64 (w 7)] }

/-- The reserved bits of a record are zero. -/
def Unreserved (n : Nat) : Prop := n / 2 ^ 28 % 16 = 0 ∧ n / 2 ^ 96 % 2 ^ 32 = 0

/-- A record passes the checks of R337 other than eligibility and level. -/
def RecordLegal (r : Record) : Prop :=
  r.cls ≠ 3 ∧ r.codeid ≠ 0 ∧ r.pc % 4 = 0 ∧ r.pc < (if r.qcc then 0x10000 else 0x20000) ∧ r.cwa.toNat % 8 = 0 ∧ (r.qcc = true → r.rlen = 0)

/-- The record that s[a] names: aligned, found by translation in unpoisoned memory; the state with that translation installed. -/
def Found (s : State) (a : BitVec 5) (m : Mapping) (s1 : State) : Prop :=
  (s.me.x a).toNat % 64 = 0 ∧ Mapped s .load false (s.me.x a) 1 m s1 ∧ IsMemory s m.pa ∧ s.isPoisoned m.pa 64 = false

/-- The ring that begins at quad `q`, or the QCC of `q`, is eligible for a record of a partition (R334), and its quads have
passed their self-tests (R386). -/
def Fits (s : State) (part : Nat) (d : Fin 8) (q : Nat) (r : Record) : Prop :=
  part ≠ 0 ∧ s.partOf d q = part ∧ r.aff.getLsbD q = true ∧
  if r.qcc then (s.quad d q).codeid = r.codeid ∧ (s.quad d q).bist.getLsbD 2 = false
  else s.ringFirst d q = q ∧ (s.ring d q).codeid = r.codeid ∧ (r.rlen = 0 ∨ s.ringLen d q = 2 ^ (r.rlen + 1)) ∧
    ∀ i, i < s.ringLen d q / 4 → (s.quad d (q + i)).bist.getLsbD 2 = false

/-- Slot `k` of that ring, on every core, or of that QCC holds no thread, and no quad there is under test (R24, R385). -/
def SlotFree (s : State) (d : Fin 8) (q k : Nat) (qcc : Bool) : Prop :=
  if qcc then k < 2 ∧ (s.ctx (mkCtxId d.val (128 + q) k)).status = .free ∧ (s.quad d q).bist.toNat % 4 ≠ 1
  else k < 4 ∧ s.fork ⟨d, mkFin32 q, mkFin4 k⟩ = none ∧
    (∀ i, i < s.ringLen d q → (s.ctx (mkCtxId d.val (4 * q + i) k)).status = .free) ∧
    ∀ i, i < s.ringLen d q / 4 → (s.quad d (q + i)).bist.toNat % 4 ≠ 1

/-- A thread's initial state (R335): PC, s2 to s6, level, priority and class from the record, PTROOT of the issuer; every other
register and CSR at its reset value; a QCC keeps its timeline. -/
def begun (old : Ctx) (r : Record) (issuer : BitVec 32) (ptroot : Word) (time : Nat) : Ctx :=
  { Ctx.idle with
    status := .live
    pc := BitVec.ofNat 64 r.pc
    regs := Vector.ofFn fun i => if i.val = 2 then r.sp else if h : 3 ≤ i.val ∧ i.val < 7 then r.args[i.val - 3]'(by omega) else 0
    sup := r.sup
    csr := { Csrs.reset with
      pri := r.pri
      ecls := r.cls
      ptroot := ptroot
      plvl := r.sup }
    tile := { Ctx.idle.tile with
      tln := old.tile.tln
      issue := old.tile.issue }
    cwa := r.cwa
    issuer := issuer
    aff := r.aff
    codeid := r.codeid
    last := time }

/-- A context that holds no thread any more: its registers and CSRs keep their values (R340). -/
def emptied (c : Ctx) : Ctx :=
  { Ctx.idle with
    regs := c.regs
    vregs := c.vregs
    masks := c.masks
    csr := c.csr
    epx := c.epx
    trb := c.trb
    sqcnt := c.sqcnt
    rollcnt := c.rollcnt
    tile := { c.tile with
      queue := []
      fault := none }
    last := c.last }

/-- A record placed there takes this slot next: a new thread of the running module, outside every domain. -/
def ModuleRuns (s : State) : Prop := s.hub.powerOff = false ∧ ∀ x, s.domain = some x → x.phase = .running

/-- The thread of `u` has been exchanged for the record of the one queue entry, its issue order kept: it stands in reserved
entry `e` with its registers and `pc`, queued at the tail, and the new thread stands in its slot at a place that fits. -/
def Exchanged (s t : State) (u : CtxId) (r : Record) (issuer : BitVec 32) (ptroot : Word) (pc : Word) (ready : Bool) : Prop :=
  ∃ (e : Nat) (w : Swapped) (v : CtxId), (s.die u.die).swap e = none ∧ (t.die u.die).swap e = some w ∧ w.entry = e ∧ w.home = u ∧
    w.ctx.pc = pc ∧ w.ctx.regs = (s.ctx u).regs ∧ w.ctx.vregs = (s.ctx u).vregs ∧ w.ctx.masks = (s.ctx u).masks ∧
    (t.die u.die).queue = [⟨s.partOfCtx u, .swapped e ready⟩] ∧
    t.ctx v = begun (if v = u then emptied (s.ctx u) else s.ctx v) r issuer ptroot s.time ∧ v.slot = u.slot ∧ v.die = u.die ∧ v.isQcc = u.isQcc ∧
    Fits s (s.partOfCtx u) u.die (if r.qcc then v.quad else s.ringFirst u.die v.quad) r


/-- R340: END of a thread outside a fork, with nothing under way and no fault pending, frees its context, registers kept (of a
domain context it reserves the slot), frees the mutexes that its thread has taken, wherever it took them (log 31), and returns the
unused credit of its slots to their targets; with a completion
word it first writes DONE and the OR of its scalar and vector flags there, and every other byte of memory keeps its value. While
work is outstanding it waits; a pending fault, or a fork, it raises. -/
def EndsThread : Prop :=
  ∀ (s : State), s.me.chunk = none → s.me.sealing = false →
    let after := if s.me.dom then { s.me with
        status := .reserved
        wait := none
        sealing := false
        slots := s.me.slots.map fun x => { x with
          wc := 0
          demand := none
          refusal := none } } else emptied s.me
    let mutexesOf (d : Fin 8) (q : Fin 32) : Vector (Option (Nat × Nat)) 8 := (s.quad d q.val).evu.mutexes.mapIdx fun m x =>
      if Table.find s.owners (8 * (32 * d.val + q.val) + m) = some (Holder.here s.cur) then none else x
    let unlocks (t : State) : Prop := t.owners = s.owners.filter (fun kh => decide (kh.2 ≠ Holder.here s.cur)) ∧
      ∀ (d : Fin 8) (q : Fin 32), (t.quad d q.val).evu = { (s.quad d q.val).evu with mutexes := mutexesOf d q }
    (Unforked s.me → NoFault s.me → Finished s s.cur →
      (s.me.cwa = 0 → ∃ t, exec .endThread s = .next t ∧ t = { s with
          ctxs := t.ctxs
          quads := t.quads
          owners := t.owners } ∧ OthersKept s t ∧ t.me = after ∧ unlocks t ∧
        ((∀ x ∈ s.me.slots.toList, x.demand = none) → ∀ (d : Fin 8) (unit : Nat), unit < 160 ∨ unit = 1023 →
          t.gate d unit = { gainedFrom s s.me.slots.toList d unit with evu := (t.gate d unit).evu })) ∧
      (s.me.cwa ≠ 0 → s.me.cwa.toNat % 8 = 0 → Flat s s.me.sup s.me.csr.ptroot → s.me.cwa.toNat + 8 ≤ s.dramEnd → s.me.rin = 0 →
        (∀ x ∈ s.me.slots.toList, x.bnd = false) →
        ∃ t, exec .endThread s = .next t ∧ StoreFrame { s with
            quads := t.quads
            owners := t.owners } t ∧ t.me = after ∧ unlocks t ∧
          Stored s.mem t.mem s.me.cwa.toNat 8 (BitVec.ofNat 64 (2 ^ 63 + (s.me.csr.fflg ||| s.me.csr.vflg).toNat)))) ∧
    (Unforked s.me → NoFault s.me → ¬(s.me.vecs = [] ∧ s.me.accs = [] ∧ s.me.copies = [] ∧ s.me.tile.queue = []) → Waits .endThread s .poll) ∧
    (NoFault s.me → ¬Unforked s.me → MayTrap s → Traps .endThread s 0x02 0) ∧
    (∀ p, s.me.copyFault = some p → MayTrap s →
      exec .endThread s = .next (s.setCtx s.cur (entered { s.me with copyFault := none } false p.cause p.tval s.me.pc 0)))

/-- R337: SPAWN of a legal record that some ring or QCC of the die is eligible for, with every earlier PUT of the
context acknowledged and a queue entry free, queues the record with its issuer, partition and interval, and the context goes on.
A misaligned record raises MISALIGNED, an illegal one ILLEGAL-OPERAND, an S-level record at level U PRIVILEGE. -/
def SpawnsThread : Prop :=
  ∀ (s : State) (a : BitVec 5), s.me.chunk = none → s.me.sealing = false →
    let d := s.cur.die
    ((s.me.x a).toNat % 64 ≠ 0 → MayTrap s → Traps (.spawn a) s 0x03 (s.me.x a)) ∧
    ∀ m s1, Found s a m s1 →
      let n := littleEndian s.mem m.pa 64
      let r := recordFrom n
      (¬Unreserved n ∨ ¬RecordLegal r → MayTrap s → TrapsFrom s1 (.spawn a) s 0x02 0) ∧
      (Unreserved n → RecordLegal r → r.sup = true → s.me.sup = false → MayTrap s → TrapsFrom s1 (.spawn a) s 0x0C (wordVal (.spawn a))) ∧
      (Unreserved n → RecordLegal r → (r.sup = true → s.me.sup = true) →
        (∃ q, q < 32 ∧ Fits s (s.partOfCtx s.cur) d q r) → (∀ x ∈ s.net, x.src = some (Holder.here s.cur) → ∀ o b, x.kind ≠ .put o b) →
        ((s.die d).queue.filter fun e => match e.item with
          | .fresh _ _ _ _ _ => true
          | .swapped _ _ => false).length < 192 → storesOut s s.cur < 31 →
        ∃ t, exec (.spawn a) s = .next t ∧
          t = { (s1.setCtx s.cur (gone s.me (s.me.pc + 4))).setDie d { s1.die d with
            queue := (s.die d).queue ++ [⟨s.partOfCtx s.cur, .fresh r (endpointOf s s.cur) s.me.csr.ptroot s.me.rin s.me.dom⟩] } with
            regions := t.regions })

/-- R339: START at level S sends a legal record to the endpoint in s[d], held if it leaves the domain, and goes on; at the target it
is placed on the slot that the record names, with the thread's initial state, when the place is eligible and free. It is refused
with reason 9 before step 10 of bring-up, for an agent and for a place that is not eligible, 6 for no endpoint, 10 for a record
that fails a check, 8 for an occupied slot, and nothing else changes but the count of dropped packets. The order of the reasons
is the model's reading (log 34). -/
def StartsThread : Prop :=
  ∀ (s : State),
    (∀ d a m s1, s.me.sup = true → s.me.chunk = none → s.me.sealing = false → Found s a m s1 →
      Unreserved (littleEndian s.mem m.pa 64) → RecordLegal (recordFrom (littleEndian s.mem m.pa 64)) →
      (∀ x ∈ s.net, x.src = some (Holder.here s.cur) → ∀ o b, x.kind ≠ .put o b) → storesOut s s.cur < 31 →
      let pkg := (s.me.x d).toNat / 2 ^ 14
      let member := match s.domain with
        | none => false
        | some x => decide (pkg / 2 ^ 10 = s.pkg.toNat / 2 ^ 10) && x.member.getLsbD (pkg % 2 ^ 10)
      let out := s.me.dom && !member
      ((s.me.x d).toNat < 2 ^ 32 → (out = true → 1 ≤ holdRoom s s.cur.die) → ∃ t, exec (.start d a) s = .next t ∧
        t = { s1.setCtx s.cur (gone s.me (s.me.pc + 4)) with
          regions := t.regions
          seq := if out then s.seq + 1 else s.seq
          net := s.net ++ [{
            src := some (.here s.cur)
            srcEp := endpointOf s s.cur
            ds := 0
            fn := 1
            target := (s.me.x d).setWidth 32
            win := 0
            inc := 0
            rin := s.me.rin
            dom := s.me.dom
            part := some (s.partOfCtx s.cur)
            out := out
            imm := false
            rel := true
            beats := 1
            credited := false
            tries := 0
            kind := .start (BitVec.ofNat 512 (littleEndian s.mem m.pa 64)) s.me.csr.ptroot
            stage := if out then .held s.seq else .flying
            via := []
            ce := false }] }) ∧
      (2 ^ 32 ≤ (s.me.x d).toNat → MayTrap s → ∃ t, exec (.start d a) s = .next t ∧
        t = { s1.setCtx s.cur (entered s.me false 0x02 0 s.me.pc 0) with regions := t.regions })) ∧
    ∀ n r word ptroot part, s.net[n]? = some r → r.kind = .start word ptroot → r.stage = .flying →
      (∃ u, r.src = some (.here u) ∧ (s.part (s.partOfCtx u)).pstate ≠ .switching) → r.part = some part → ModuleRuns s →
      let rec1 := recordFrom word.toNat
      let refused (e : BitVec 4) : Prop :=
        exec (.startArrival n) s = .next { s with net := s.net.set n { r with stage := .refused e } }
      (∀ k, r.target.toNat = s.pkg.toNat * 2 ^ 14 + k → k < 2 ^ 14 →
        let agent := k % 2 ^ 10 = 1023 ∧ (k / 2 ^ 10 = 8 ∨ 12 ≤ k / 2 ^ 10)
        let unit := k / 2 ^ 10 < 8 ∧ (k % 2 ^ 10 < 160 ∨ k % 2 ^ 10 = 1023)
        (s.hub.step < 10 → (agent ∨ unit) → refused 9) ∧ (10 ≤ s.hub.step → agent → refused 9) ∧
        (10 ≤ s.hub.step → ¬agent → ¬unit → OwnSource s r → exec (.startArrival n) s = .next { s with
          net := s.net.set n { r with stage := .refused 6 }
          hub := dropped s.hub (max 1 ((r.beats + 63) / 64)) })) ∧
      ∀ d unit, TargetIs s r.target d unit → 10 ≤ s.hub.step →
        let q := if 128 ≤ unit then (unit - 128) % 32 else s.ringFirst d (unit / 4)
        let u := mkCtxId d.val unit rec1.slot
        let good := Unreserved word.toNat ∧ RecordLegal rec1
        (¬good → refused 10) ∧ (good → 160 ≤ unit → refused 9) ∧
        (good → unit < 160 → (rec1.qcc ≠ decide (128 ≤ unit) ∨ (if rec1.qcc then 2 else 4) ≤ rec1.slot) → refused 9) ∧
        (good → unit < 160 → (rec1.qcc = decide (128 ≤ unit)) → rec1.slot < (if rec1.qcc then 2 else 4) → Fits s part d q rec1 →
          (SlotFree s d q rec1.slot rec1.qcc → s.domain = none →
            exec (.startArrival n) s = .next (({ s with net := s.net.set n { r with stage := .performed } } : State).setCtx u
              (begun (s.ctx u) rec1 r.srcEp ptroot s.time))) ∧
          ((s.ctx u).status ≠ .free → (∀ i, i < 32 → (s.quad d i).bist.toNat % 4 ≠ 1) → refused 8)) ∧
        (good → unit < 160 → (s.partOf d q ≠ part ∨ rec1.aff.getLsbD q = false) → refused 9)

/-- R342, R344: YIELD with no entry in the queue only marks the context; with one new entry that fits its slot the thread is
swapped out as ready, its registers kept, and the entry takes the slot. WFE goes on once the allowance covers the smaller of
s[a] and QUANT, and waits before. -/
def Yields : Prop :=
  ∀ (s : State), s.me.chunk = none →
    (Unforked s.me → (s.die s.cur.die).queue = [] → ∃ t, exec .yield s = .next t ∧
      t = s.setCtx s.cur { gone s.me (s.me.pc + 4) with
        yielded := true
        boost := false }) ∧
    (∀ part r issuer ptroot rin dom, Unforked s.me → Finished s s.cur → s.domain = none → s.hub.powerOff = false →
      (s.die s.cur.die).queue = [⟨part, .fresh r issuer ptroot rin dom⟩] → (s.die s.cur.die).swaps = [] → r.qcc = s.cur.isQcc →
      part = s.partOfCtx s.cur → (s.part part).pstate = .running →
      Fits s part s.cur.die (if r.qcc then s.cur.quad else s.ringFirst s.cur.die s.cur.quad) r →
      (∀ i, i < 32 → (s.quad s.cur.die i).bist.toNat % 4 ≠ 1) →
      ∃ t, exec .yield s = .next t ∧ Exchanged s t s.cur r issuer ptroot (s.me.pc + 4) true) ∧
    (∀ a, let need := min (s.me.x a).toInt ((s.ringOf s.cur).quant : Int)
      (need ≤ (s.ringOf s.cur).ealw → GoesTo (.wfe a) s (s.me.pc + 4)) ∧
      ((s.ringOf s.cur).ealw < need → ∃ t, exec (.wfe a) s = .next t ∧ t = s.setCtx s.cur { s.me with
        wait := some .energy
        blocked := t.me.blocked }))

/-- R265, R338, R343, R346: the dispatcher places the oldest ready entry that has a place; a context blocked on allowance for
DESCHED cycles gives its slot to a ready entry, unless DESCHED is 0; a swapped-out thread whose slots cover what it waits for is
queued again as ready; a context passed over for AGE cycles is raised. -/
def Dispatches : Prop :=
  ∀ (s : State) (d : Fin 8), s.domain = none → s.hub.powerOff = false →
    (∀ pre post part r issuer ptroot rin dom q k, (s.die d).queue = pre ++ ⟨part, .fresh r issuer ptroot rin dom⟩ :: post →
      (∀ e ∈ pre, ∃ j, e.item = .swapped j false) → (s.part part).pstate = .running → q < 32 → Fits s part d q r → SlotFree s d q k r.qcc →
      ∃ t q' k', exec (.dispatchPlace d) s = .next t ∧ q' ≤ q ∧ (q' = q → k' ≤ k) ∧ Fits s part d q' r ∧ SlotFree s d q' k' r.qcc ∧
        t = (s.setDie d { s.die d with queue := pre ++ post }).setCtx (mkCtxId d.val (if r.qcc then 128 + q' else 4 * q') k')
          (begun (s.ctx (mkCtxId d.val (if r.qcc then 128 + q' else 4 * q') k')) r issuer ptroot s.time)) ∧
    (∀ u part r issuer ptroot rin dom, u.die = d → (s.ctx u).status = .live → (s.ctx u).wait = some .allowance → Unforked (s.ctx u) →
      Finished s u → (s.die d).queue = [⟨part, .fresh r issuer ptroot rin dom⟩] → (s.die d).swaps = [] → r.qcc = u.isQcc →
      part = s.partOfCtx u → (s.part part).pstate = .running → Fits s part d (if r.qcc then u.quad else s.ringFirst d u.quad) r →
      (∀ i, i < 32 → (s.quad d i).bist.toNat % 4 ≠ 1) →
      ((s.ctx u).csr.desched = 0 → exec (.deschedule u) s = .next s) ∧
      ((s.ctx u).csr.desched ≠ 0 → (s.ctx u).blocked + (s.ctx u).csr.desched.toNat ≤ s.time →
        ∃ t, exec (.deschedule u) s = .next t ∧ Exchanged s t u r issuer ptroot (s.ctx u).pc false)) ∧
    (∀ e w pre post part, (s.die d).swap e = some w → (s.die d).queue = pre ++ ⟨part, .swapped e false⟩ :: post →
      (∀ x ∈ pre ++ post, ∀ b, x.item ≠ .swapped e b) →
      (∀ n ∈ w.ctx.needs, (slotOf w.ctx n.1).refusal ≠ none ∨ n.2.1 ≤ allowanceOf s d (slotOf w.ctx n.1) n.2.2) →
      exec (.parkedRequeue d e) s = .next (s.setDie d { s.die d with queue := pre ++ post ++ [⟨part, .swapped e true⟩] })) ∧
    (∀ u, (s.ctx u).status = .live → (s.ctx u).csr.age ≤ (s.ctx u).passed →
      exec (.ageBoost u) s = .next (s.setCtx u { s.ctx u with boost := true }))

end Sys2Proof.Claims

/-- R337, R339 to R340: how a thread begins and ends: SPAWN and START, the placing of a START's record, END. -/
def Obligations.ThreadLifecycle : Prop := EndsThread ∧ SpawnsThread ∧ StartsThread

/-- R265, R338, R342 to R344, R346: YIELD, WFE, and the dispatcher's events. -/
def Obligations.ThreadScheduling : Prop := Yields ∧ Dispatches

namespace Sys2Proof.Claims

open Sys2Proof.Machine

/-! ## Recovery intervals -/

/-- The interval after `n`: numbers wrap past 0 (R314). -/
def following (n : BitVec 32) : BitVec 32 := BitVec.ofNat 32 (if n.toNat = 2 ^ 32 - 1 then 1 else n.toNat + 1)

/-- Interval `a` is later than `n`, in the order that wraps (R314). -/
def Later (a n : BitVec 32) : Prop := 2 ^ 31 ≤ (2 ^ 32 + n.toNat - a.toNat) % 2 ^ 32

def isLater (a n : BitVec 32) : Bool := decide (2 ^ 31 ≤ (2 ^ 32 + n.toNat - a.toNat) % 2 ^ 32)

/-- The table of contexts names each context of the module once, in order; every step keeps this (StepInvariant). -/
def Regular (s : State) : Prop := (s.ctxs.map (·.1)).Pairwise (· < ·) ∧ ∀ kc ∈ s.ctxs, kc.1 < 5120

/-- What a snapshot of a context outside any fork holds (R322). -/
def snapOf (c : Ctx) (home : CtxId) (pc : Word) (rin : BitVec 32) (sealing : Bool) : Snapshot where
  rin := rin
  sealing := sealing
  regs := c.regs
  pc := pc
  sup := c.sup
  csr := c.csr
  tln := c.tile.tln
  issue := c.tile.issue
  fork := none
  inner := none
  joinFirst := false
  home := home

/-- Keeping a snapshot of interval `n` (R320, R321). -/
def keepSnap (v : Vector (Option Snapshot) 2) (n : BitVec 32) (x : Snapshot) : Vector (Option Snapshot) 2 :=
  if n.toNat % 2 = 0 then v.set 0 (some x) else v.set 1 (some x)

/-- No thread of the domain is out of its context: no fork, no swapped-out or saved thread. -/
def AllResident (s : State) : Prop := s.forks = [] ∧ (∀ d, (s.die d).swaps = []) ∧ ∀ p : Fin 16, s.parts[p].saves = []

/-- A request that is in the egress hold. -/
def Held (r : Req) : Prop := ∃ k, r.stage = .held k

/-- R320 waits for nothing more: no earlier write, copy or tile operation is under way, and every request that has issued is in
the hold. -/
def MaySeal (s : State) : Prop :=
  Settled s.me ∧ s.me.tile.queue = [] ∧ ∀ r ∈ s.net, r.src = some (Holder.here s.cur) → Held r ∨ ∃ due, r.stage = .timed due

/-- R320, R321: SEALA of a domain context with nothing under way takes the provisional snapshot and announces its arrival, and
waits before; SEALW passes when nothing is to be sealed, waits for the seal, and then takes the full snapshot and advances RIN;
a waiting SEALW looks again once the seal has come. -/
def SealsAnnounced : Prop :=
  ∀ (s : State), Unforked s.me →
    let sealed := (s.die s.cur.die).sealed
    let n := s.me.rin
    (∀ p, s.me.msgFault = some p → MayTrap s →
      exec .seala s = .next (s.setCtx s.cur (entered { s.me with msgFault := none } false p.cause p.tval s.me.pc 0))) ∧
    (s.me.dom = true → s.me.sealing = false → s.me.msgFault = none → MaySeal s →
      ∃ t, exec .seala s = .next t ∧ t = s.setCtx s.cur { gone s.me (s.me.pc + 4) with
        snaps := keepSnap s.me.snaps n (snapOf s.me s.cur (s.me.pc + 4) n true)
        sealing := true
        arrived := n }) ∧
    (s.me.dom = true → s.me.sealing = false → s.me.msgFault = none → ¬MaySeal s → Waits .seala s .poll) ∧
    ((s.me.dom = false ∨ s.me.sealing = true) → s.me.msgFault = none → MayTrap s → Traps .seala s 0x02 0) ∧
    (s.me.sealing = false → GoesTo .sealw s (s.me.pc + 4)) ∧
    (s.me.sealing = true → ¬Later n sealed → ∃ t, exec .sealw s = .next t ∧ t = s.setCtx s.cur { gone s.me (s.me.pc + 4) with
      snaps := keepSnap s.me.snaps n (snapOf s.me s.cur (s.me.pc + 4) (following n) false)
      rin := following n
      sealing := false }) ∧
    (s.me.sealing = true → Later n sealed → Waits .sealw s .sealing) ∧
    ∀ u, (s.ctx u).wait = some .sealing → (s.ctx u).sealing = true → ¬Later (s.ctx u).rin (s.die u.die).sealed →
      exec (.sealwRelease u) s = .next (s.setCtx u { s.ctx u with wait := some .poll })

/-- The context runs a chunk that is not the oldest of its fork (R26). -/
def Younger (s : State) (u : CtxId) : Prop :=
  ∃ ch x, (s.ctx u).chunk = some ch ∧ s.fork (s.forkIdOf u) = some x ∧ ch.number ≠ x.info.oldest

/-- A request leaves the egress hold at seal `n`: its interval is sealed, and before one with `.rel` nothing earlier of its thread is
outstanding (R279, R290, R325; log 135). -/
def LeavesHold (s : State) (n : BitVec 32) (i : Nat) (r : Req) : Prop :=
  Held r ∧ ¬Later r.rin n ∧ (r.rel = true → ∀ j q, j < i → s.net[j]? = some q →
    q.src ≠ r.src ∨ (r.src = none ∧ q.srcEp.toNat / 2 ^ 14 ≠ r.srcEp.toNat / 2 ^ 14))

/-- The requests that leave the hold fly, the others are as they were. -/
def HoldLeft (s t : State) (n : BitVec 32) : Prop :=
  t.net.length = s.net.length ∧ ∀ i r, s.net[i]? = some r →
    (LeavesHold s n i r → t.net[i]? = some { r with stage := .flying }) ∧ (¬LeavesHold s n i r → t.net[i]? = some r)

/-- The held device stores that seal `n` releases, die by die in the order in which they entered (R325). -/
def releasedStores (s : State) (n : BitVec 32) : List HeldStore :=
  (List.range 8).flatMap fun d => (s.die (mkFin8 d)).holds.filter fun h => !isLater h.rin n

/-- Stores to device control registers performed one after the other. -/
def registersStored (s : State) : List HeldStore → Option State
  | [] => some s
  | h :: hs => match s.place h.pa with
    | .device o => (registerStored s o h.val).bind fun t => registersStored t hs
    | _ => none

/-- The seal declared has been applied, but for the device stores that it releases (R314, R323 to R326). -/
def SealApplied (s t : State) (x : Domain) : Prop :=
  let due : Prop := (x.declared - x.scrubbed).toNat < 2 ^ 31
  t = { s with
    domain := some { x with
      s := x.declared
      scrubbed := if (x.declared - x.scrubbed).toNat < 2 ^ 31 then x.scrubbed else x.declared }
    tags := t.tags
    undo := t.undo
    dies := t.dies
    net := t.net
    quads := t.quads
    ctxs := t.ctxs
    parts := t.parts } ∧
  (∀ kt, kt ∈ t.tags ↔ kt ∈ s.tags ∧ (due ∨ kt.2 = x.declared ∨ kt.2 = following x.declared)) ∧
  (∀ (d : Fin 8) r, r ∈ t.undo[d] ↔ r ∈ s.undo[d] ∧ Later r.k x.declared) ∧
  (∀ d, t.die d = { s.die d with
    sealed := x.declared
    holds := (s.die d).holds.filter fun h => isLater h.rin x.declared
    undoBuf := (t.die d).undoBuf } ∧ ∀ r, r ∈ (t.die d).undoBuf ↔ r ∈ (s.die d).undoBuf ∧ Later r.k x.declared) ∧
  HoldLeft s t x.declared ∧
  (∀ (d : Fin 8) q (i : Fin 4) tail r, (s.quad d q).engines[i].pending = some (tail, r) →
    (¬Later r x.declared → (t.quad d q).engines[i].sealed = tail ∧ (t.quad d q).engines[i].pending = none) ∧
    (Later r x.declared → (t.quad d q).engines[i] = (s.quad d q).engines[i])) ∧
  (∀ u, t.ctx u = s.ctx u ∨ ((s.ctx u).status = .reserved ∧ t.ctx u = emptied (s.ctx u))) ∧
  ∀ u, (s.ctx u).status = .reserved → (s.ctx u).dom = true → ¬Later (s.ctx u).rin x.declared → t.ctx u = emptied (s.ctx u)

/-- The slot of the frame in which DRAM serves background work (R129). -/
def frameSlot (s : State) : Nat := s.time / 16 % 64

/-- R314, R317, R318, R323, R324, R326: a die forwards its arrival when each of its domain contexts has arrived or has ended; the
seal is declared when every die has; applying it frees the undo records up to it, releases held requests and performs held device
stores in the order in which they entered, seals tails, sets SEALRIN and frees reserved slots. Pressure is raised once in an interval. The undo writer drains into its stack in slots
56 to 59, if the region has room; in slots 62 and 63 scrubbing clears the tags of other intervals than the current two, and a
seal that comes 2^31 seals after the latest pass does so itself. A declared seal with an empty agenda, the slots of the
scrub, and when a held request with `.rel` leaves are the model's choice (logs 71, 94, 135). -/
def SealsCounted : Prop :=
  ∀ (s : State) (x : Domain), s.domain = some x →
    let n := following x.declared
    let here (d : Fin 8) : Prop := ∀ u, u.die = d → (s.ctx u).dom = true → (s.ctx u).status ≠ .free →
      (s.ctx u).status = .reserved ∨ ¬Later n (s.ctx u).arrived
    (Regular s → AllResident s → x.phase = .running →
      (∀ d, here d → exec (.sealArrive d) s = .next (s.setDie d { s.die d with arrivedFor := n })) ∧
      (∀ d, (∃ u, u.die = d ∧ (s.ctx u).dom = true ∧ (s.ctx u).status = .live ∧ (s.ctx u).chunk = none ∧ Later n (s.ctx u).arrived) →
        exec (.sealArrive d) s = .next s) ∧
      (x.s = x.declared → (∀ d, here d ∧ (s.die d).arrivedFor = n) →
        exec (.sealedDeclare n) s = .next { s with domain := some { x with declared := n } })) ∧
    (x.declared = x.s → ∃ t, exec .sealedApply s = .next t ∧ t = { s with net := t.net } ∧ HoldLeft s t x.s) ∧
    (x.declared ≠ x.s → (∀ h ∈ releasedStores s x.declared, ∃ o, s.place h.pa = .device o ∧ (registerStored s o h.val).isSome = true) →
      ∃ s1 t, exec .sealedApply s = .next t ∧ SealApplied s s1 x ∧ registersStored s1 (releasedStores s x.declared) = some t) ∧
    (∀ h, x.declared ≠ x.s → releasedStores s x.declared = [h] → IsMemory s h.pa →
      ∃ s1 t, exec .sealedApply s = .next t ∧ SealApplied s s1 x ∧ StoreFrame s1 t ∧ Stored s.mem t.mem h.pa h.size h.val) ∧
    (∀ b, let pressed : Prop := b = true ∨ ∃ k : Fin 8, s.hub.ulogth.toNat ≤ 80 * s.undo[k].length
      (¬pressed ∨ x.phase ≠ .running → exec (.undoPressure b) s = .next s) ∧
      (x.phase = .running → pressed → ∃ t, exec (.undoPressure b) s = .next t ∧
        t = { s with
          ctxs := t.ctxs
          forks := t.forks
          dies := t.dies
          parts := t.parts } ∧
        ∀ u, let raised : Prop := (s.ctx u).dom = true ∧ (s.ctx u).status ≠ .reserved ∧ (s.ctx u).pressed ≠ (s.ctx u).rin ∧ ¬Younger s u
          (raised → t.ctx u = { s.ctx u with
            pressed := (s.ctx u).rin
            csr := { (s.ctx u).csr with ipend := true } }) ∧ (¬raised → t.ctx u = s.ctx u))) ∧
    (∀ d : Fin 8, let drains : Prop := 56 ≤ frameSlot s ∧ frameSlot s < 60 ∧
        80 * (s.undo[d].length + (s.die d).undoBuf.length) ≤ x.usize * 2 ^ 30
      (drains → exec (.undoDrain d) s = .next ({ s.setDie d { s.die d with undoBuf := [] } with
        undo := s.undo.set d.val (s.undo[d] ++ (s.die d).undoBuf) d.isLt })) ∧
      (¬drains → exec (.undoDrain d) s = .next s)) ∧
    (frameSlot s < 62 → exec .tagScrub s = .next s) ∧
    (62 ≤ frameSlot s → ∃ t, exec .tagScrub s = .next t ∧ t = { s with
        tags := t.tags
        domain := some { x with scrubbed := x.s } } ∧
      ∀ kt, kt ∈ t.tags ↔ kt ∈ s.tags ∧ (kt.2 = x.s ∨ kt.2 = following x.s ∨ kt.2 = following x.declared))

/-! ## Rollback, errors, domains -/

/-- One record of the error store, in the free place that its sequence number gives (R388, R389). -/
def Recorded (s t : State) (path : BitVec 64) (rin : BitVec 32) (cls action : Nat) : Prop :=
  t.hub = { s.hub with
    errors := t.hub.errors
    errhead := s.hub.errhead + 1 } ∧
  ∃ r : BitVec 512, Table.find t.hub.errors (s.hub.errhead.toNat % 8192) = some r ∧
    r.toNat % 2 ^ 64 = path.toNat ∧ r.toNat / 2 ^ 64 % 2 ^ 64 = s.time % 2 ^ 64 ∧ r.toNat / 2 ^ 128 % 2 ^ 32 = rin.toNat ∧
    r.toNat / 2 ^ 160 % 2 ^ 16 = (if rin ≠ 0 ∨ action = 1 ∨ action = 2 then ((s.domain.map fun (x : Domain) => x.domid.toNat).getD 0) else 0) ∧
    r.toNat / 2 ^ 176 % 2 ^ 8 = cls ∧ r.toNat / 2 ^ 184 % 2 ^ 8 = action ∧ r.toNat / 2 ^ 384 % 2 ^ 64 = s.hub.errhead.toNat

/-- There is room for a record. -/
def RecordRoom (s : State) : Prop := (s.hub.errhead - s.hub.errack).toNat < 8192

/-- The undo records in the order in which a rollback applies them: newest first, the writers' buffers before the regions (R329). -/
def applied (s : State) : List UndoRec :=
  (s.dies.toList.flatMap fun d => d.undoBuf.reverse) ++ s.undo.toList.flatMap List.reverse

/-- A context outside any fork as its snapshot of interval `n` restores it, stopped until RESUME (R330): vectors and masks
clear, no fault pending, slots bound but without allowance, the gap of its trace due (R377) from this time and place. -/
def restoredFrom (c : Ctx) (x : Snapshot) (n : BitVec 32) (time : Nat) (ep : BitVec 32) : Ctx :=
  { Ctx.idle with
    status := .rolling
    regs := x.regs
    pc := x.pc
    sup := x.sup
    csr := x.csr
    sqcnt := c.sqcnt
    tile := { Ctx.idle.tile with
      tln := x.tln
      issue := x.issue }
    slots := c.slots.map fun y => { y with
      wc := 0
      infl := 0
      demand := none
      refusal := none }
    rin := x.rin
    dom := true
    sealing := x.sealing
    arrived := n
    rollcnt := c.rollcnt
    snaps := c.snaps
    last := c.last
    gap := some (3, time, ep)
    cwa := c.cwa
    issuer := c.issuer
    aff := c.aff
    codeid := c.codeid
    gswDue := c.gswDue
    born := c.born }

/-- The snapshot of interval `n`: a full one made by its seal, or a provisional one made in it (R330). -/
def Holds (c : Ctx) (n : BitVec 32) (x : Snapshot) : Prop :=
  c.snaps[n.toNat % 2]'(Nat.mod_lt _ (by decide)) = some x ∧ x.rin = (if x.sealing then n else following n) ∧ x.fork = none ∧ x.inner = none

/-- A thread of the domain stands in the context. -/
def inContext (c : Ctx) : Bool := c.dom && decide (c.status ≠ .free)

/-- The quad holds a context of the domain (R251). -/
def HoldsDomain (s : State) (d : Fin 8) (q : Nat) : Prop := ∃ u, u.die = d ∧ u.quad = q ∧ inContext (s.ctx u) = true

/-- A mutex that a thread of the domain holds. -/
def ownedInDomain (s : State) (k : Nat) : Bool :=
  match Table.find s.owners k with
  | some (.here u) => (s.ctx u).dom
  | _ => false

/-- The event unit of a quad that held a context of the domain, after its rollback (R251). -/
def evuReset (s : State) (d : Fin 8) (q : Nat) : Evu :=
  let e := (s.quad d q).evu
  { lines := Vector.replicate 32 0
    bars := e.bars.map fun b => { b with
      arr := 0
      myg := Vector.replicate 18 b.gen }
    mutexes := e.mutexes.mapIdx fun m x => if ownedInDomain s (8 * (32 * d.val + q) + m) then none else x
    queue := e.queue.filter fun v => !(inContext (s.ctx v) && decide (v.die = d) && decide (v.quad = q))
    signals := [] }

/-- Every member of a barrier domain of a quad, ring or die lies in the rollback domain (R251). -/
def WhollyInside (s : State) (b : BarKey) (d : Fin 8) : Prop :=
  ((∃ q, b.net = .quad d q) ∨ (∃ f, b.net = .ring d f) ∨ b.net = .die d) ∧
  ∀ n, n < 160 → (s.bar b).members.getLsbD n = true → insideDomain s d n = true

/-- Arrivals that the restored seal keeps, and those that it drops. -/
def Splits (n : BitVec 32) (l pre post : List (BitVec 32 × BitVec 32 × Nat)) : Prop :=
  l = pre ++ post ∧ (∀ a ∈ pre, a.1 = 0 ∨ ¬Later a.1 n) ∧ ∀ a ∈ post, a.1 ≠ 0 ∧ Later a.1 n

/-- Event units and barriers after a rollback to `n` (R251). -/
def SyncReset (s t : State) (n : BitVec 32) : Prop :=
  (∀ (d : Fin 8) (q : Fin 32), (HoldsDomain s d q.val → (t.quad d q.val).evu = evuReset s d q.val) ∧
    (¬HoldsDomain s d q.val → (t.quad d q.val).evu = (s.quad d q.val).evu)) ∧
  (∀ b d, WhollyInside s b d → ∀ pre post, Splits n (s.bar b).history pre post → t.bar b = { s.bar b with
    ph := (pre.getLast?.map (·.2.1)).getD 0
    arr := (pre.getLast?.map (·.2.2)).getD 0
    history := pre }) ∧
  ∀ b (d : Fin 8), (∃ q, b.net = .quad d q) ∨ (∃ f, b.net = .ring d f) ∨ b.net = .die d → ¬WhollyInside s b d → t.bar b = s.bar b

/-- The domain's traffic after a rollback to `n`: requests, demands of senders elsewhere, combining entries, held stores and thread
records of the domain are dropped, all or those of later intervals; a request that its target has yet to serve loses its source
(R276, R282, R329). -/
def TrafficDropped (s t : State) (n : BitVec 32) : Prop :=
  t.net = (s.net.filter fun r => if r.dom then !isLater r.rin n && (match r.stage with
      | .held _ => true
      | .flying => true
      | _ => false)
    else match r.src with
      | some (.here u) => !inContext (s.ctx u)
      | _ => true).map (fun r => if r.dom then { r with src := none } else r) ∧
  t.outs = s.outs.filter (fun o => !o.dom) ∧
  (∀ d unit, unit < 160 ∨ unit = 1023 → (t.gate d unit).comb = (s.gate d unit).comb.filter (fun e => !e.dom) ∧
    ∀ i : Fin 4, (t.gate d unit).engines[i].pending = none) ∧
  ∀ d, (t.die d).holds = (s.die d).holds.filter (fun h => !isLater h.rin n) ∧
    (t.die d).queue = (s.die d).queue.filter fun q => match q.item with
      | .fresh _ _ _ rin dom => !(dom && isLater rin n)
      | .swapped _ _ => true

/-- The initial grant of a binding of a context to a window of the module (R264). -/
def grantTo (s : State) (u : CtxId) (y : DSlot) (d : Fin 8) (unit : Nat) : Nat :=
  let w := windowOf s d unit y.win
  if (refusalOf s d unit w (endpointOf s u) true none).isSome || !([1, 3, 4, 5].any (permitsFn w)) then 0
  else min 16 (creditOf (s.gate d unit) y.win)

/-- No other slot of a context that RESUME restarts draws on the same credit. -/
def DrawsAlone (s : State) (u : CtxId) (i : Fin 16) (d : Fin 8) (unit : Nat) : Prop :=
  ∀ v (j : Fin 16), (s.ctx v).status = .rolling → (s.ctx v).dom = true → (v, j) ≠ (u, i) → drawsOn s (s.ctx v).slots[j] d unit = false

/-- R328 to R330, R332: a raised rollback of a domain whose threads are all resident outside forks, with a snapshot of the sealed
interval each, stops them at it, applies every undo record newest first, bytes and tags, and empties the undo log; a thread born
later is gone. Event units and barriers are reset (R251), the domain's traffic is dropped, the credit of its slots goes back
(R282). RESUME lets the restored contexts run, ROLLCNT advanced and their bound slots granted afresh as at the bind (R282); it waits
for the RELOAD of every die of which an ISTORE word was lost (R332, R373). ROLLREQ raises a rollback. That SQCNT keeps its counts is the model's choice (log 64). -/
def RollsBack : Prop :=
  ∀ (s : State) (x : Domain), s.domain = some x →
    (x.phase ≠ .fatal → x.wanted = true → x.declared = x.s → Regular s → AllResident s → Memory.wf s.mem = true →
      (∀ kq ∈ s.quads, ∀ i : Fin 4, kq.2.rwin[i].getLsbD 4 = false) →
      (∀ u, (s.ctx u).chunk = none ∧ (s.ctx u).joinPhase = false) →
      (∀ u, (s.ctx u).dom = true → (s.ctx u).status ≠ .free → Later (s.ctx u).born x.s ∨ ∃ y, Holds (s.ctx u) x.s y ∧ y.home = u) →
      ∃ t, exec .domainRollback s = .next t ∧
        t.domain = some { x with
          phase := .rolling
          wanted := false } ∧
        (∀ u y, (s.ctx u).dom = true → (s.ctx u).status ≠ .free → ¬Later (s.ctx u).born x.s → Holds (s.ctx u) x.s y →
          t.ctx u = restoredFrom (s.ctx u) y x.s s.time (endpointOf s u)) ∧
        (∀ u, (s.ctx u).dom = true → (s.ctx u).status ≠ .free → Later (s.ctx u).born x.s → t.ctx u = emptied (s.ctx u)) ∧
        (∀ u, (s.ctx u).dom = false → t.ctx u = { s.ctx u with woken := (t.ctx u).woken }) ∧
        (∀ d : Fin 8, t.undo[d] = [] ∧ (t.die d).undoBuf = [] ∧ (t.die d).sealed = x.s ∧ (t.die d).arrivedFor = x.s) ∧
        (∀ a, (match ((applied s).filter fun r => decide (r.pa ≤ a ∧ a < r.pa + 64)).getLast? with
          | none => memGet t.mem a = memGet s.mem a
          | some r => memGet t.mem a = BitVec.ofNat 8 (r.pre.toNat / 2 ^ (8 * (a - r.pa))))) ∧
        (∀ q, Table.getD t.tags q 0 = (((applied s).filter fun r => decide (r.pa / 64 = q)).getLast?.map (·.oldTag)).getD
          (Table.getD s.tags q 0)) ∧
        SyncReset s t x.s ∧ TrafficDropped s t x.s ∧
        ((∀ u (i : Fin 16), inContext (s.ctx u) = true → (s.ctx u).slots[i].demand = none) →
          (∀ r ∈ s.net, r.credited = false) → ∀ d unit, unit < 160 ∨ unit = 1023 → (t.gate d unit).pool =
            (gainedFrom s ((s.ctxs.filter fun kc => inContext kc.2).flatMap fun kc => kc.2.slots.toList) d unit).pool) ∧
        t.rngb = s.rngb ∧ t.rngl = s.rngl ∧ t.hub = s.hub ∧ t.time = s.time) ∧
    (∀ v : BitVec 64,
      (x.phase ≠ .rolling ∨ x.wanted = true ∨ x.reload ≠ 0 ∨ s.hub.powerOff = true ∨ s.time < v.toNat → exec (.rollbackResume v) s = .next s) ∧
      (x.phase = .rolling → x.wanted = false → x.reload = 0 → s.hub.powerOff = false → v.toNat ≤ s.time → Regular s →
        ∃ t, exec (.rollbackResume v) s = .next t ∧ t.domain = some { x with phase := .running } ∧
          ((∀ u, (s.ctx u).status = .rolling → u.isQcc = true ∨ (s.ctx u).csr.trcctl.toNat % 8 = 0) → t.cores = s.cores) ∧
          ∀ u, ((s.ctx u).status ≠ .rolling → t.ctx u = s.ctx u) ∧
            ((s.ctx u).status = .rolling → (s.ctx u).dom = true →
              let runs := s.partOfCtx u ≠ 0 ∧ (s.part (s.partOfCtx u)).pstate = .running
              t.ctx u = { s.ctx u with
                status := if runs then .live else .switching
                rollcnt := BitVec.ofNat 64 (((s.ctx u).rollcnt.toNat + 1) % 2 ^ 32 + x.s.toNat * 2 ^ 32)
                last := s.time
                gap := if runs then none else (s.ctx u).gap
                slots := (t.ctx u).slots } ∧
              ∀ i : Fin 16, let y := (s.ctx u).slots[i]
                (y.bnd = false → (t.ctx u).slots[i] = y) ∧
                (y.bnd = true → ∃ w, (t.ctx u).slots[i] = { y with
                  wc := w
                  infl := 0
                  pmax := 256
                  since := s.time
                  init := w } ∧
                  ((∀ d unit, ¬TargetIs s y.ep d unit) → w = y.init) ∧
                  ∀ d unit, TargetIs s y.ep d unit → w ≤ 16 ∧ (DrawsAlone s u i d unit → w = grantTo s u y d unit))))) ∧
    (6 ≤ s.hub.step → x.phase ≠ .fatal → exec (.rollreq 1) s = .next { s with domain := some { x with wanted := true } }) ∧
    ∀ d : Fin 8, exec (.reload d 1) s = .next { s with domain := some { x with reload := x.reload &&& ~~~(1#8 <<< d.val) } }

/-- An address in the QSPM of a quad whose partition is not in the domain. -/
def Apart (s : State) (pa : BitVec 48) : Prop :=
  ∃ (d : Fin 8) (q : Fin 32), 0x100000000000 + 0x8000000 * d.val + 0x400000 * q.val ≤ pa.toNat ∧
    pa.toNat < 0x100000000000 + 0x8000000 * d.val + 0x400000 * (q.val + 1) ∧ s.inDomain (s.partOf d q.val) = false

/-- An error that rolls the domain back is recorded and raises the rollback, and nothing else happens yet. -/
def Raised (s t : State) (x : Domain) (path : BitVec 64) (rin : BitVec 32) : Prop :=
  Recorded s t path rin 2 1 ∧ t = { s with
    hub := t.hub
    domain := some { x with wanted := true } }

/-- The domain is stopped for good: each of its contexts has recorded DOMAIN-FATAL with the record's number (R333). -/
def StoppedForGood (s t : State) (x : Domain) (path : BitVec 64) : Prop :=
  Recorded s t path x.s 8 2 ∧ t.domain = some { x with
    phase := .fatal
    wanted := false } ∧ t.mem = s.mem ∧
  ∀ u, (s.ctx u).dom = true → (s.ctx u).status ≠ .free → (t.ctx u).status = .fatal ∧ (t.ctx u).csr.tcause = 0x0F ∧
    (t.ctx u).csr.tval = s.hub.errhead ∧ (t.ctx u).regs = (s.ctx u).regs

/-- A context outside any chunk is halted with cause UNCORRECTABLE and its resume point in XPC (R332, R419). -/
def haltedAt (c : Ctx) : Ctx :=
  { c with
    status := .halted
    wait := none
    csr := { c.csr with
      tcause := 0x10
      tval := 0
      xpc := c.pc } }

/-- The path of a unit of the package (R387); ARRAY 0x3F. -/
def unitPathOf (s : State) (u : CtxId) : BitVec 64 :=
  BitVec.ofNat 64 (s.pkg.toNat * 2 ^ 46 + u.die.val * 2 ^ 42 + u.quad * 2 ^ 37 + (if u.isQcc then 4 else u.unit.val % 4) * 2 ^ 34 + 0x3F * 2 ^ 28)

/-- RIN of the snapshot that holds interval `n`, a provisional one made in it or a full one made by its seal (R330). -/
def sealedBy (y : Snapshot) (n : BitVec 32) : BitVec 32 := if y.sealing then n else following n

/-- R332, R333, R369, R419: an uncorrectable error by where it lies. Outside every domain a sector is poisoned and a context is
halted; a sector whose tag is above the declared seal, a held request above it, and the state of a context of the domain roll the
domain back, an ISTORE word also waits for the reload of its die; a lost sector of a sealed interval, an external window, an undo region or
the snapshot that holds the declared seal stops the domain for good; one of a later interval rolls it back, one of an earlier is in use no
more (log 132). A sector of the QSPM of another partition is poisoned. A corrected error is recorded and counted in its bank; a read of a
poisoned sector halts the reader. Log 132, that a tag of 0 counts as at most s, and what a corrected error records (logs 54, 55) are the
model's reading. -/
def Errors : Prop :=
  ∀ (s : State) (path synd : BitVec 64), RecordRoom s →
    let site (p : ErrorPlace) : Instr := .uncorrectableError ⟨path, synd, p⟩
    (∀ pa : BitVec 48, s.domain = none → ∃ t, exec (site (.sector pa)) s = .next t ∧
      t = { s with
        hub := t.hub
        poison := (pa.toNat / 64) :: s.poison } ∧ Recorded s t path 0 2 3) ∧
    (∀ u, (s.ctx u).dom = false → (s.ctx u).status ≠ .free → (s.ctx u).chunk = none →
      ∃ t, exec (site (.context u)) s = .next t ∧ Recorded s t path 0 2 6 ∧ t = { s.setCtx u (haltedAt (s.ctx u)) with hub := t.hub }) ∧
    (∀ p, p = .arrayCorrected ∨ p = .cleanCopy → ∃ t, exec (site p) s = .next t ∧ t = { s with hub := t.hub } ∧ Recorded s t path 0 1 0) ∧
    (∀ x : Domain, s.domain = some x → x.phase ≠ .fatal → (∀ d, (s.die d).swaps = []) → (∀ p : Fin 16, s.parts[p].saves = []) →
      (∀ u, (s.ctx u).dom = true → (s.ctx u).status ≠ .free →
        (∃ t, exec (site (.context u)) s = .next t ∧ Raised s t x path (s.ctx u).rin) ∧
        (∀ off, Regular s → ∃ t, exec (site (.istore u.die u.unit off)) s = .next t ∧ Recorded s t path 0 2 1 ∧
          t = { s.setCore u.die u.unit.val { s.core u.die u.unit.val with
              bad := (off.toNat / 4) :: (s.core u.die u.unit.val).bad } with
            hub := t.hub
            domain := some { x with
              wanted := true
              reload := x.reload ||| (1#8 <<< u.die.val) } })) ∧
      (∀ pa : BitVec 48, s.isExternal pa.toNat = false →
        let tag := Table.getD s.tags (pa.toNat / 64) 0
        (tag = 0 → Apart s pa → ∃ t, exec (site (.sector pa)) s = .next t ∧
          t = { s with
            hub := t.hub
            poison := (pa.toNat / 64) :: s.poison } ∧ Recorded s t path 0 2 3) ∧
        (tag ≠ 0 → Later tag x.declared → ∃ t, exec (site (.sector pa)) s = .next t ∧ Raised s t x path tag) ∧
        ((tag = 0 ∧ ¬Apart s pa) ∨ (tag ≠ 0 ∧ ¬Later tag x.declared) → (∀ d, (s.die d).holds = []) →
          ∃ t, exec (site (.sector pa)) s = .next t ∧ (∃ y : Domain, t.domain = some y ∧ y.phase = .fatal) ∧
            (x.declared = x.s → s.forks = [] → StoppedForGood s t x path))) ∧
      (∀ (d : Fin 8) (n : Nat) r, (s.net.filter fun r => r.fromDie d && r.inHold)[n]? = some r → Later r.rin x.declared →
        ∃ t, exec (site (.egressHold d n)) s = .next t ∧ Raised s t x path r.rin) ∧
      (x.declared = x.s → s.forks = [] → (∀ d, (s.die d).holds = []) →
        (∀ pa : BitVec 48, s.isExternal pa.toNat = true → ∃ t, exec (site (.sector pa)) s = .next t ∧ StoppedForGood s t x path) ∧
        (∀ k, ∃ t, exec (site (.undoRegion k)) s = .next t ∧ StoppedForGood s t x path) ∧
        (∀ u i y, (s.ctx u).dom = true → (s.ctx u).snaps[i] = some y → y.rin = sealedBy y x.declared →
          ∃ t, exec (site (.snapshot u i)) s = .next t ∧ StoppedForGood s t x path)) ∧
      (∀ u (i : Fin 2) y, (s.ctx u).dom = true → (s.ctx u).snaps[i] = some y → y.rin ≠ sealedBy y x.declared →
        (Later y.rin (sealedBy y x.declared) → ∃ t, exec (site (.snapshot u i)) s = .next t ∧ Raised s t x path (s.ctx u).rin) ∧
        (¬Later y.rin (sealedBy y x.declared) → ∃ t, exec (site (.snapshot u i)) s = .next t ∧ t = { s with hub := t.hub } ∧ Recorded s t path 0 2 3))) ∧
    (∀ d : Fin 8, path.toNat / 2 ^ 42 % 2 ^ 4 = d.val → path.toNat / 2 ^ 28 % 2 ^ 6 ≠ 0x20 →
      let count := Table.getD (s.die d).ceval (path.toNat / 2 ^ 18) 0 + 1
      let limit := (s.die d).pthr.toNat % 2 ^ 32
      (limit = 0 ∨ count ≠ limit) →
      ∀ place, ∃ t, exec (.correctedError ⟨path, synd, place⟩) s = .next t ∧ Recorded s t path 0 1 0 ∧
        t = { s.setDie d { s.die d with ceval := (t.die d).ceval } with hub := t.hub } ∧
        Table.getD (t.die d).ceval (path.toNat / 2 ^ 18) 0 = count) ∧
    ∀ u (pa : BitVec 48), pa.toNat / 64 ∈ s.poison → (s.ctx u).status = .live → (s.ctx u).chunk = none →
      ∃ t, exec (.poisonRead u pa) s = .next t ∧ Recorded s t (unitPathOf s u) (s.ctx u).rin 3 6 ∧
        t = { s.setCtx u (haltedAt (s.ctx u)) with hub := t.hub }

/-- R307, R420, R421: a store to DOMCFG with EN forms the domain that the registers describe: RIN of its contexts is the first
interval, one above the highest RIN used, and SEALRIN the one below; OUT of their slots follows. A value that names no domain is
counted and ignored. DISSOLVE ends the domain and frees its contexts; memory stays. What DOMCFG refuses and the snapshot at
forming are the model's reading (logs 51, 52). -/
def Domains : Prop :=
  ∀ (s : State) (v : BitVec 64), 6 ≤ s.hub.step → Regular s → AllResident s →
    let leader := v.toNat / 2 ^ 16 % 2 ^ 18
    let usize := v.toNat / 2 ^ 36 % 2 ^ 4
    let pod := s.pkg.toNat / 2 ^ 10
    let top : BitVec 32 := if s.hub.dommem = 1#1024 <<< (s.pkg.toNat % 2 ^ 10) ∨ s.hub.others.toNat ≤ s.hub.topRin.toNat
      then s.hub.topRin else s.hub.others
    let n := following top - 1
    let parts : BitVec 16 := s.hub.domparts.setWidth 16
    let member (p : Nat) : Prop := p ≠ 0 ∧ parts.getLsbD p = true
    let legal : Prop := s.domain = none ∧ v.toNat % 2 ^ 16 ≠ 0 ∧ leader / 2 ^ 10 = pod ∧ 1 ≤ usize ∧ usize ≤ 8 ∧
      s.hub.dommem.getLsbD (s.pkg.toNat % 2 ^ 10) = true ∧ s.hub.dommem.getLsbD (leader % 2 ^ 10) = true
    (v.getLsbD 63 = true → ¬legal → exec (.domcfgWrite v) s = .next { s with hub := { s.hub with errlost := s.hub.errlost + 1 } }) ∧
    (v.getLsbD 63 = true → legal →
      ∃ t, exec (.domcfgWrite v) s = .next t ∧
        t.domain = some {
          domid := v.setWidth 16
          leader := BitVec.ofNat 18 leader
          usize := usize
          parts := parts
          member := s.hub.dommem
          s := n
          declared := n
          reload := 0
          phase := .running
          wanted := false
          scrubbed := n } ∧
        t.hub = { s.hub with domcfg := fieldsOf [(0, 16, v.toNat), (16, 18, leader), (36, 4, usize), (63, 1, 1)] } ∧
        (∀ d, t.die d = { s.die d with
          sealed := n
          arrivedFor := n }) ∧
        ∀ u, let joins : Prop := (s.ctx u).status ≠ .free ∧ member (s.partOfCtx u)
          (¬joins → t.ctx u = s.ctx u) ∧
          (joins → t.ctx u = { s.ctx u with
            dom := true
            rin := following top
            born := n
            arrived := n
            sealing := false
            slots := (t.ctx u).slots
            snaps := keepSnap (s.ctx u).snaps n { snapOf (s.ctx u) u (s.ctx u).pc (following top) false with
              fork := none
              inner := (s.ctx u).inner
              joinFirst := (s.ctx u).joinFirst } } ∧
            ∀ i : Fin 16, let y := (s.ctx u).slots[i]
              ∃ o, (t.ctx u).slots[i] = { y with out := o } ∧ (y.bnd = false → o = false) ∧
                (y.bnd = true → (∀ d unit, TargetIs s y.ep d unit → (o = false ↔ unit < 160 ∧ member (s.partOf d (quadOf unit)))) ∧
                  (¬(y.ep.toNat / 2 ^ 24 = pod ∧ s.hub.dommem.getLsbD (y.ep.toNat / 2 ^ 14 % 2 ^ 10) = true) → o = true)))) ∧
    ∀ x, s.domain = some x → x.declared = x.s → (∀ d, (s.die d).holds = []) →
      ∃ t, exec (.dissolve 1) s = .next t ∧ t.domain = none ∧ t.mem = s.mem ∧
        (∀ d : Fin 8, t.undo[d] = [] ∧ (t.die d).undoBuf = [] ∧ (t.die d).sealed = 0) ∧
        (∀ u, (s.ctx u).dom = true → (t.ctx u).status = .free) ∧ (∀ u, (s.ctx u).dom = false → t.ctx u = s.ctx u)

end Sys2Proof.Claims

/-- R314 to R326: intervals, arrivals, seals, undo pressure and the tags' scrubbing. -/
def Obligations.Sealing : Prop := SealsAnnounced ∧ SealsCounted

/-- R307, R328 to R333, R419, R420: rollback and restart, errors, forming and dissolving a domain. -/
def Obligations.Recovery : Prop := RollsBack ∧ Errors ∧ Domains

namespace Sys2Proof.Claims

open Sys2Proof.Machine

/-! ## System, power, trace, gang switches -/

/-- The five units of a quad: its four cores and its QCC (R10). -/
def unitsOf (q : Fin 32) : List Nat := [4 * q.val, 4 * q.val + 1, 4 * q.val + 2, 4 * q.val + 3, 128 + q.val]

/-- The error records from number `h` on are those of a self-test with `n` failing rows, of which `k` found no spare (R386). -/
def TestRecords (t : State) (h : Word) (n k : Nat) : Prop :=
  ∀ i, i < n → ∃ r : BitVec 512, Table.find t.hub.errors ((h + BitVec.ofNat 64 i).toNat % 8192) = some r ∧
    r.toNat / 2 ^ 176 % 2 ^ 8 = 4 ∧ r.toNat / 2 ^ 184 % 2 ^ 8 = if i < n - k then 4 else 5

/-- R125, R133, R385, R386: BIST at level S, of an idle quad that its operand names, starts its test; of any other quad, or under any
other path, it raises ILLEGAL-OPERAND, and at level U PRIVILEGE. The end of a test leaves the quad's QSPM, ISTOREs, accumulators and
latches zero and its CODEIDs 0, says in BISTST how many rows failed and whether some found no spare, and writes a record for each.
A write of a range register is pending until RCOMMIT; a write of a mark keeps the bytes below both marks. A repaired failure passes,
and how many rows found no spare is free, by the model's reading (logs 70, 98). -/
def SelfTests : Prop :=
  ∀ (s : State),
    (∀ a (d : Fin 8) (q : Fin 32), s.me.sup = true → s.me.chunk = none →
      (s.me.x a).toNat = s.pkg.toNat * 2 ^ 46 + d.val * 2 ^ 42 + q.val * 2 ^ 37 + 7 * 2 ^ 34 →
      ((∀ n k, n ∈ unitsOf q → (s.ctx (mkCtxId d.val n k)).status = .free) → (s.quad d q.val).bist.toNat % 4 ≠ 1 →
        ∃ t w, exec (.bist a) s = .next t ∧
          t = (s.setQuad d q.val { s.quad d q.val with bist := w }).setCtx s.cur (gone s.me (s.me.pc + 4)) ∧
          w.toNat = (s.quad d q.val).bist.toNat / 4 * 4 + 1) ∧
      ((s.quad d q.val).bist.toNat % 4 = 1 ∨ (∃ n k, n ∈ unitsOf q ∧ k < (if n < 128 then 4 else 2) ∧
        (s.ctx (mkCtxId d.val n k)).status ≠ .free) → MayTrap s → Traps (.bist a) s 0x02 0)) ∧
    (∀ a, s.me.sup = true → s.me.chunk = none →
      (∀ (d : Fin 8) (q : Fin 32), (s.me.x a).toNat ≠ s.pkg.toNat * 2 ^ 46 + d.val * 2 ^ 42 + q.val * 2 ^ 37 + 7 * 2 ^ 34) →
      MayTrap s → Traps (.bist a) s 0x02 0) ∧
    (∀ a, s.me.sup = false → MayTrap s → Traps (.bist a) s 0x0C (wordVal (.bist a))) ∧
    (∀ (d : Fin 8) (q : Fin 32) nfail spares, (s.quad d q.val).bist.toNat % 4 = 1 → Memory.wf s.mem = true →
      let bad := nfail ≠ 0 ∧ spares = false
      ∃ t, exec (.bistComplete d q nfail spares) s = .next t ∧
        t = { s with
          ctxs := t.ctxs
          cores := t.cores
          quads := t.quads
          rings := t.rings
          mem := t.mem
          poison := t.poison
          hub := { s.hub with
            errors := t.hub.errors
            errhead := t.hub.errhead
            errlost := t.hub.errlost }
          free := t.free } ∧
        (∀ a, memGet t.mem a = if 0x100000000000 + 0x8000000 * d.val + 0x400000 * q.val ≤ a ∧ a < 0x100000000000 + 0x8000000 * d.val + 0x400000 * (q.val + 1)
          then 0 else memGet s.mem a) ∧
        (∀ d' n, n < 160 → t.core d' n = if d' = d ∧ n ∈ unitsOf q then { s.core d' n with
          istore := []
          bad := [] } else s.core d' n) ∧
        (∀ u, let c := s.ctx u
          if u.die = d ∧ u.unit.val = 128 + q.val ∧ u.slot.val < 2 then t.ctx u = { c with tile := { Ctx.idle.tile with
            tln := c.tile.tln
            issue := c.tile.issue } } else t.ctx u = c) ∧
        (∀ d' q', q' < 32 → (d', q') ≠ (d, q.val) → t.quad d' q' = s.quad d' q' ∧ t.ring d' q' = s.ring d' q') ∧
        t.ring d q.val = { s.ring d q.val with codeid := if s.ringFirst d q.val = q.val then 0 else (s.ring d q.val).codeid } ∧
        t.quad d q.val = { s.quad d q.val with
          codeid := 0
          bist := (t.quad d q.val).bist } ∧
        let w := (t.quad d q.val).bist
        w.toNat % 4 = (if bad then 3 else 2) ∧ (w.getLsbD 2 = true ↔ bad ∨ (s.quad d q.val).bist.getLsbD 2 = true) ∧
        w.toNat / 2 ^ 8 % 2 ^ 8 = nfail.toNat ∧ (nfail ≠ 0 → w.toNat / 2 ^ 32 = s.hub.errhead.toNat % 2 ^ 32) ∧
        ((s.hub.errhead - s.hub.errack).toNat + nfail.toNat ≤ 8192 → t.hub.errhead = s.hub.errhead + nfail.setWidth 64 ∧
          ∃ k, k ≤ nfail.toNat ∧ (k ≠ 0 ↔ bad) ∧ TestRecords t s.hub.errhead nfail.toNat k)) ∧
    (∀ (n : Fin 16) v, ∃ w, exec (.rangePendingWrite ⟨n.val, by omega⟩ v) s = .next { s with pendB := s.pendB.set n.val w n.isLt } ∧
      exec (.rangePendingWrite ⟨16 + n.val, by omega⟩ v) s = .next { s with pendL := s.pendL.set n.val v n.isLt } ∧
      w.toNat = v.toNat / 2 ^ 16 % 2 ^ 41 * 2 ^ 16 + v.toNat % 2 ^ 4) ∧
    ∀ (u : CtxId) r (v : BitVec 64), u.unit.val < 128 → v.toNat ≤ 16 →
      ∃ y : VReg, exec (.vhwmWrite u r v) s = .next (s.setCtx u { s.ctx u with vregs := (s.ctx u).vregs.set r.toNat y r.isLt }) ∧
        y.tag = ((s.ctx u).v r).tag ∧ y.hwm = v.toNat ∧
        ∀ e, e < 1024 → elemAt y 1 e = if e < 64 * v.toNat then elemAt ((s.ctx u).v r) 1 e else 0

/-- A ring after a frame boundary (R348, R351): ELIM adjusted, then QUANT, then the refill. `h` is its hottest quad, `n` its length. -/
def refilled (r : Ring) (qcore n h : Nat) : Ring :=
  let e := if r.ealw ≤ 0 then max 2 (r.elim - 4) else if (r.quant : Int) ≤ 2 * r.ealw then min 16 (r.elim + 1) else r.elim
  let q := qcore * n / 2 ^ h
  { r with
    elim := if h = 2 then min e 4 else e
    quant := q
    ealw := min (r.ealw + q) q }

/-- A context at an asynchronous stop that cancels what it has under way (R282, R329 step 2): waits, copies, tile operations,
requests and demands are dropped, its fork with them; registers and pc stand. -/
def stoppedAt (c : Ctx) (time : Nat) (ep : BitVec 32) : Ctx :=
  { c with
    wait := none
    copies := []
    accs := []
    vecs := []
    evld := none
    binding := none
    watch := []
    woken := false
    chunk := none
    joinPhase := false
    inner := none
    needs := []
    gap := some (3, time, ep)
    tile := { c.tile with queue := [] }
    slots := c.slots.map fun x => { x with
      wc := 0
      infl := 0
      demand := none
      refusal := none } }

/-- A finely tracked region after a sweep (R107): no longer listed, private to one die, or fine, of dies that it had. -/
def SweptFrom (r : Region) (o : Option Region) : Prop :=
  ∀ r', o = some r' → r'.dirty = r.dirty ∧ r'.dies &&& r.dies = r'.dies ∧ r'.dies ≠ 0 ∧
    ((∃ k : Fin 8, r'.dies = 1#8 <<< k.val) → r'.kind = .priv) ∧ ((∀ k : Fin 8, r'.dies ≠ 1#8 <<< k.val) → r'.kind = .fine)

/-- R107, R348, R351, R380, R391, R392: each frame boundary adjusts and refills every ring; temperature, coolant and power: a thermal
trip stops every context, holds the power stages off and rolls the domain back, or stops it for good where it recurs within 1 s; a
region sweep changes finely tracked regions alone; a drain appends a core's entries to its region and advances TRCHEAD. Which dies
still cache a region is free (log 24), the split of a drain the model's reading (log 73). -/
def Housekeeping : Prop :=
  ∀ (s : State),
    (s.frames < s.time / 1024 → ∃ t, exec .frameBoundary s = .next t ∧
      t = { s with
        rings := t.rings
        frames := s.frames + 1 } ∧
      ∀ (d : Fin 8) q, q < 32 → s.ringFirst d q = q → ∀ h : Nat,
        (∀ i, i < s.ringLen d q / 4 → (s.quad d (q + i)).therm.toNat ≤ h) → (∃ i, i < s.ringLen d q / 4 ∧ (s.quad d (q + i)).therm.toNat = h) → h < 3 →
        t.ring d q = refilled (s.ring d q) s.hub.qcore (s.ringLen d q) h) ∧
    (s.time / 1024 ≤ s.frames → exec .frameBoundary s = .next s) ∧
    (∀ (d : Fin 8) (q : Fin 32) (l : BitVec 2), l ≠ 3 → ∃ t, exec (.thermChange d q l) s = .next t ∧
      t = { s.setQuad d q.val { s.quad d q.val with therm := l } with rings := t.rings } ∧
      (l ≠ 2 → t.rings = s.rings) ∧ (l = 2 → (t.ring d (s.ringFirst d q.val)).elim ≤ 4)) ∧
    (∃ t, exec .coolantFault s = .next t ∧ t = { s with quads := t.quads } ∧
      ∀ (d : Fin 8) (q : Fin 32), t.quad d q.val = { s.quad d q.val with
        therm := if (s.quad d q.val).therm = 0 then 1 else (s.quad d q.val).therm }) ∧
    (RecordRoom s → ∃ t, exec .powerOverCap s = .next t ∧ t = { s with hub := t.hub } ∧
      ∃ path, Recorded s t path 0 7 3) ∧
    (∀ again, Regular s → AllResident s → ∃ t, exec (.thermalTrip again) s = .next t ∧
      t.hub = { s.hub with
        tripped := some s.time
        powerOff := true
        errors := t.hub.errors
        errhead := t.hub.errhead
        errlost := t.hub.errlost } ∧ t.mem = s.mem ∧
      (∀ u, (s.ctx u).dom = false → t.ctx u =
        if (s.ctx u).status = .free then s.ctx u else stoppedAt (s.ctx u) s.time (endpointOf s u)) ∧
      let again' := match s.hub.tripped with
        | none => again
        | some t0 => decide (s.time ≤ t0 + 10 ^ 9)
      (s.domain = none → t.domain = none) ∧
      ∀ x, s.domain = some x → x.phase ≠ .fatal →
        (again' = false → t.domain = some { x with wanted := true } ∧ ∀ u, (s.ctx u).dom = true → t.ctx u = s.ctx u) ∧
        (again' = true → x.declared = x.s → (∀ d, (s.die d).holds = []) → t.domain = some { x with
            phase := .fatal
            wanted := false } ∧
          ∀ u, (s.ctx u).dom = true → (s.ctx u).status ≠ .free → (t.ctx u).status = .fatal ∧ (t.ctx u).csr.tcause = 0x0F)) ∧
    (s.time / 1048576 ≤ s.sweeps → exec .regionSweep s = .next s) ∧
    (s.sweeps < s.time / 1048576 → (s.regions.map (·.1)).Pairwise (· < ·) → ∃ t, exec .regionSweep s = .next t ∧ t = { s with
      regions := t.regions
      free := t.free
      sweeps := s.time / 1048576 } ∧
      ∀ k, match Table.find s.regions k with
        | none => Table.find t.regions k = none
        | some r => if r.kind = .fine then SweptFrom r (Table.find t.regions k) else Table.find t.regions k = some r) ∧
    ∀ (d : Fin 8) (n : Fin 128) (e : BitVec 256), let k := s.core d n.val
      let base := (s.die d).trcbase.toNat / 2 ^ 21 % 2 ^ 27 * 2 ^ 21 + n.val * 0x4000
      (s.die d).trcbase.getLsbD 0 = true → base + 0x4000 ≤ s.dramEnd → s.time / 16 % 64 = 60 → k.drained ≤ s.time / 1024 →
      k.entries = [e] → k.events = [] → k.head.toNat % 2 ^ 32 + 1 < 2 ^ 32 →
      ∃ t, exec (.traceDrain d n) s = .next t ∧
        BytesPut s.mem t.mem (base + 32 * (k.head.toNat % 256)) (bytesOf 32 e.toNat) ∧
        t.core d n.val = { k with
          entries := []
          head := k.head + 1
          drained := s.time / 1024 + 1 } ∧
        (∀ d' n', (d', n') ≠ (d, n.val) → n' < 160 → t.core d' n' = s.core d' n') ∧ t.tags = s.tags ∧ t.undo = s.undo

/-- The place of a context's registers in its partition's save region (R369, R370). -/
def saveBase (psave : Nat) (u : CtxId) : Nat :=
  if u.unit.val < 128 then psave + 0x100000 + ((u.die.val * 128 + u.unit.val) * 4 + u.slot.val) * 0xA400
  else psave + 0xA500000 + ((u.die.val * 32 + (u.unit.val - 128)) * 2 + u.slot.val) * 0x14C00

/-- TIME has reached a 48-bit WHEN: at most half the range ago. -/
def Reaches (s : State) (w : Nat) : Prop := (s.time + 2 ^ 48 - w % 2 ^ 48) % 2 ^ 48 < 2 ^ 47

/-- A context that has stopped for a switch (R367 step 1): its waiting instruction is withdrawn. -/
def switchedOut (c : Ctx) : Ctx :=
  { c with
    status := if c.status = .live then .switching else c.status
    wait := none
    watch := []
    woken := false
    binding := none
    evld := none }

/-- What a save area holds of a context outside a domain and any fork (R370, R372, R375): header, scalars, pc, TIME of the stop, slot
state, and of a core its marks and the bytes below them. -/
def AreaHolds (s : State) (m : List Host.Cell) (base : Nat) (u : CtxId) (stop : Nat) : Prop :=
  let c := s.ctx u
  let word (off : Nat) : Nat := littleEndian m (base + off) 8
  word 0 = (fieldsOf [(0, 1, 1), (1, 1, flag u.isQcc), (4, 1, if c.status = .halted then 1 else 0), (16, 2, u.slot.val),
    (32, 32, (endpointOf s u).toNat)]).toNat ∧
  word 0x100 = c.pc.toNat ∧ word 0x300 = stop % 2 ^ 64 ∧
  (∀ i : Fin 32, i.val ≠ 0 → word (8 * i.val) = (c.regs[i]).toNat) ∧
  word 0x220 = c.csr.tval.toNat ∧ word 0x228 = c.csr.xpc.toNat ∧ word 0x240 = c.csr.ptroot.toNat ∧ word 0x248 = c.csr.xscr.toNat ∧
  word 0x308 = 0 ∧ word 0x3F8 = 0 ∧
  (∀ i : Fin 16, let x := c.slots[i]
    word (0x408 + 16 * i.val) = (fieldsOf ([(0, 16, x.wc), (16, 16, x.infl), (32, 9, x.pmax)] ++ match x.demand with
      | none => []
      | some d => [(48, 9, d.beats), (57, 1, 1)])).toNat) ∧
  (u.isQcc = false → ∀ n : Fin 32, let v := c.vregs[n]
    (memGet m (base + 0x140 + n.val)).toNat = v.hwm % 256 ∧
    ∀ e, e < 64 * v.hwm → memGet m (base + 0x2280 + 0x400 * n.val + e) = BitVec.ofNat 8 (elemAt v 1 e))

/-- R366 to R369: GSWT arms a switch that the hub accepts, or cancels one; what it refuses changes nothing; GO lets a held restore
go on. At WHEN the contexts of the partition that leaves stop, those of a unit that GSWT reaches later then, with LATE and a record;
once their work is done each is saved, in its area, and its slot is free; the partition that enters is restored from its areas and
resumes at a frame boundary 1,024 ns later. A save writes the areas and, for requests that are under way, the spill area, and no
other byte of memory. How far the clusters are inside an instruction at the stop is what EPX says (log 11). -/
def GangSwitches : Prop :=
  ∀ (s : State) (p : Fin 16) (g : BitVec 64), let x := s.parts[p]
    let when_ := g.toNat % 2 ^ 48
    let new := g.toNat / 2 ^ 52 % 2 ^ 4
    let mine (u : CtxId) : Prop := (s.ctx u).status ≠ .free ∧ s.partOfCtx u = p.val
    (p ≠ 0 → exec (.go p) s = .next (s.setPart p.val { x with go := true })) ∧
    (∀ u, g.toNat / 2 ^ 48 % 2 ^ 4 = p.val → g.getLsbD 63 = true → p ≠ 0 → x.pstate = .running → x.armed = none → new = 0 →
      s.time % 2 ^ 48 + 4096 ≤ when_ → when_ < s.time % 2 ^ 48 + 2 ^ 47 →
      ∃ h : BitVec 64, h.toNat = g.toNat % 2 ^ 57 + 2 ^ 63 ∧ exec (.gswtArm u g) s = .next (s.setPart p.val { x with
        armed := some h
        lates := [] })) ∧
    (∀ u, g.toNat / 2 ^ 48 % 2 ^ 4 = p.val → g.getLsbD 63 = true →
      (x.pstate ≠ .running ∨ x.armed ≠ none ∨ (new ≠ 0 ∧ (s.part new).pstate ≠ .saved)) → exec (.gswtArm u g) s = .next s) ∧
    (∀ u h, g.toNat / 2 ^ 48 % 2 ^ 4 = p.val → g.getLsbD 63 = false → x.armed = some h →
      (s.time % 2 ^ 48 + 4096 ≤ h.toNat % 2 ^ 48 → h.toNat % 2 ^ 48 < s.time % 2 ^ 48 + 2 ^ 47 →
        exec (.gswtCancel u g) s = .next (s.setPart p.val { x with
          armed := none
          lates := [] })) ∧
      (Reaches s (h.toNat % 2 ^ 48) → exec (.gswtCancel u g) s = .next s)) ∧
    (x.armed = some g → x.pstate = .running → x.lates = [] → Regular s → s.domain = none → (∀ u, mine u → Unforked (s.ctx u)) →
      (¬Reaches s when_ → exec (.gangSwitchBegin p) s = .next s) ∧
      (Reaches s when_ → ∃ t, exec (.gangSwitchBegin p) s = .next t ∧
        t = { s with
          ctxs := t.ctxs
          quads := t.quads
          net := t.net
          parts := s.parts.set p.val { x with
            pstate := .switching
            late := false
            stopSeq := s.seq
            stopTime := s.time } p.isLt } ∧
        (∀ u, mine u → t.ctx u = switchedOut (s.ctx u)) ∧ ∀ u, ¬mine u → t.ctx u = s.ctx u)) ∧
    (∀ l rest, x.armed = some g → x.pstate = .switching → x.lates = l :: rest → Regular s → (∀ u, mine u → Unforked (s.ctx u)) → RecordRoom s →
      ∃ t, exec (.gangSwitchBegin p) s = .next t ∧ Recorded s t (unitPathOf s ⟨l.1, l.2, 0⟩) 0 6 3 ∧
        t.parts = s.parts.set p.val { x with
          late := true
          lates := rest } p.isLt ∧
        (∀ u, mine u → (u.die, u.unit) ∉ rest → t.ctx u = switchedOut (s.ctx u)) ∧
        ∀ u, ¬(mine u ∧ (u.die, u.unit) ∉ rest) → t.ctx u = s.ctx u) ∧
    (x.armed = some g → x.pstate = .switching → x.lates = [] → x.entering = none → new = 0 → Regular s → s.domain = none →
      Memory.wf s.mem = true →
      (∀ u, mine u → Unforked (s.ctx u) ∧ (s.ctx u).dom = false ∧ Settled (s.ctx u) ∧ (s.ctx u).tile.queue = [] ∧ (s.ctx u).status ≠ .reserved ∧
        (u.unit.val < 128 ∨ u.slot.val < 2) ∧ ∀ r ∈ (s.ctx u).vregs.toList, r.hwm ≤ 16) →
      ∃ t y, exec (.gangSwitchRestore p) s = .next t ∧ t.parts = s.parts.set p.val y p.isLt ∧ y.pstate = .saved ∧ y.armed = none ∧
        (∀ u, mine u → t.ctx u = emptied (s.ctx u) ∧ (∃ c, (u, c) ∈ y.saves) ∧ AreaHolds s t.mem (saveBase x.psave.toNat u) u x.stopTime) ∧
        (∀ a, (∀ u, mine u → a < saveBase x.psave.toNat u ∨ saveBase x.psave.toNat u + (if u.unit.val < 128 then 0xA400 else 0x14C00) ≤ a) →
          (a < x.psave.toNat ∨ x.psave.toNat + 0x100000 ≤ a ∨ ∀ r ∈ s.net, match r.src with
            | some (.here u) => ¬mine u
            | some (.saved q _) => q ≠ p
            | _ => True) → memGet t.mem a = memGet s.mem a) ∧
        ∀ u, ¬mine u → t.ctx u = { s.ctx u with woken := (t.ctx u).woken }) ∧
    (∀ u c, x.entering = some g → (x.go = true ∨ g.getLsbD 56 = false) → x.saves = [(u, c)] → x.forks = [] → c.status = .switching →
      Unforked c → c.rolled = none → s.domain = none → s.poison = [] → (∀ d q, (s.quad d q).bist.toNat % 4 ≠ 1) →
      let word (off : Nat) : Nat := littleEndian s.mem (saveBase x.psave.toNat u + off) 8
      word 0 % 2 = 1 → word 0 / 2 ^ 2 % 2 = 0 →
      ∃ t, exec (.gangSwitchRestore p) s = .next t ∧ (t.ctx u).status = (if word 0 / 2 ^ 4 % 2 = 1 then .halted else .switching) ∧
        (t.ctx u).pc.toNat = word 0x100 ∧ (t.ctx u).csr.tval.toNat = word 0x220 ∧ (t.ctx u).csr.xscr.toNat = word 0x248 ∧
        (∀ i : Fin 32, i.val ≠ 0 → ((t.ctx u).regs[i]).toNat = word (8 * i.val)) ∧
        (u.isQcc = false → ∀ n : Fin 32, let mark := (memGet s.mem (saveBase x.psave.toNat u + 0x140 + n.val)).toNat
          mark ≤ 16 → (t.ctx u).vregs[n].hwm = mark ∧ ∀ e, e < 64 * mark →
            BitVec.ofNat 8 (elemAt (t.ctx u).vregs[n] 1 e) = memGet s.mem (saveBase x.psave.toNat u + 0x2280 + 0x400 * n.val + e)) ∧
        t.mem = s.mem ∧ t.parts[p].pstate = .switching ∧ t.parts[p].restored = some s.time) ∧
    ∀ t0, x.restored = some t0 → Regular s →
      ((s.time % 1024 ≠ 0 ∨ s.time < t0 + 1024) → exec (.gangSwitchResume p) s = .next s) ∧
      (s.time % 1024 = 0 → t0 + 1024 ≤ s.time → ∃ t, exec (.gangSwitchResume p) s = .next t ∧
        t = { s with
          ctxs := t.ctxs
          cores := t.cores
          net := t.net
          parts := s.parts.set p.val { x with
            pstate := .running
            restored := none } p.isLt } ∧
        ((∀ u, mine u → u.isQcc = true ∨ (s.ctx u).csr.trcctl.toNat % 8 = 0) → t.cores = s.cores) ∧
        (∀ u, mine u → t.ctx u = { s.ctx u with
          status := if (s.ctx u).status = .switching then .live else (s.ctx u).status
          last := if (s.ctx u).status = .switching then s.time else (s.ctx u).last
          gap := none }) ∧
        ∀ u, ¬mine u → t.ctx u = s.ctx u)

/-! ## Bring-up and the control node -/

/-- Bring-up is under way and has passed fewer than `k` steps. -/
def Booting (s : State) (k : Nat) : Prop :=
  s.hub.dark = false ∧ s.hub.failed = false ∧ s.hub.recov = false ∧ s.hub.powerOff = false ∧ s.hub.step < k

/-- The module after RESET (R394): bring-up before its first step, no context, nothing armed or formed; memory, ISTOREs, the package
number and TIME stand, and so does what the module's surroundings do next. `image` is the image that it runs. -/
def AfterReset (s t : State) (image : Nat) : Prop :=
  t = { State.reset with
    cores := t.cores
    mem := s.mem
    poison := s.poison
    pkg := s.pkg
    time := s.time
    frames := s.frames
    sweeps := s.sweeps
    turn := s.turn
    agenda := s.agenda
    seq := s.seq
    free := t.free
    hub := { Hub.reset with
      tripped := s.hub.tripped
      image := image } } ∧
  ∀ d n, t.core d n = { Core.reset with
    istore := (s.core d n).istore
    bad := (s.core d n).bad }

/-- At most 32 transmit lanes of each optical die are lost (R395). -/
def LanesHold (s : State) : Prop := ∀ d : Fin 4, (s.hub.lanesOff.filter fun x => decide (x.1 = d.val)).length ≤ 32

/-- FCODE of the steps at which bring-up fails for good (R394, R395). -/
def failCodeOf (k : Nat) : BitVec 8 :=
  if k = 3 then 2 else if k = 4 then 3 else if k = 5 then 4 else if k = 7 then 5 else 6

/-- The report with which the module answers a nonce: it carries the nonce, the digest of the image that the module runs, and the
digests of its fuses and of its ROM, which are the same in every report (R397). The signature is a fresh value (log 96). -/
def Answers (r : Report) (h : Hub) (fuses rom : Nat) : Prop :=
  r.nonce = h.nonce ∧ r.image = h.image ∧ r.fuses = fuses ∧ r.rom = rom

/-- The module answers a nonce with a report. -/
def Reports (s t : State) (fuses rom : Nat) : Prop :=
  t = { s with
    hub := { s.hub with report := t.hub.report }
    free := t.free } ∧ ∃ r, t.hub.report = some r ∧ Answers r s.hub fuses rom

/-- R394 to R397: bring-up runs to step 8, fails at a step, or enters recovery mode with FCODE 1; too many lost lanes fail step 5,
and step 8 is skipped when UELANES = 0; training Camell again; the staging window in recovery mode; an image; the nonce and its report,
which differs between two nonces of one module and image in nonce and signature alone;
attestation accepted makes the module Ready, rejected resets it. What a RESET keeps, and that accepting again finds the module
Ready, are the model's reading (logs 6, 69, 75). -/
def BringUp : Prop :=
  ∃ fuses rom : Nat, ∀ (s : State),
    (Booting s 8 → LanesHold s ∨ 5 ≤ s.hub.step →
      (s.hub.asked = false → exec (.powerOn .trained) s = .next { s with hub := { s.hub with step := 8 } }) ∧
      (s.hub.asked = true → ∃ t, exec (.powerOn .trained) s = .next t ∧ Reports { s with hub := { s.hub with step := 8 } } t fuses rom)) ∧
    (Booting s 5 → ¬LanesHold s → exec (.powerOn .trained) s = .next { s with hub := { s.hub with
      step := 4
      failed := true
      fcode := 4 } }) ∧
    (Booting s 2 → exec (.powerOn .badImage) s = .next { s with hub := { s.hub with
      step := 1
      failed := true
      recov := true
      fcode := 1 } }) ∧
    (∀ k : Fin 11, k.val = 3 ∨ k.val = 4 ∨ k.val = 7 ∨ (k.val = 8 ∧ s.hub.uelanes ≠ 0) → Booting s k.val → LanesHold s ∨ 5 ≤ s.hub.step →
      exec (.powerOn (.fails k)) s = .next { s with hub := { s.hub with
        step := k.val - 1
        failed := true
        fcode := failCodeOf k.val } }) ∧
    (Booting s 6 → LanesHold s ∨ 5 ≤ s.hub.step → exec (.powerOn (.fails 6)) s = .next { s with hub := { s.hub with step := 5 } }) ∧
    (Booting s 8 → LanesHold s ∨ 5 ≤ s.hub.step → s.hub.uelanes = 0 → exec (.powerOn (.fails 8)) s = exec (.powerOn .trained) s) ∧
    (Booting s 1 → exec (.powerOn .romDead) s = .next { s with hub := { s.hub with dark := true } }) ∧
    (s.hub.step = 5 → s.hub.failed = false → exec (.camellRetry true) s = .next { s with hub := { s.hub with step := 6 } }) ∧
    (∀ (o : BitVec 26) v, s.hub.recov = true → o.toNat + 8 ≤ 2 ^ 26 → ∃ m, exec (.stagingWrite o v) s = .next { s with hub := { s.hub with staging := m } } ∧
      BytesPut s.hub.staging m o.toNat (bytesOf 8 v.toNat)) ∧
    (∀ (pa : BitVec 48) data, s.hub.recov = true → data ≠ [] → 0x130010000000 ≤ pa.toNat → pa.toNat + data.length ≤ 0x130014000000 →
      ∃ m, exec (.hostWrite pa data) s = .next { s with hub := { s.hub with staging := m } } ∧
        BytesPut s.hub.staging m (pa.toNat - 0x130010000000) data) ∧
    (∀ o v, s.hub.recov = false → exec (.stagingWrite o v) s = .next { s with hub := { s.hub with errlost := s.hub.errlost + 1 } }) ∧
    (∀ (v : BitVec 64), s.hub.recov = true → v.getLsbD 63 = true →
      (∃ t image, exec (.imageLoad v true) s = .next t ∧ AfterReset s t image) ∧
      exec (.imageLoad v false) s = .next { s with hub := { s.hub with
        imglen := v.setWidth 32
        fcode := 1 } }) ∧
    (6 ≤ s.hub.step →
      (∀ (i : Fin 4) v, ∃ t, exec (.attnonceWrite i v) s = .next t ∧ t = { s with
          hub := { s.hub with
            nonce := s.hub.nonce.set i.val v i.isLt
            asked := decide (i.val = 3)
            report := t.hub.report }
          free := t.free } ∧
        (i.val ≠ 3 → t.hub.report = none ∧ t.free = s.free) ∧
        (i.val = 3 → 8 ≤ s.hub.step → s.hub.failed = false → s.hub.recov = false →
          ∃ r, t.hub.report = some r ∧ Answers r t.hub fuses rom)) ∧
      (∀ r : Report, s.hub.report = some r → r.nonce = s.hub.nonce →
        (s.hub.step ≠ 8 → exec (.attokWrite 1) s = .next s) ∧
        (s.hub.step = 8 → ∃ t, exec (.attokWrite 1) s = .next t ∧
          t.hub = { s.hub with
            step := 10
            domcfg := t.hub.domcfg } ∧ t.hub.domcfg.toNat = s.hub.domcfg.toNat % 2 ^ 63 ∧
          t.domain = none ∧ (∀ p : Fin 16, t.parts[p].pstate = .free) ∧
          (∀ d q, t.partOf d q = 0 ∧ (t.quad d q).codeid = 0 ∧ (t.ring d q).codeid = 0) ∧ t.ctxs = s.ctxs ∧ t.mem = s.mem)) ∧
      (∀ v, (v ≠ 1 ∨ ∀ r : Report, s.hub.report = some r → r.nonce ≠ s.hub.nonce) →
        ∃ t, exec (.attokWrite v) s = .next t ∧ AfterReset s t s.hub.image) ∧
      (∀ v : BitVec 64, v.getLsbD 0 = true → ∃ t, exec (.moduleReset v) s = .next t ∧ AfterReset s t s.hub.image))

/-- R13, R245, R255 to R257, R304, R305, R348, R361, R373, R389, R390, R418: accesses of the control node from step 6 on: memory
untagged, a device control register by its rule, refused values counted in ERRLOST and otherwise without effect. OUT of the slots of the
domain's contexts follows the partitions that RCFG gives (R421). What RCFG, RWIN and UELANES
refuse beyond the rules' words, and the quantum that CAPW gives, are the model's reading (logs 14, 57, 58, 59, 60, 62). -/
def ControlNode : Prop :=
  ∀ (s : State), 6 ≤ s.hub.step →
    let lost := { s with hub := { s.hub with errlost := s.hub.errlost + 1 } }
    (∀ (pa : BitVec 48) data, data ≠ [] → pa.toNat + data.length ≤ s.dramEnd →
      ∃ t, exec (.hostWrite pa data) s = .next t ∧ StoreFrame s t ∧ t.tags = s.tags ∧ t.undo = s.undo ∧
        t.me = { s.me with woken := t.me.woken } ∧
        BytesPut s.mem t.mem pa.toNat data) ∧
    (∀ (pa : BitVec 48) n, n ≠ 0 → pa.toNat + n ≤ s.dramEnd →
      ((∀ x ∈ s.poison, 64 * x + 64 ≤ pa.toNat ∨ pa.toNat + n ≤ 64 * x) → exec (.hostRead pa n) s = .next { s with hub := { s.hub with
        hostData := bytesAt s.mem pa.toNat n } }) ∧
      ((∃ x ∈ s.poison, pa.toNat < 64 * x + 64 ∧ 64 * x < pa.toNat + n) → RecordRoom s → ∃ t, exec (.hostRead pa n) s = .next t ∧
        t = { s with hub := t.hub } ∧ t.hub.hostData = List.replicate n 0xFF ∧
        ∃ path, Recorded s { t with hub := { t.hub with hostData := s.hub.hostData } } path 0 2 3)) ∧
    (∀ (pa : BitVec 48) data, s.hub.recov = false → data ≠ [] → 0x130010000000 ≤ pa.toNat → pa.toNat < 0x130014000000 →
      exec (.hostWrite pa data) s = .next lost) ∧
    exec (.hostRead 0x130000870000 8) s = .next { s with hub := { s.hub with
      hostData := bytesOf 8 (fieldsOf [(0, 4, s.hub.step), (4, 1, if s.hub.step = 10 then 1 else 0), (5, 1, flag s.hub.failed),
        (6, 1, flag s.hub.recov), (8, 8, s.hub.fcode.toNat)]).toNat } } ∧
    (∀ (d n : Fin 8) (v : BitVec 64),
      (v.toNat % 4 = 3 → exec (.rcfgWrite d n v) s = .next lost) ∧
      (v.toNat % 4 ≠ ((s.die d).rcfg[n]).toNat % 4 → (∃ j, j < 4 ∧ ((s.die d).rcfg[n]).toNat / 2 ^ (8 * j + 8) % 2 ^ 8 ≠ 0) →
        exec (.rcfgWrite d n v) s = .next lost) ∧
      (v.toNat = 2 + 2 ^ 8 → (s.die d).rcfg[n] = 2 → s.forks = [] →
        (∀ u, u.die = d → u.unit.val < 128 → u.unit.val / 16 = n.val → (s.ctx u).status = .free) →
        s.parts[(0 : Fin 16)].pstate = .free → s.parts[(1 : Fin 16)].pstate = .free →
        ∃ t, exec (.rcfgWrite d n v) s = .next t ∧ t.partOf d (4 * n.val) = 1 ∧ t.parts[(1 : Fin 16)].pstate = .running ∧
          (s.domain = none → t = { s.setDie d { s.die d with rcfg := (s.die d).rcfg.set n.val v n.isLt } with parts := t.parts } ∧
            t.parts[(1 : Fin 16)] = { s.parts[(1 : Fin 16)] with pstate := .running }) ∧
          ∀ u, t.ctx u = { s.ctx u with slots := (t.ctx u).slots } ∧ ((s.ctx u).dom = false → t.ctx u = s.ctx u) ∧
            ∀ i : Fin 16, let y := (s.ctx u).slots[i]
              ∃ o, (t.ctx u).slots[i] = { y with out := o } ∧
                ∀ d' unit, s.domain ≠ none → (s.ctx u).dom = true → TargetIs s y.ep d' unit → (o = true ↔ y.bnd = true ∧ insideDomain t d' unit = false))) ∧
    (∀ (d : Fin 8) (q : Fin 32) (n : Fin 4) (v : BitVec 64),
      (v.toNat / 2 ^ 8 % 2 ^ 3 < 2 → exec (.rwinWrite d q n v) s = .next lost) ∧
      (v.toNat % 2 ^ 8 = 0xF → v.toNat / 2 ^ 8 % 2 ^ 3 = 7 → v.toNat / 2 ^ 11 % 2 ^ 3 = 0 → v.toNat / 2 ^ 14 % 2 ^ 2 = 0 → v.toNat / 2 ^ 48 ≠ 0 →
        (v.toNat / 2 ^ 16 % 2 ^ 32 + v.toNat / 2 ^ 48) * 2 ^ 16 ≤ s.dramEnd →
        exec (.rwinWrite d q n v) s = .next (s.setQuad d q.val { s.quad d q.val with rwin := (s.quad d q.val).rwin.set n.val v n.isLt }))) ∧
    (∀ (d : Fin 8) (n : Fin 160), exec (.incAdvance d n) s = .next (s.setCore d n.val { s.core d n.val with inc := (s.core d n.val).inc + 1 })) ∧
    (∀ (d : Fin 8) (n : Fin 160) (v : BitVec 64),
      (∀ k, v.getLsbD k = true → k < 4 → (s.ctx (mkCtxId d.val n.val k)).status ≠ .halted) → exec (.haltFree d n v) s = .next s) ∧
    (∀ (d : Fin 8) (n : Fin 160) (k : Fin 4) (v : BitVec 64), (∀ i, i < 4 → v.getLsbD i = decide (i = k.val)) →
      let u : CtxId := ⟨d, n, k⟩
      (s.ctx u).status = .halted → Unforked (s.ctx u) → (∀ r ∈ s.net, r.src ≠ some (Holder.here u)) →
      (∀ x ∈ (s.ctx u).slots.toList, x.bnd = false) →
      ∃ t, exec (.haltFree d n v) s = .next t ∧ t = { s.setCtx u (if (s.ctx u).dom then { s.ctx u with
          status := .reserved
          wait := none
          sealing := false
          slots := (t.ctx u).slots } else emptied (s.ctx u)) with
        quads := t.quads
        owners := t.owners }) ∧
    (∀ (b : BarKey) (v : BitVec 64),
      (v.getLsbD 0 = true → v.toNat / 2 ^ 16 % 2 ^ 16 = 0 → exec (.barrierDomainConfig b 0 v) s = .next lost) ∧
      ((v.getLsbD 0 = false ∨ v.toNat / 2 ^ 16 % 2 ^ 16 ≠ 0) → exec (.barrierDomainConfig b 0 v) s = .next (s.setBar b { s.bar b with
        en := v.getLsbD 0
        n := v.toNat / 2 ^ 16 % 2 ^ 16
        ph := 0
        arr := 0
        history := [] }))) ∧
    (∀ (d : Fin 8) (n : Fin 128), exec (.trclostClear d n) s = .next (s.setCore d n.val { s.core d n.val with lost := 0 })) ∧
    exec .errlostClear s = .next { s with hub := { s.hub with errlost := 0 } } ∧
    (∀ d, (s.die d).ceval.length ≤ 1 → ∃ t, exec (.cevalClear d) s = .next t ∧ t = s.setDie d { s.die d with ceval := (t.die d).ceval } ∧
      Table.find (t.die d).ceval ((s.die d).cesel.toNat / 2 ^ 18) = none) ∧
    (∀ v : BitVec 64, let c := v.toNat % 2 ^ 13
      ((c < 1500 ∨ 4000 < c) → exec (.capwWrite v) s = .next lost) ∧
      (1500 ≤ c → c ≤ 4000 → ∃ t, exec (.capwWrite v) s = .next t ∧ t = { s with hub := { s.hub with
        capw := v.setWidth 13
        qcore := t.hub.qcore } })) ∧
    -- registers by address: ERRACK and UELANES of the hub, SWBASE of die 0; 0xF00 of a die's block holds none (R373)
    ∀ v : BitVec 64, exec (.dcrWrite 0x130000860008 v) s = .next { s with hub := { s.hub with errack := v } } ∧
      (64 < v.toNat % 2 ^ 7 → exec (.dcrWrite 0x130000850000 v) s = .next lost) ∧
      (∃ w : BitVec 64, exec (.dcrWrite 0x130000001000 v) s = .next (s.setDie 0 { s.die 0 with swbase := w }) ∧
        w.toNat = v.toNat / 2 ^ 20 % 2 ^ 28 * 2 ^ 20) ∧
      exec (.dcrWrite 0x130000000F00 v) s = .next lost

end Sys2Proof.Claims

/-- What the module does of itself: self-tests, frame boundaries, temperature, sweeps and drains, gang switches. -/
def Obligations.ModuleEvents : Prop := SelfTests ∧ Housekeeping ∧ GangSwitches

/-- R304, R305, R394 to R397, R418: bring-up and the control node. -/
def Obligations.BringUpAndControlNode : Prop := BringUp ∧ ControlNode

namespace Sys2Proof.Claims

open Sys2Proof.Machine

/-! ## Words of the spec's own worked encodings (R55, R96, R115, R120, R154, R157, R160, R197, R203, R217, R231, R236, R248, R249, R266,
R269, R294, R319, R336, R362, R364, R365, R402, R413) -/

/-- Words with the instructions that the spec writes beside them; a register s`n`, v`n`, k`n` is its number, an absent field 0. -/
def workedWords : List (BitVec 32 × Instr) :=
  [(0x046429A0, .sel 3 4 5 6), (0x24B81234, .liz 5 3 0 0x1234), (0x28A01234, .lik 5 0 0x1234), (0x0686A80D, .minu 20 6 21),
   (0x08A5FFFF, .addi 5 5 0xFFFF), (0x34A0FFFC, .bne 5 0 0xFFFC), (0x481FFFFE, .jal 0 0x1FFFFE), (0x51068000, .ldw 8 6 0),
   (0x58A63A60, .amoadd 5 6 7 2 1 1), (0x590954C9, .amocas 8 9 10 4 3 0), (0x5CA63C80, .famoFadd 5 6 7 4 2),
   (0x64224B80, .vadd 1 2 9 3 1), (0x68442902, .vclt 2 4 5 1 0), (0x70490400, .vrsum 2 9 4), (0x7D230004, .kpop 9 3),
   (0x808A0218, .vld 4 10 2 0 0 1 2), (0x80C4398A, .vldx 6 4 7 1 1 0 0 2), (0x8465304D, .vsts 3 5 6 0 0 1 0 3),
   (0x8845190C, .vamoAdd 2 5 3 1 0 0 1), (0x8C442901, .gcslp 2 4 5 1 1), (0x90A32008, .fork 5 3 4 8), (0x94552D80, .cpy 5 10 11 12),
   (0x980681C2, .ffrdy 13 14), (0x99F07FE4, .waitc 31 0 31 31), (0x9C042800, .tgath 4 5), (0x9D070143, .tst 1 7 10),
   (0xA06C6800, .tmma 0 3 12 13), (0xA400E060, .fence 7 3), (0xA4A68041, .bararr 5 6 4 1), (0xA95F0765, .ramo 5 15 16 14 3 0 0),
   (0xA8909503, .putMsg 2 8 9 10 0 0), (0xAC880003, .balw 2 4 3), (0xB0000001, .sealw), (0xB4A60001, .start 5 6),
   (0xB80002A0, .ecall 0x2A), (0xB8800102, .csrr 4 0x010), (0xBAB51083, .csrw 21 21 0x108)]

/-! ## Reset -/

/-- The CSR values of a context at reset that are not 0, as the field maps give them: POL, FKCFG (LIM and ELIM 16), APITCH, THPRI
(AGE 64), DESCHED, RWIN (SSC 7). -/
def resetCsr (n : Nat) : Word :=
  if 0x060 ≤ n ∧ n ≤ 0x063 then 0xFFFFFFFF00000000 else if n = 0x092 then 0x1010 else if n = 0x0A3 then 0x01000000
  else if n = 0x0F2 then 0x4000 else if n = 0x0F3 then 0x1000 else if 0x120 ≤ n ∧ n ≤ 0x123 then 0x700 else 0

/-! ## Energy (R345, R349) -/

/-- The energy class of an instruction word, by its major opcode (R345). -/
def classOf (w : BitVec 32) : Nat :=
  let m := w.toNat / 2 ^ 26
  if m ∈ [0x27, 0x28] then 2 else if m ∈ [0x18, 0x19, 0x1A, 0x1B, 0x1C, 0x1D, 0x1E, 0x1F, 0x20, 0x21, 0x22, 0x23, 0x24, 0x25, 0x2A] then 1 else 0

/-- The units debited at the issue of an instruction itself (R349): 2 for a scalar access of memory, 8 for the one beat of START, 0 where
the units go by groups, passes, rows, steps, sectors or beats, and 1 for everything else: of the words that R349 does not list that
is the model's choice (log 68), and of START (log 129). -/
def issueUnits (w : BitVec 32) (i : Instr) : Nat :=
  let m := w.toNat / 2 ^ 26
  if m ∈ [0x14, 0x15, 0x16, 0x17] then 2
  else if m ∈ [0x19, 0x1A, 0x1B, 0x1C, 0x1D, 0x1E, 0x1F, 0x20, 0x21, 0x22, 0x23, 0x25] then 0
  else match i with
    | .start _ _ => 8
    | .tgath _ _ | .tzero _ | .tmma _ _ _ _ | .tst _ _ _ | .taccr _ _ => 0
    | .sendMsg _ _ _ _ _ | .sendt _ _ _ _ | .putMsg _ _ _ _ _ _ | .getMsg _ _ _ _ _ | .ramo _ _ _ _ _ _ _ | .vscacc _ _ _ | .vscfl => 0
    | _ => 1

/-- The allowance after a debit: it saturates at the most negative 32-bit value (R348). -/
def lowered (e : Int) (n : Nat) : Int := max (-(2 ^ 31)) (e - n)

/-- From `s` to `t` the ring of a unit is debited by `n` units, and nothing else of it changes. -/
def Pays (s t : State) (u : CtxId) (n : Nat) : Prop :=
  t.ringOf u = { s.ringOf u with
    ealw := lowered (s.ringOf u).ealw n }

/-- A vector instruction has been performed: it counts as one more that is not yet complete. -/
def VecPerformed (i : Instr) (s t : State) : Prop := exec i s = .next t ∧ t.me.vecs.length = s.me.vecs.length + 1

/-- `l` lists each sector of QSPM that holds one of these bytes once. -/
def SectorsOf (l : List Nat) (touched : Nat → Prop) : Prop := l.Nodup ∧ ∀ k, k ∈ l ↔ ∃ o, touched o ∧ o / 64 = k

/-- R349, the units that go by work done: an element instruction 4 for each element group, a cross-cluster instruction 16, a VAMO 16
for each pass, a copy 4 for each 64 bytes, a message 8 for each beat, TZERO 8, TMMA 64 for each K-step cycle, TGATH and TST 2 for
each sector, TACCR 256. TMMA, TGATH and TST debit in the cycles that they run: none as they start, and the sum of what is left to
them is given. That TACCR debits its 256 units as it starts is the model's choice (log 38), and so is the length of a copy of rows that
are no multiple of 64 bytes (log 128). -/
def WorkDebits : Prop :=
  (∀ (s t : State) (i : Instr), OnCore s → s.me.rst = 0 → VecPerformed i s t →
    let vl := s.me.csr.vl
    (∀ vd tag b km, ∀ T : Tag, i = .vsplat vd tag b km → T ≠ .untagged → T.code = tag.toNat → Pays s t s.cur (4 * ((vl * T.width + 63) / 64))) ∧
    (∀ vd va b km y, i = .vadd vd va b km y → vl ≠ 0 → Pays s t s.cur (4 * ((vl * (t.me.v vd).tag.width + 63) / 64))) ∧
    (∀ vd a b, i = .vins vd a b → Pays s t s.cur 4) ∧
    (∀ kd ka kb, i ∈ [.kand kd ka kb, .kor kd ka kb, .kxor kd ka kb, .knot kd ka, .kmv kd ka] → Pays s t s.cur 16) ∧
    (∀ vd va b km sv, i ∈ [.vslide1 vd b km, .vslidedn vd va b km sv, .vslideup vd va b km sv, .vperm vd va b km, .vcmpr vd va km, .vexpd vd va km, .viota vd km] → Pays s t s.cur 16) ∧
    (∀ d va km, i ∈ [.vrsum d va km, .vrmax d va km, .vrmin d va km, .vscan d va km, .vscanx d va km] → Pays s t s.cur 16) ∧
    (∀ d ka va b, i ∈ [.kpop d ka, .kff d ka, .vext d va b] → Pays s t s.cur 16) ∧
    (∀ a b km rs, i = .vscacc a b km → t.net = s.net ++ rs → Pays s t s.cur (16 + 8 * (rs.map fun r => r.beats).sum)) ∧
    (∀ d base c km y pol w, i = .vamoAdd d base c km y pol w →
      (∀ e f, e < vl → f < vl → active s.me km e = true → active s.me km f = true →
        elemAt (s.me.v c) (s.me.v c).tag.width e = elemAt (s.me.v c) (s.me.v c).tag.width f → e = f) →
      (∃ e, e < vl ∧ active s.me km e = true) → Pays s t s.cur 16)) ∧
  (∀ (s t : State) (i : Instr) (x : Copy), exec i s = .next t → t.me.copies = s.me.copies ++ [x] →
    (∃ n a b c, i ∈ [.cpy n a b c, .cpy2 n a b]) → Pays s t s.cur (4 * (x.rows * ((x.rowlen + 63) / 64)))) ∧
  (∀ (s t : State) (i : Instr) (r : Req) (ds : BitVec 4) (a b c : BitVec 5) (op : BitVec 2) (im rel : BitVec 1), exec i s = .next t →
    t.net = s.net ++ [r] → i ∈ [.putMsg ds a b c im rel, .getMsg ds a b c im, .sendMsg ds a b im rel, .ramo ds a b c op im rel] →
    Pays s t s.cur (8 * r.beats)) ∧
  (∀ (s t : State) (u : CtxId) (op o : TileOp), Alone s u op → exec (.tileOpStart u) s = .next t → (t.ctx u).tile.fault = none →
    (t.ctx u).tile.queue = [o] → o.started = true →
    let c := s.ctx u
    let fmt (i : Nat) := c.csr.tfmt.toNat / 16 ^ i % 16
    let byte (o : Nat) : Nat := (memGet s.mem (ownQspm u + o)).toNat
    (op.kind = .zero → Pays s t u 8) ∧
    (∀ b k m late kg lim w, op.kind = .mma b k m late → shapeOf (fmt 0) (fmt 1) (fmt 2) = some (kg, lim, w) →
      t.ringOf u = s.ringOf u ∧ o.owed = List.replicate (((kept m k).length + kg - 1) / kg) 64) ∧
    (∀ x y, op.kind = .gath x y →
      let idx (i : Nat) : Nat := byte (x + 2 * i) + 256 * byte (x + 2 * i + 1)
      let rlen := c.csr.apitch.toNat / 2 ^ 16 % 2 ^ 9
      t.ringOf u = s.ringOf u ∧ ∃ l, o.owed.sum = 2 * l.length ∧ SectorsOf l fun o => (x ≤ o ∧ o < x + 128) ∨ ∃ i < 64, idx i ≠ 0xFFFF ∧
        let row := y + idx i * (c.csr.apitch.toNat % 2 ^ 16)
        row ≤ o ∧ o < row + rlen) ∧
    (∀ T x, op.kind = .st T x → T ≠ .untagged →
      t.ringOf u = s.ringOf u ∧ ∃ l, o.owed.sum = 2 * l.length ∧ SectorsOf l fun o => ∃ i < 64,
        let row := x + i * (c.csr.apitch.toNat / 2 ^ 32 % 2 ^ 16)
        row ≤ o ∧ o < row + 64 * T.width) ∧
    (∀ q r, op.kind = .accr q r → Pays s t u 256))

/-! ## A step -/

/-- A context outside any fork that is to run its next instruction: live, waiting for nothing, every vector instruction complete, no
restart under way, no interrupt and no switch to be accepted, power on, its core with room for a memory request (R34), and the
clock bringing nothing about first: no frame boundary, no launch. -/
def Runnable (s : State) (u : CtxId) : Prop :=
  let c := s.ctx u
  c.status = .live ∧ c.wait = none ∧ c.chunk = none ∧ c.vecs = [] ∧ c.rst = 0 ∧ s.hub.powerOff = false ∧
    (s.part (s.partOfCtx u)).armed = none ∧
    (c.csr.exl = true ∨ (c.gswDue = none ∧ (c.csr.ipend = false ∨ c.csr.ie = false ∨ c.sealing = true))) ∧
    ((List.range 4).map fun k => let d := s.ctx (mkCtxId u.die.val u.unit.val k)
      d.accs.length + d.vecs.length).sum < 16 ∧
    s.time / 1024 ≤ s.frames ∧ ∀ r ∈ s.net, r.stage ≠ .timed s.time

/-- The word at the context's PC, in its unit's ISTORE and without error. -/
def Fetches (s : State) (u : CtxId) (w : BitVec 32) : Prop :=
  (s.ctx u).pc.toNat < limit u ∧ (s.ctx u).pc.toNat / 4 ∉ (s.core u.die u.unit.val).bad ∧
    w = BitVec.ofNat 32 (littleEndian (s.core u.die u.unit.val).istore (s.ctx u).pc.toNat 4)

/-- The allowance of the context's ring lets it issue the word (R345). -/
def FitsClass (s : State) (u : CtxId) (w : BitVec 32) : Prop :=
  let c := max (s.ctx u).csr.ecls (classOf w)
  let r := s.ringOf u
  c = 0 ∨ (c = 1 ∧ 0 < r.ealw) ∨ (c = 2 ∧ (r.quant : Int) ≤ 4 * r.ealw)

/-- The instruction has not issued (R29, R88): the context waits at it for something that it looks at again. -/
def StillWaits (c c' : Ctx) : Prop :=
  c'.status = .live ∧ c'.pc = c.pc ∧ (∀ ch, c'.chunk = some ch → ch.trap = none) ∧
    (c'.wait = some .poll ∨ c'.wait = some .allowance ∨ c'.wait = some .energy ∨ c'.wait = some .sealing)

/-- The debit of an issue: class 0 is debited only while the allowance is positive (R349). -/
def IssueDebit (s t : State) (u : CtxId) (w : BitVec 32) (i : Instr) : Prop :=
  ((classOf w = 0 ∧ (s.ringOf u).ealw ≤ 0) → t.ringOf u = s.ringOf u) ∧ (¬(classOf w = 0 ∧ (s.ringOf u).ealw ≤ 0) → Pays s t u (issueUnits w i))

/-- What a step notes in the context of an instruction that issues: the time (R345), that it was not passed over (R32), PMC1 and counters
of time (R381); a JOIN must be the first to issue at its label (R201). -/
def IssueNoted (s t : State) (u : CtxId) (i : Instr) : Prop :=
  let c := s.ctx u
  let counts := c.csr.trcctl.getLsbD 2 && (!c.csr.trcctl.getLsbD 3 || c.csr.trcctl.getLsbD 4)
  t.ctx u = { c with
    last := s.time
    passed := 0
    joinFirst := c.joinFirst && decide (i = .join)
    csr := { c.csr with pmc := (t.ctx u).csr.pmc } } ∧
  (t.ctx u).csr.pmc[(0 : Fin 15)] = c.csr.pmc[(0 : Fin 15)] + (if counts then 1 else 0) ∧
  ∀ n : Fin 15, n.val + 1 ∈ [5, 8, 9, 11, 12, 15] ∨ counts = false → (t.ctx u).csr.pmc[n] = c.csr.pmc[n]

/-- What a step accounts before an instruction that issues. -/
def Accounted (s t : State) (u : CtxId) (w : BitVec 32) (i : Instr) : Prop :=
  t = { s with
    ctxs := t.ctxs
    rings := t.rings
    free := t.free } ∧
  (∀ v, v ≠ u → t.ctx v = s.ctx v) ∧ IssueNoted s t u i ∧ IssueDebit s t u w i

/-- The cycle of the issue passes, in which tile operations run (CyclesDebited), and the context has its own priority again (R32); a
YIELD may have given the slot to another thread. -/
def Issued (t : State) (u : CtxId) (i : Instr) : State := (if i = .yield then t else t.setCtx u { t.ctx u with boost := false }).elapse 1

/-- No tile operation of the module has a cycle left to debit. -/
def NothingRuns (s : State) : Prop := ∀ u, ∀ op ∈ (s.ctx u).tile.queue, op.owed = []

/-- What a cycle does: the time advances, and the one tile operation that runs debits the units of its cycle; a TMMA takes a second
cycle for them while its ring's allowance is used up or its quad is hot, and is counted for each (R216, R230, R349, R351, R381). -/
def CyclesDebited : Prop :=
  (∀ (s : State) (n : Nat), Regular s → NothingRuns s → s.elapse n = { s with time := s.time + n }) ∧
  ∀ (s : State) (u : CtxId) (op : TileOp) (d : Nat) (rest : List Nat), Regular s → (s.ctx u).tile.queue = [op] → op.owed = d :: rest →
    (∀ v, v ≠ u → ∀ o ∈ (s.ctx v).tile.queue, o.owed = []) →
    let t := s.elapse 1
    let mma : Bool := match op.kind with
      | .mma _ _ _ _ => true
      | _ => false
    let slow : Prop := (s.ringOf u).ealw ≤ 0 ∨ (s.quad u.die u.quad).therm = 2
    t = { s with
      time := s.time + 1
      ctxs := t.ctxs
      rings := t.rings } ∧
    (∀ v, v ≠ u → t.ctx v = s.ctx v) ∧
    (mma = true ∧ op.half = false ∧ slow → t.rings = s.rings ∧ (t.ctx u) = { s.ctx u with
      tile := { (s.ctx u).tile with queue := [{ op with half := true }] } }) ∧
    (¬(mma = true ∧ op.half = false ∧ slow) → Pays s t u d ∧ ∃ pmc : Vector Word 15, (t.ctx u) = { s.ctx u with
        csr := { (s.ctx u).csr with pmc := pmc }
        tile := { (s.ctx u).tile with queue := [{ op with
          owed := rest
          half := false }] } } ∧
      ∀ n : Fin 15, n.val ≠ 12 → (n.val ≠ 11 ∨ mma = false) → pmc[n] = (s.ctx u).csr.pmc[n])

/-- A step at which the schedule names a runnable context runs the instruction that its word decodes to: an instruction that does
not issue leaves its wait and nothing else; one that issues, after the account of its issue, has its meaning, and TIME advances
(the meaning of a WFE is debited after it, R344). A word that is no instruction raises ILLEGAL-INSTRUCTION; a PC past the ISTORE
RANGE-FAULT. An event that the schedule names comes about; a frame boundary that is due comes first (R348). -/
def RunsDecoded : Prop :=
  ∀ (s : State) (rest : List Act) (u : CtxId) (w : BitVec 32) (i : Instr), s.agenda = .issue u :: rest → Runnable s u →
    let s1 := { s with
      agenda := rest
      cur := u }
    (Fetches s u w → (decode w = .ok i ∨ ((∀ j, decode w ≠ .ok j) ∧ i = .illegalInstruction w)) → (∀ r ∈ s.net, r.src ≠ some (Holder.here u)) →
      (FitsClass s u w ∨ ∀ j, decode w ≠ .ok j) →
      ∀ t, exec i s1 = .next t →
        (StillWaits (s.ctx u) (t.ctx u) → step s = .next t) ∧
        (¬StillWaits (s.ctx u) (t.ctx u) → ∃ (s2 t2 : State), exec i s2 = .next t2 ∧
          ((∀ a, i ≠ .wfe a) → Accounted s1 s2 u (if (decode w).isOk then w else 0) i ∧ step s = .next (Issued t2 u i)) ∧
          (∀ a, i = .wfe a → IssueNoted s1 s2 u i ∧ s2.rings = s1.rings ∧ ∃ t3 : State, step s = .next (Issued t3 u i) ∧
            t3 = { t2 with
              ctxs := t3.ctxs
              rings := t3.rings } ∧ IssueDebit t2 t3 u w i))) ∧
    (limit u ≤ (s.ctx u).pc.toNat → s1.me.csr.exl = false → (handler s1.me false).toNat < limit u →
      step s = .next ((s1.setCtx u (entered s1.me false 0x06 (BitVec.ofNat 64 (limit u)) s1.me.pc 0)).elapse 1)) ∧
    (∀ j, j.hasWord = false → step { s with agenda := .event j :: rest } = exec j { s with agenda := rest }) ∧
    ∀ acts n, n < s.time / 1024 →
      let s' := { s with
        agenda := acts
        frames := n }
      step s' = exec .frameBoundary s'

/-- What every step keeps: the memories in their canonical form, the contexts' table in order. -/
def Canonical (s : State) : Prop := s.memsWf = true ∧ Regular s

end Sys2Proof.Claims

/-- The machine right after reset: no context holds a thread, every CSR that has a reset value reads as it (R5), every partition is
free and no domain formed, bring-up stands before its first step with CAPW 4,000, every memory is empty, and StepInvariant's
invariant holds. That unlisted memory is 0 and that
registers of an unused context are 0 are the model's choices (logs 5, 6). -/
def Obligations.ResetState : Prop :=
  let s := State.reset
  Canonical s ∧
  (∀ u, (s.ctx u).status = .free ∧ (∀ r, (s.ctx u).x r = 0) ∧ (s.ctx u).pc = 0 ∧
    ∀ n id, csrAt u.isQcc n = some id → id ≠ .self → id ≠ .ealw → (∀ k, id ≠ .alw k) → s.csrRead u id = resetCsr n) ∧
  (∀ a, memGet s.mem a = 0) ∧ (∀ d n, (s.core d n).istore = [] ∧ (s.core d n).inc = 0) ∧
  (∀ d q, s.ringMode d q = 0 ∧ s.partOf d q = 0 ∧ (s.ring d q).codeid = 0 ∧ (s.quad d q).codeid = 0) ∧
  (∀ d q (b : Fin 8), (s.quad d q).evu.bars[b].tgt = 4 ∧ (s.quad d q).evu.bars[b].arr = 0 ∧ (s.quad d q).evu.bars[b].gen = 0) ∧
  (∀ d q (n : Fin 32), (s.quad d q).evu.lines[n] = 0) ∧ (∀ b, (s.bar b).en = false) ∧
  (∀ p : Fin 16, s.parts[p].pstate = .free) ∧ s.domain = none ∧ s.hub.step = 0 ∧ s.hub.capw = 4000 ∧ s.hub.failed = false ∧
  s.hub.ulogth = 0x180000000 ∧ s.hub.errhead = 0

/-- The words that the spec writes out decode to the instructions beside them; a word of a reserved major is no instruction. -/
def Obligations.WorkedWords : Prop :=
  (∀ p ∈ workedWords, decode p.1 = .ok p.2) ∧
  (∀ w : BitVec 32, w.toNat / 2 ^ 26 = 0 ∨ 0x2E < w.toNat / 2 ^ 26 → ∃ e, decode w = .error e)

/-- Decoding and encoding agree: every well-formed instruction that has a word decodes from its word, and a word that decodes is the
word of its instruction, which is well formed. -/
def Obligations.DecodeEncode : Prop :=
  (∀ i : Instr, i.wellFormed = true → i.hasWord = true → ∃ w, encode i = some w ∧ decode w = .ok i) ∧
  ∀ (w : BitVec 32) (i : Instr), decode w = .ok i → i.wellFormed = true ∧ i.hasWord = true ∧ encode i = some w

/-- A step runs the decoded instruction, debited as the spec says. That an issue takes one cycle, that counters of timing advance freely
and that the agenda names what comes next are the model's choice (logs 2, 4, 16), and so are 1 unit for a word that R349 does not list
(log 68), 8 for START (log 129), the rows of a copy (log 128) and the moment of a TACCR's debit (log 38). -/
def Obligations.StepRunsDecoded : Prop := RunsDecoded ∧ WorkDebits ∧ CyclesDebited

/-- Every step keeps the memories in their canonical form, rising addresses and no byte listed that reads as an unlisted one, and
the table of contexts in order, each context of the module at most once. The
canonical form is the model's own (log 6). -/
def Obligations.StepInvariant : Prop :=
  ∀ s t : State, Canonical s → step s = .next t → Canonical t
end

