-- ==== Sys2Proof/Laws/State.lean ====
section
/-! SUPPORT. One lemma per field per update of State: an update of one table leaves every other field as it was. -/

namespace Sys2Proof.Machine

/-! ## `State.setCtx` changes `ctxs` only -/

@[simp] theorem State.setCtx_cores (s : State) (u : CtxId) (c : Ctx) : (s.setCtx u c).cores = s.cores := rfl
@[simp] theorem State.setCtx_quads (s : State) (u : CtxId) (c : Ctx) : (s.setCtx u c).quads = s.quads := rfl
@[simp] theorem State.setCtx_rings (s : State) (u : CtxId) (c : Ctx) : (s.setCtx u c).rings = s.rings := rfl
@[simp] theorem State.setCtx_dies (s : State) (u : CtxId) (c : Ctx) : (s.setCtx u c).dies = s.dies := rfl
@[simp] theorem State.setCtx_forks (s : State) (u : CtxId) (c : Ctx) : (s.setCtx u c).forks = s.forks := rfl
@[simp] theorem State.setCtx_mem (s : State) (u : CtxId) (c : Ctx) : (s.setCtx u c).mem = s.mem := rfl
@[simp] theorem State.setCtx_tags (s : State) (u : CtxId) (c : Ctx) : (s.setCtx u c).tags = s.tags := rfl
@[simp] theorem State.setCtx_poison (s : State) (u : CtxId) (c : Ctx) : (s.setCtx u c).poison = s.poison := rfl
@[simp] theorem State.setCtx_undo (s : State) (u : CtxId) (c : Ctx) : (s.setCtx u c).undo = s.undo := rfl
@[simp] theorem State.setCtx_regions (s : State) (u : CtxId) (c : Ctx) : (s.setCtx u c).regions = s.regions := rfl
@[simp] theorem State.setCtx_lines (s : State) (u : CtxId) (c : Ctx) : (s.setCtx u c).lines = s.lines := rfl
@[simp] theorem State.setCtx_rngb (s : State) (u : CtxId) (c : Ctx) : (s.setCtx u c).rngb = s.rngb := rfl
@[simp] theorem State.setCtx_rngl (s : State) (u : CtxId) (c : Ctx) : (s.setCtx u c).rngl = s.rngl := rfl
@[simp] theorem State.setCtx_pendB (s : State) (u : CtxId) (c : Ctx) : (s.setCtx u c).pendB = s.pendB := rfl
@[simp] theorem State.setCtx_pendL (s : State) (u : CtxId) (c : Ctx) : (s.setCtx u c).pendL = s.pendL := rfl
@[simp] theorem State.setCtx_tgen (s : State) (u : CtxId) (c : Ctx) : (s.setCtx u c).tgen = s.tgen := rfl
@[simp] theorem State.setCtx_commits (s : State) (u : CtxId) (c : Ctx) : (s.setCtx u c).commits = s.commits := rfl
@[simp] theorem State.setCtx_bars (s : State) (u : CtxId) (c : Ctx) : (s.setCtx u c).bars = s.bars := rfl
@[simp] theorem State.setCtx_net (s : State) (u : CtxId) (c : Ctx) : (s.setCtx u c).net = s.net := rfl
@[simp] theorem State.setCtx_owners (s : State) (u : CtxId) (c : Ctx) : (s.setCtx u c).owners = s.owners := rfl
@[simp] theorem State.setCtx_outs (s : State) (u : CtxId) (c : Ctx) : (s.setCtx u c).outs = s.outs := rfl
@[simp] theorem State.setCtx_xoff (s : State) (u : CtxId) (c : Ctx) : (s.setCtx u c).xoff = s.xoff := rfl
@[simp] theorem State.setCtx_parts (s : State) (u : CtxId) (c : Ctx) : (s.setCtx u c).parts = s.parts := rfl
@[simp] theorem State.setCtx_domain (s : State) (u : CtxId) (c : Ctx) : (s.setCtx u c).domain = s.domain := rfl
@[simp] theorem State.setCtx_hub (s : State) (u : CtxId) (c : Ctx) : (s.setCtx u c).hub = s.hub := rfl
@[simp] theorem State.setCtx_time (s : State) (u : CtxId) (c : Ctx) : (s.setCtx u c).time = s.time := rfl
@[simp] theorem State.setCtx_frames (s : State) (u : CtxId) (c : Ctx) : (s.setCtx u c).frames = s.frames := rfl
@[simp] theorem State.setCtx_sweeps (s : State) (u : CtxId) (c : Ctx) : (s.setCtx u c).sweeps = s.sweeps := rfl
@[simp] theorem State.setCtx_pkg (s : State) (u : CtxId) (c : Ctx) : (s.setCtx u c).pkg = s.pkg := rfl
@[simp] theorem State.setCtx_cur (s : State) (u : CtxId) (c : Ctx) : (s.setCtx u c).cur = s.cur := rfl
@[simp] theorem State.setCtx_turn (s : State) (u : CtxId) (c : Ctx) : (s.setCtx u c).turn = s.turn := rfl
@[simp] theorem State.setCtx_agenda (s : State) (u : CtxId) (c : Ctx) : (s.setCtx u c).agenda = s.agenda := rfl
@[simp] theorem State.setCtx_seq (s : State) (u : CtxId) (c : Ctx) : (s.setCtx u c).seq = s.seq := rfl
@[simp] theorem State.setCtx_free (s : State) (u : CtxId) (c : Ctx) : (s.setCtx u c).free = s.free := rfl

/-! ## `State.updCtx` changes `ctxs` only -/

@[simp] theorem State.updCtx_cores (s : State) (u : CtxId) (f : Ctx → Ctx) : (s.updCtx u f).cores = s.cores := rfl
@[simp] theorem State.updCtx_quads (s : State) (u : CtxId) (f : Ctx → Ctx) : (s.updCtx u f).quads = s.quads := rfl
@[simp] theorem State.updCtx_rings (s : State) (u : CtxId) (f : Ctx → Ctx) : (s.updCtx u f).rings = s.rings := rfl
@[simp] theorem State.updCtx_dies (s : State) (u : CtxId) (f : Ctx → Ctx) : (s.updCtx u f).dies = s.dies := rfl
@[simp] theorem State.updCtx_forks (s : State) (u : CtxId) (f : Ctx → Ctx) : (s.updCtx u f).forks = s.forks := rfl
@[simp] theorem State.updCtx_mem (s : State) (u : CtxId) (f : Ctx → Ctx) : (s.updCtx u f).mem = s.mem := rfl
@[simp] theorem State.updCtx_tags (s : State) (u : CtxId) (f : Ctx → Ctx) : (s.updCtx u f).tags = s.tags := rfl
@[simp] theorem State.updCtx_poison (s : State) (u : CtxId) (f : Ctx → Ctx) : (s.updCtx u f).poison = s.poison := rfl
@[simp] theorem State.updCtx_undo (s : State) (u : CtxId) (f : Ctx → Ctx) : (s.updCtx u f).undo = s.undo := rfl
@[simp] theorem State.updCtx_regions (s : State) (u : CtxId) (f : Ctx → Ctx) : (s.updCtx u f).regions = s.regions := rfl
@[simp] theorem State.updCtx_lines (s : State) (u : CtxId) (f : Ctx → Ctx) : (s.updCtx u f).lines = s.lines := rfl
@[simp] theorem State.updCtx_rngb (s : State) (u : CtxId) (f : Ctx → Ctx) : (s.updCtx u f).rngb = s.rngb := rfl
@[simp] theorem State.updCtx_rngl (s : State) (u : CtxId) (f : Ctx → Ctx) : (s.updCtx u f).rngl = s.rngl := rfl
@[simp] theorem State.updCtx_pendB (s : State) (u : CtxId) (f : Ctx → Ctx) : (s.updCtx u f).pendB = s.pendB := rfl
@[simp] theorem State.updCtx_pendL (s : State) (u : CtxId) (f : Ctx → Ctx) : (s.updCtx u f).pendL = s.pendL := rfl
@[simp] theorem State.updCtx_tgen (s : State) (u : CtxId) (f : Ctx → Ctx) : (s.updCtx u f).tgen = s.tgen := rfl
@[simp] theorem State.updCtx_commits (s : State) (u : CtxId) (f : Ctx → Ctx) : (s.updCtx u f).commits = s.commits := rfl
@[simp] theorem State.updCtx_bars (s : State) (u : CtxId) (f : Ctx → Ctx) : (s.updCtx u f).bars = s.bars := rfl
@[simp] theorem State.updCtx_net (s : State) (u : CtxId) (f : Ctx → Ctx) : (s.updCtx u f).net = s.net := rfl
@[simp] theorem State.updCtx_owners (s : State) (u : CtxId) (f : Ctx → Ctx) : (s.updCtx u f).owners = s.owners := rfl
@[simp] theorem State.updCtx_outs (s : State) (u : CtxId) (f : Ctx → Ctx) : (s.updCtx u f).outs = s.outs := rfl
@[simp] theorem State.updCtx_xoff (s : State) (u : CtxId) (f : Ctx → Ctx) : (s.updCtx u f).xoff = s.xoff := rfl
@[simp] theorem State.updCtx_parts (s : State) (u : CtxId) (f : Ctx → Ctx) : (s.updCtx u f).parts = s.parts := rfl
@[simp] theorem State.updCtx_domain (s : State) (u : CtxId) (f : Ctx → Ctx) : (s.updCtx u f).domain = s.domain := rfl
@[simp] theorem State.updCtx_hub (s : State) (u : CtxId) (f : Ctx → Ctx) : (s.updCtx u f).hub = s.hub := rfl
@[simp] theorem State.updCtx_time (s : State) (u : CtxId) (f : Ctx → Ctx) : (s.updCtx u f).time = s.time := rfl
@[simp] theorem State.updCtx_frames (s : State) (u : CtxId) (f : Ctx → Ctx) : (s.updCtx u f).frames = s.frames := rfl
@[simp] theorem State.updCtx_sweeps (s : State) (u : CtxId) (f : Ctx → Ctx) : (s.updCtx u f).sweeps = s.sweeps := rfl
@[simp] theorem State.updCtx_pkg (s : State) (u : CtxId) (f : Ctx → Ctx) : (s.updCtx u f).pkg = s.pkg := rfl
@[simp] theorem State.updCtx_cur (s : State) (u : CtxId) (f : Ctx → Ctx) : (s.updCtx u f).cur = s.cur := rfl
@[simp] theorem State.updCtx_turn (s : State) (u : CtxId) (f : Ctx → Ctx) : (s.updCtx u f).turn = s.turn := rfl
@[simp] theorem State.updCtx_agenda (s : State) (u : CtxId) (f : Ctx → Ctx) : (s.updCtx u f).agenda = s.agenda := rfl
@[simp] theorem State.updCtx_seq (s : State) (u : CtxId) (f : Ctx → Ctx) : (s.updCtx u f).seq = s.seq := rfl
@[simp] theorem State.updCtx_free (s : State) (u : CtxId) (f : Ctx → Ctx) : (s.updCtx u f).free = s.free := rfl

/-! ## `State.upd` changes `ctxs` only -/

@[simp] theorem State.upd_cores (s : State) (f : Ctx → Ctx) : (s.upd f).cores = s.cores := rfl
@[simp] theorem State.upd_quads (s : State) (f : Ctx → Ctx) : (s.upd f).quads = s.quads := rfl
@[simp] theorem State.upd_rings (s : State) (f : Ctx → Ctx) : (s.upd f).rings = s.rings := rfl
@[simp] theorem State.upd_dies (s : State) (f : Ctx → Ctx) : (s.upd f).dies = s.dies := rfl
@[simp] theorem State.upd_forks (s : State) (f : Ctx → Ctx) : (s.upd f).forks = s.forks := rfl
@[simp] theorem State.upd_mem (s : State) (f : Ctx → Ctx) : (s.upd f).mem = s.mem := rfl
@[simp] theorem State.upd_tags (s : State) (f : Ctx → Ctx) : (s.upd f).tags = s.tags := rfl
@[simp] theorem State.upd_poison (s : State) (f : Ctx → Ctx) : (s.upd f).poison = s.poison := rfl
@[simp] theorem State.upd_undo (s : State) (f : Ctx → Ctx) : (s.upd f).undo = s.undo := rfl
@[simp] theorem State.upd_regions (s : State) (f : Ctx → Ctx) : (s.upd f).regions = s.regions := rfl
@[simp] theorem State.upd_lines (s : State) (f : Ctx → Ctx) : (s.upd f).lines = s.lines := rfl
@[simp] theorem State.upd_rngb (s : State) (f : Ctx → Ctx) : (s.upd f).rngb = s.rngb := rfl
@[simp] theorem State.upd_rngl (s : State) (f : Ctx → Ctx) : (s.upd f).rngl = s.rngl := rfl
@[simp] theorem State.upd_pendB (s : State) (f : Ctx → Ctx) : (s.upd f).pendB = s.pendB := rfl
@[simp] theorem State.upd_pendL (s : State) (f : Ctx → Ctx) : (s.upd f).pendL = s.pendL := rfl
@[simp] theorem State.upd_tgen (s : State) (f : Ctx → Ctx) : (s.upd f).tgen = s.tgen := rfl
@[simp] theorem State.upd_commits (s : State) (f : Ctx → Ctx) : (s.upd f).commits = s.commits := rfl
@[simp] theorem State.upd_bars (s : State) (f : Ctx → Ctx) : (s.upd f).bars = s.bars := rfl
@[simp] theorem State.upd_net (s : State) (f : Ctx → Ctx) : (s.upd f).net = s.net := rfl
@[simp] theorem State.upd_owners (s : State) (f : Ctx → Ctx) : (s.upd f).owners = s.owners := rfl
@[simp] theorem State.upd_outs (s : State) (f : Ctx → Ctx) : (s.upd f).outs = s.outs := rfl
@[simp] theorem State.upd_xoff (s : State) (f : Ctx → Ctx) : (s.upd f).xoff = s.xoff := rfl
@[simp] theorem State.upd_parts (s : State) (f : Ctx → Ctx) : (s.upd f).parts = s.parts := rfl
@[simp] theorem State.upd_domain (s : State) (f : Ctx → Ctx) : (s.upd f).domain = s.domain := rfl
@[simp] theorem State.upd_hub (s : State) (f : Ctx → Ctx) : (s.upd f).hub = s.hub := rfl
@[simp] theorem State.upd_time (s : State) (f : Ctx → Ctx) : (s.upd f).time = s.time := rfl
@[simp] theorem State.upd_frames (s : State) (f : Ctx → Ctx) : (s.upd f).frames = s.frames := rfl
@[simp] theorem State.upd_sweeps (s : State) (f : Ctx → Ctx) : (s.upd f).sweeps = s.sweeps := rfl
@[simp] theorem State.upd_pkg (s : State) (f : Ctx → Ctx) : (s.upd f).pkg = s.pkg := rfl
@[simp] theorem State.upd_cur (s : State) (f : Ctx → Ctx) : (s.upd f).cur = s.cur := rfl
@[simp] theorem State.upd_turn (s : State) (f : Ctx → Ctx) : (s.upd f).turn = s.turn := rfl
@[simp] theorem State.upd_agenda (s : State) (f : Ctx → Ctx) : (s.upd f).agenda = s.agenda := rfl
@[simp] theorem State.upd_seq (s : State) (f : Ctx → Ctx) : (s.upd f).seq = s.seq := rfl
@[simp] theorem State.upd_free (s : State) (f : Ctx → Ctx) : (s.upd f).free = s.free := rfl

/-! ## `State.setCore` changes `cores` only -/

@[simp] theorem State.setCore_ctxs (s : State) (d : Fin 8) (n : Nat) (x : Core) : (s.setCore d n x).ctxs = s.ctxs := rfl
@[simp] theorem State.setCore_quads (s : State) (d : Fin 8) (n : Nat) (x : Core) : (s.setCore d n x).quads = s.quads := rfl
@[simp] theorem State.setCore_rings (s : State) (d : Fin 8) (n : Nat) (x : Core) : (s.setCore d n x).rings = s.rings := rfl
@[simp] theorem State.setCore_dies (s : State) (d : Fin 8) (n : Nat) (x : Core) : (s.setCore d n x).dies = s.dies := rfl
@[simp] theorem State.setCore_forks (s : State) (d : Fin 8) (n : Nat) (x : Core) : (s.setCore d n x).forks = s.forks := rfl
@[simp] theorem State.setCore_mem (s : State) (d : Fin 8) (n : Nat) (x : Core) : (s.setCore d n x).mem = s.mem := rfl
@[simp] theorem State.setCore_tags (s : State) (d : Fin 8) (n : Nat) (x : Core) : (s.setCore d n x).tags = s.tags := rfl
@[simp] theorem State.setCore_poison (s : State) (d : Fin 8) (n : Nat) (x : Core) : (s.setCore d n x).poison = s.poison := rfl
@[simp] theorem State.setCore_undo (s : State) (d : Fin 8) (n : Nat) (x : Core) : (s.setCore d n x).undo = s.undo := rfl
@[simp] theorem State.setCore_regions (s : State) (d : Fin 8) (n : Nat) (x : Core) : (s.setCore d n x).regions = s.regions := rfl
@[simp] theorem State.setCore_lines (s : State) (d : Fin 8) (n : Nat) (x : Core) : (s.setCore d n x).lines = s.lines := rfl
@[simp] theorem State.setCore_rngb (s : State) (d : Fin 8) (n : Nat) (x : Core) : (s.setCore d n x).rngb = s.rngb := rfl
@[simp] theorem State.setCore_rngl (s : State) (d : Fin 8) (n : Nat) (x : Core) : (s.setCore d n x).rngl = s.rngl := rfl
@[simp] theorem State.setCore_pendB (s : State) (d : Fin 8) (n : Nat) (x : Core) : (s.setCore d n x).pendB = s.pendB := rfl
@[simp] theorem State.setCore_pendL (s : State) (d : Fin 8) (n : Nat) (x : Core) : (s.setCore d n x).pendL = s.pendL := rfl
@[simp] theorem State.setCore_tgen (s : State) (d : Fin 8) (n : Nat) (x : Core) : (s.setCore d n x).tgen = s.tgen := rfl
@[simp] theorem State.setCore_commits (s : State) (d : Fin 8) (n : Nat) (x : Core) : (s.setCore d n x).commits = s.commits := rfl
@[simp] theorem State.setCore_bars (s : State) (d : Fin 8) (n : Nat) (x : Core) : (s.setCore d n x).bars = s.bars := rfl
@[simp] theorem State.setCore_net (s : State) (d : Fin 8) (n : Nat) (x : Core) : (s.setCore d n x).net = s.net := rfl
@[simp] theorem State.setCore_owners (s : State) (d : Fin 8) (n : Nat) (x : Core) : (s.setCore d n x).owners = s.owners := rfl
@[simp] theorem State.setCore_outs (s : State) (d : Fin 8) (n : Nat) (x : Core) : (s.setCore d n x).outs = s.outs := rfl
@[simp] theorem State.setCore_xoff (s : State) (d : Fin 8) (n : Nat) (x : Core) : (s.setCore d n x).xoff = s.xoff := rfl
@[simp] theorem State.setCore_parts (s : State) (d : Fin 8) (n : Nat) (x : Core) : (s.setCore d n x).parts = s.parts := rfl
@[simp] theorem State.setCore_domain (s : State) (d : Fin 8) (n : Nat) (x : Core) : (s.setCore d n x).domain = s.domain := rfl
@[simp] theorem State.setCore_hub (s : State) (d : Fin 8) (n : Nat) (x : Core) : (s.setCore d n x).hub = s.hub := rfl
@[simp] theorem State.setCore_time (s : State) (d : Fin 8) (n : Nat) (x : Core) : (s.setCore d n x).time = s.time := rfl
@[simp] theorem State.setCore_frames (s : State) (d : Fin 8) (n : Nat) (x : Core) : (s.setCore d n x).frames = s.frames := rfl
@[simp] theorem State.setCore_sweeps (s : State) (d : Fin 8) (n : Nat) (x : Core) : (s.setCore d n x).sweeps = s.sweeps := rfl
@[simp] theorem State.setCore_pkg (s : State) (d : Fin 8) (n : Nat) (x : Core) : (s.setCore d n x).pkg = s.pkg := rfl
@[simp] theorem State.setCore_cur (s : State) (d : Fin 8) (n : Nat) (x : Core) : (s.setCore d n x).cur = s.cur := rfl
@[simp] theorem State.setCore_turn (s : State) (d : Fin 8) (n : Nat) (x : Core) : (s.setCore d n x).turn = s.turn := rfl
@[simp] theorem State.setCore_agenda (s : State) (d : Fin 8) (n : Nat) (x : Core) : (s.setCore d n x).agenda = s.agenda := rfl
@[simp] theorem State.setCore_seq (s : State) (d : Fin 8) (n : Nat) (x : Core) : (s.setCore d n x).seq = s.seq := rfl
@[simp] theorem State.setCore_free (s : State) (d : Fin 8) (n : Nat) (x : Core) : (s.setCore d n x).free = s.free := rfl

/-! ## `State.setQuad` changes `quads` only -/

@[simp] theorem State.setQuad_ctxs (s : State) (d : Fin 8) (q : Nat) (x : Quad) : (s.setQuad d q x).ctxs = s.ctxs := rfl
@[simp] theorem State.setQuad_cores (s : State) (d : Fin 8) (q : Nat) (x : Quad) : (s.setQuad d q x).cores = s.cores := rfl
@[simp] theorem State.setQuad_rings (s : State) (d : Fin 8) (q : Nat) (x : Quad) : (s.setQuad d q x).rings = s.rings := rfl
@[simp] theorem State.setQuad_dies (s : State) (d : Fin 8) (q : Nat) (x : Quad) : (s.setQuad d q x).dies = s.dies := rfl
@[simp] theorem State.setQuad_forks (s : State) (d : Fin 8) (q : Nat) (x : Quad) : (s.setQuad d q x).forks = s.forks := rfl
@[simp] theorem State.setQuad_mem (s : State) (d : Fin 8) (q : Nat) (x : Quad) : (s.setQuad d q x).mem = s.mem := rfl
@[simp] theorem State.setQuad_tags (s : State) (d : Fin 8) (q : Nat) (x : Quad) : (s.setQuad d q x).tags = s.tags := rfl
@[simp] theorem State.setQuad_poison (s : State) (d : Fin 8) (q : Nat) (x : Quad) : (s.setQuad d q x).poison = s.poison := rfl
@[simp] theorem State.setQuad_undo (s : State) (d : Fin 8) (q : Nat) (x : Quad) : (s.setQuad d q x).undo = s.undo := rfl
@[simp] theorem State.setQuad_regions (s : State) (d : Fin 8) (q : Nat) (x : Quad) : (s.setQuad d q x).regions = s.regions := rfl
@[simp] theorem State.setQuad_lines (s : State) (d : Fin 8) (q : Nat) (x : Quad) : (s.setQuad d q x).lines = s.lines := rfl
@[simp] theorem State.setQuad_rngb (s : State) (d : Fin 8) (q : Nat) (x : Quad) : (s.setQuad d q x).rngb = s.rngb := rfl
@[simp] theorem State.setQuad_rngl (s : State) (d : Fin 8) (q : Nat) (x : Quad) : (s.setQuad d q x).rngl = s.rngl := rfl
@[simp] theorem State.setQuad_pendB (s : State) (d : Fin 8) (q : Nat) (x : Quad) : (s.setQuad d q x).pendB = s.pendB := rfl
@[simp] theorem State.setQuad_pendL (s : State) (d : Fin 8) (q : Nat) (x : Quad) : (s.setQuad d q x).pendL = s.pendL := rfl
@[simp] theorem State.setQuad_tgen (s : State) (d : Fin 8) (q : Nat) (x : Quad) : (s.setQuad d q x).tgen = s.tgen := rfl
@[simp] theorem State.setQuad_commits (s : State) (d : Fin 8) (q : Nat) (x : Quad) : (s.setQuad d q x).commits = s.commits := rfl
@[simp] theorem State.setQuad_bars (s : State) (d : Fin 8) (q : Nat) (x : Quad) : (s.setQuad d q x).bars = s.bars := rfl
@[simp] theorem State.setQuad_net (s : State) (d : Fin 8) (q : Nat) (x : Quad) : (s.setQuad d q x).net = s.net := rfl
@[simp] theorem State.setQuad_owners (s : State) (d : Fin 8) (q : Nat) (x : Quad) : (s.setQuad d q x).owners = s.owners := rfl
@[simp] theorem State.setQuad_outs (s : State) (d : Fin 8) (q : Nat) (x : Quad) : (s.setQuad d q x).outs = s.outs := rfl
@[simp] theorem State.setQuad_xoff (s : State) (d : Fin 8) (q : Nat) (x : Quad) : (s.setQuad d q x).xoff = s.xoff := rfl
@[simp] theorem State.setQuad_parts (s : State) (d : Fin 8) (q : Nat) (x : Quad) : (s.setQuad d q x).parts = s.parts := rfl
@[simp] theorem State.setQuad_domain (s : State) (d : Fin 8) (q : Nat) (x : Quad) : (s.setQuad d q x).domain = s.domain := rfl
@[simp] theorem State.setQuad_hub (s : State) (d : Fin 8) (q : Nat) (x : Quad) : (s.setQuad d q x).hub = s.hub := rfl
@[simp] theorem State.setQuad_time (s : State) (d : Fin 8) (q : Nat) (x : Quad) : (s.setQuad d q x).time = s.time := rfl
@[simp] theorem State.setQuad_frames (s : State) (d : Fin 8) (q : Nat) (x : Quad) : (s.setQuad d q x).frames = s.frames := rfl
@[simp] theorem State.setQuad_sweeps (s : State) (d : Fin 8) (q : Nat) (x : Quad) : (s.setQuad d q x).sweeps = s.sweeps := rfl
@[simp] theorem State.setQuad_pkg (s : State) (d : Fin 8) (q : Nat) (x : Quad) : (s.setQuad d q x).pkg = s.pkg := rfl
@[simp] theorem State.setQuad_cur (s : State) (d : Fin 8) (q : Nat) (x : Quad) : (s.setQuad d q x).cur = s.cur := rfl
@[simp] theorem State.setQuad_turn (s : State) (d : Fin 8) (q : Nat) (x : Quad) : (s.setQuad d q x).turn = s.turn := rfl
@[simp] theorem State.setQuad_agenda (s : State) (d : Fin 8) (q : Nat) (x : Quad) : (s.setQuad d q x).agenda = s.agenda := rfl
@[simp] theorem State.setQuad_seq (s : State) (d : Fin 8) (q : Nat) (x : Quad) : (s.setQuad d q x).seq = s.seq := rfl
@[simp] theorem State.setQuad_free (s : State) (d : Fin 8) (q : Nat) (x : Quad) : (s.setQuad d q x).free = s.free := rfl

/-! ## `State.setRing` changes `rings` only -/

@[simp] theorem State.setRing_ctxs (s : State) (d : Fin 8) (n : Nat) (x : Ring) : (s.setRing d n x).ctxs = s.ctxs := rfl
@[simp] theorem State.setRing_cores (s : State) (d : Fin 8) (n : Nat) (x : Ring) : (s.setRing d n x).cores = s.cores := rfl
@[simp] theorem State.setRing_quads (s : State) (d : Fin 8) (n : Nat) (x : Ring) : (s.setRing d n x).quads = s.quads := rfl
@[simp] theorem State.setRing_dies (s : State) (d : Fin 8) (n : Nat) (x : Ring) : (s.setRing d n x).dies = s.dies := rfl
@[simp] theorem State.setRing_forks (s : State) (d : Fin 8) (n : Nat) (x : Ring) : (s.setRing d n x).forks = s.forks := rfl
@[simp] theorem State.setRing_mem (s : State) (d : Fin 8) (n : Nat) (x : Ring) : (s.setRing d n x).mem = s.mem := rfl
@[simp] theorem State.setRing_tags (s : State) (d : Fin 8) (n : Nat) (x : Ring) : (s.setRing d n x).tags = s.tags := rfl
@[simp] theorem State.setRing_poison (s : State) (d : Fin 8) (n : Nat) (x : Ring) : (s.setRing d n x).poison = s.poison := rfl
@[simp] theorem State.setRing_undo (s : State) (d : Fin 8) (n : Nat) (x : Ring) : (s.setRing d n x).undo = s.undo := rfl
@[simp] theorem State.setRing_regions (s : State) (d : Fin 8) (n : Nat) (x : Ring) : (s.setRing d n x).regions = s.regions := rfl
@[simp] theorem State.setRing_lines (s : State) (d : Fin 8) (n : Nat) (x : Ring) : (s.setRing d n x).lines = s.lines := rfl
@[simp] theorem State.setRing_rngb (s : State) (d : Fin 8) (n : Nat) (x : Ring) : (s.setRing d n x).rngb = s.rngb := rfl
@[simp] theorem State.setRing_rngl (s : State) (d : Fin 8) (n : Nat) (x : Ring) : (s.setRing d n x).rngl = s.rngl := rfl
@[simp] theorem State.setRing_pendB (s : State) (d : Fin 8) (n : Nat) (x : Ring) : (s.setRing d n x).pendB = s.pendB := rfl
@[simp] theorem State.setRing_pendL (s : State) (d : Fin 8) (n : Nat) (x : Ring) : (s.setRing d n x).pendL = s.pendL := rfl
@[simp] theorem State.setRing_tgen (s : State) (d : Fin 8) (n : Nat) (x : Ring) : (s.setRing d n x).tgen = s.tgen := rfl
@[simp] theorem State.setRing_commits (s : State) (d : Fin 8) (n : Nat) (x : Ring) : (s.setRing d n x).commits = s.commits := rfl
@[simp] theorem State.setRing_bars (s : State) (d : Fin 8) (n : Nat) (x : Ring) : (s.setRing d n x).bars = s.bars := rfl
@[simp] theorem State.setRing_net (s : State) (d : Fin 8) (n : Nat) (x : Ring) : (s.setRing d n x).net = s.net := rfl
@[simp] theorem State.setRing_owners (s : State) (d : Fin 8) (n : Nat) (x : Ring) : (s.setRing d n x).owners = s.owners := rfl
@[simp] theorem State.setRing_outs (s : State) (d : Fin 8) (n : Nat) (x : Ring) : (s.setRing d n x).outs = s.outs := rfl
@[simp] theorem State.setRing_xoff (s : State) (d : Fin 8) (n : Nat) (x : Ring) : (s.setRing d n x).xoff = s.xoff := rfl
@[simp] theorem State.setRing_parts (s : State) (d : Fin 8) (n : Nat) (x : Ring) : (s.setRing d n x).parts = s.parts := rfl
@[simp] theorem State.setRing_domain (s : State) (d : Fin 8) (n : Nat) (x : Ring) : (s.setRing d n x).domain = s.domain := rfl
@[simp] theorem State.setRing_hub (s : State) (d : Fin 8) (n : Nat) (x : Ring) : (s.setRing d n x).hub = s.hub := rfl
@[simp] theorem State.setRing_time (s : State) (d : Fin 8) (n : Nat) (x : Ring) : (s.setRing d n x).time = s.time := rfl
@[simp] theorem State.setRing_frames (s : State) (d : Fin 8) (n : Nat) (x : Ring) : (s.setRing d n x).frames = s.frames := rfl
@[simp] theorem State.setRing_sweeps (s : State) (d : Fin 8) (n : Nat) (x : Ring) : (s.setRing d n x).sweeps = s.sweeps := rfl
@[simp] theorem State.setRing_pkg (s : State) (d : Fin 8) (n : Nat) (x : Ring) : (s.setRing d n x).pkg = s.pkg := rfl
@[simp] theorem State.setRing_cur (s : State) (d : Fin 8) (n : Nat) (x : Ring) : (s.setRing d n x).cur = s.cur := rfl
@[simp] theorem State.setRing_turn (s : State) (d : Fin 8) (n : Nat) (x : Ring) : (s.setRing d n x).turn = s.turn := rfl
@[simp] theorem State.setRing_agenda (s : State) (d : Fin 8) (n : Nat) (x : Ring) : (s.setRing d n x).agenda = s.agenda := rfl
@[simp] theorem State.setRing_seq (s : State) (d : Fin 8) (n : Nat) (x : Ring) : (s.setRing d n x).seq = s.seq := rfl
@[simp] theorem State.setRing_free (s : State) (d : Fin 8) (n : Nat) (x : Ring) : (s.setRing d n x).free = s.free := rfl

/-! ## `State.setRingOf` changes `rings` only -/

@[simp] theorem State.setRingOf_ctxs (s : State) (u : CtxId) (x : Ring) : (s.setRingOf u x).ctxs = s.ctxs := rfl
@[simp] theorem State.setRingOf_cores (s : State) (u : CtxId) (x : Ring) : (s.setRingOf u x).cores = s.cores := rfl
@[simp] theorem State.setRingOf_quads (s : State) (u : CtxId) (x : Ring) : (s.setRingOf u x).quads = s.quads := rfl
@[simp] theorem State.setRingOf_dies (s : State) (u : CtxId) (x : Ring) : (s.setRingOf u x).dies = s.dies := rfl
@[simp] theorem State.setRingOf_forks (s : State) (u : CtxId) (x : Ring) : (s.setRingOf u x).forks = s.forks := rfl
@[simp] theorem State.setRingOf_mem (s : State) (u : CtxId) (x : Ring) : (s.setRingOf u x).mem = s.mem := rfl
@[simp] theorem State.setRingOf_tags (s : State) (u : CtxId) (x : Ring) : (s.setRingOf u x).tags = s.tags := rfl
@[simp] theorem State.setRingOf_poison (s : State) (u : CtxId) (x : Ring) : (s.setRingOf u x).poison = s.poison := rfl
@[simp] theorem State.setRingOf_undo (s : State) (u : CtxId) (x : Ring) : (s.setRingOf u x).undo = s.undo := rfl
@[simp] theorem State.setRingOf_regions (s : State) (u : CtxId) (x : Ring) : (s.setRingOf u x).regions = s.regions := rfl
@[simp] theorem State.setRingOf_lines (s : State) (u : CtxId) (x : Ring) : (s.setRingOf u x).lines = s.lines := rfl
@[simp] theorem State.setRingOf_rngb (s : State) (u : CtxId) (x : Ring) : (s.setRingOf u x).rngb = s.rngb := rfl
@[simp] theorem State.setRingOf_rngl (s : State) (u : CtxId) (x : Ring) : (s.setRingOf u x).rngl = s.rngl := rfl
@[simp] theorem State.setRingOf_pendB (s : State) (u : CtxId) (x : Ring) : (s.setRingOf u x).pendB = s.pendB := rfl
@[simp] theorem State.setRingOf_pendL (s : State) (u : CtxId) (x : Ring) : (s.setRingOf u x).pendL = s.pendL := rfl
@[simp] theorem State.setRingOf_tgen (s : State) (u : CtxId) (x : Ring) : (s.setRingOf u x).tgen = s.tgen := rfl
@[simp] theorem State.setRingOf_commits (s : State) (u : CtxId) (x : Ring) : (s.setRingOf u x).commits = s.commits := rfl
@[simp] theorem State.setRingOf_bars (s : State) (u : CtxId) (x : Ring) : (s.setRingOf u x).bars = s.bars := rfl
@[simp] theorem State.setRingOf_net (s : State) (u : CtxId) (x : Ring) : (s.setRingOf u x).net = s.net := rfl
@[simp] theorem State.setRingOf_owners (s : State) (u : CtxId) (x : Ring) : (s.setRingOf u x).owners = s.owners := rfl
@[simp] theorem State.setRingOf_outs (s : State) (u : CtxId) (x : Ring) : (s.setRingOf u x).outs = s.outs := rfl
@[simp] theorem State.setRingOf_xoff (s : State) (u : CtxId) (x : Ring) : (s.setRingOf u x).xoff = s.xoff := rfl
@[simp] theorem State.setRingOf_parts (s : State) (u : CtxId) (x : Ring) : (s.setRingOf u x).parts = s.parts := rfl
@[simp] theorem State.setRingOf_domain (s : State) (u : CtxId) (x : Ring) : (s.setRingOf u x).domain = s.domain := rfl
@[simp] theorem State.setRingOf_hub (s : State) (u : CtxId) (x : Ring) : (s.setRingOf u x).hub = s.hub := rfl
@[simp] theorem State.setRingOf_time (s : State) (u : CtxId) (x : Ring) : (s.setRingOf u x).time = s.time := rfl
@[simp] theorem State.setRingOf_frames (s : State) (u : CtxId) (x : Ring) : (s.setRingOf u x).frames = s.frames := rfl
@[simp] theorem State.setRingOf_sweeps (s : State) (u : CtxId) (x : Ring) : (s.setRingOf u x).sweeps = s.sweeps := rfl
@[simp] theorem State.setRingOf_pkg (s : State) (u : CtxId) (x : Ring) : (s.setRingOf u x).pkg = s.pkg := rfl
@[simp] theorem State.setRingOf_cur (s : State) (u : CtxId) (x : Ring) : (s.setRingOf u x).cur = s.cur := rfl
@[simp] theorem State.setRingOf_turn (s : State) (u : CtxId) (x : Ring) : (s.setRingOf u x).turn = s.turn := rfl
@[simp] theorem State.setRingOf_agenda (s : State) (u : CtxId) (x : Ring) : (s.setRingOf u x).agenda = s.agenda := rfl
@[simp] theorem State.setRingOf_seq (s : State) (u : CtxId) (x : Ring) : (s.setRingOf u x).seq = s.seq := rfl
@[simp] theorem State.setRingOf_free (s : State) (u : CtxId) (x : Ring) : (s.setRingOf u x).free = s.free := rfl

/-! ## `State.setDie` changes `dies` only -/

@[simp] theorem State.setDie_ctxs (s : State) (d : Fin 8) (x : Die) : (s.setDie d x).ctxs = s.ctxs := rfl
@[simp] theorem State.setDie_cores (s : State) (d : Fin 8) (x : Die) : (s.setDie d x).cores = s.cores := rfl
@[simp] theorem State.setDie_quads (s : State) (d : Fin 8) (x : Die) : (s.setDie d x).quads = s.quads := rfl
@[simp] theorem State.setDie_rings (s : State) (d : Fin 8) (x : Die) : (s.setDie d x).rings = s.rings := rfl
@[simp] theorem State.setDie_forks (s : State) (d : Fin 8) (x : Die) : (s.setDie d x).forks = s.forks := rfl
@[simp] theorem State.setDie_mem (s : State) (d : Fin 8) (x : Die) : (s.setDie d x).mem = s.mem := rfl
@[simp] theorem State.setDie_tags (s : State) (d : Fin 8) (x : Die) : (s.setDie d x).tags = s.tags := rfl
@[simp] theorem State.setDie_poison (s : State) (d : Fin 8) (x : Die) : (s.setDie d x).poison = s.poison := rfl
@[simp] theorem State.setDie_undo (s : State) (d : Fin 8) (x : Die) : (s.setDie d x).undo = s.undo := rfl
@[simp] theorem State.setDie_regions (s : State) (d : Fin 8) (x : Die) : (s.setDie d x).regions = s.regions := rfl
@[simp] theorem State.setDie_lines (s : State) (d : Fin 8) (x : Die) : (s.setDie d x).lines = s.lines := rfl
@[simp] theorem State.setDie_rngb (s : State) (d : Fin 8) (x : Die) : (s.setDie d x).rngb = s.rngb := rfl
@[simp] theorem State.setDie_rngl (s : State) (d : Fin 8) (x : Die) : (s.setDie d x).rngl = s.rngl := rfl
@[simp] theorem State.setDie_pendB (s : State) (d : Fin 8) (x : Die) : (s.setDie d x).pendB = s.pendB := rfl
@[simp] theorem State.setDie_pendL (s : State) (d : Fin 8) (x : Die) : (s.setDie d x).pendL = s.pendL := rfl
@[simp] theorem State.setDie_tgen (s : State) (d : Fin 8) (x : Die) : (s.setDie d x).tgen = s.tgen := rfl
@[simp] theorem State.setDie_commits (s : State) (d : Fin 8) (x : Die) : (s.setDie d x).commits = s.commits := rfl
@[simp] theorem State.setDie_bars (s : State) (d : Fin 8) (x : Die) : (s.setDie d x).bars = s.bars := rfl
@[simp] theorem State.setDie_net (s : State) (d : Fin 8) (x : Die) : (s.setDie d x).net = s.net := rfl
@[simp] theorem State.setDie_owners (s : State) (d : Fin 8) (x : Die) : (s.setDie d x).owners = s.owners := rfl
@[simp] theorem State.setDie_outs (s : State) (d : Fin 8) (x : Die) : (s.setDie d x).outs = s.outs := rfl
@[simp] theorem State.setDie_xoff (s : State) (d : Fin 8) (x : Die) : (s.setDie d x).xoff = s.xoff := rfl
@[simp] theorem State.setDie_parts (s : State) (d : Fin 8) (x : Die) : (s.setDie d x).parts = s.parts := rfl
@[simp] theorem State.setDie_domain (s : State) (d : Fin 8) (x : Die) : (s.setDie d x).domain = s.domain := rfl
@[simp] theorem State.setDie_hub (s : State) (d : Fin 8) (x : Die) : (s.setDie d x).hub = s.hub := rfl
@[simp] theorem State.setDie_time (s : State) (d : Fin 8) (x : Die) : (s.setDie d x).time = s.time := rfl
@[simp] theorem State.setDie_frames (s : State) (d : Fin 8) (x : Die) : (s.setDie d x).frames = s.frames := rfl
@[simp] theorem State.setDie_sweeps (s : State) (d : Fin 8) (x : Die) : (s.setDie d x).sweeps = s.sweeps := rfl
@[simp] theorem State.setDie_pkg (s : State) (d : Fin 8) (x : Die) : (s.setDie d x).pkg = s.pkg := rfl
@[simp] theorem State.setDie_cur (s : State) (d : Fin 8) (x : Die) : (s.setDie d x).cur = s.cur := rfl
@[simp] theorem State.setDie_turn (s : State) (d : Fin 8) (x : Die) : (s.setDie d x).turn = s.turn := rfl
@[simp] theorem State.setDie_agenda (s : State) (d : Fin 8) (x : Die) : (s.setDie d x).agenda = s.agenda := rfl
@[simp] theorem State.setDie_seq (s : State) (d : Fin 8) (x : Die) : (s.setDie d x).seq = s.seq := rfl
@[simp] theorem State.setDie_free (s : State) (d : Fin 8) (x : Die) : (s.setDie d x).free = s.free := rfl

/-! ## `State.setFork` changes `forks` only -/

@[simp] theorem State.setFork_ctxs (s : State) (f : ForkId) (x : Fork) : (s.setFork f x).ctxs = s.ctxs := rfl
@[simp] theorem State.setFork_cores (s : State) (f : ForkId) (x : Fork) : (s.setFork f x).cores = s.cores := rfl
@[simp] theorem State.setFork_quads (s : State) (f : ForkId) (x : Fork) : (s.setFork f x).quads = s.quads := rfl
@[simp] theorem State.setFork_rings (s : State) (f : ForkId) (x : Fork) : (s.setFork f x).rings = s.rings := rfl
@[simp] theorem State.setFork_dies (s : State) (f : ForkId) (x : Fork) : (s.setFork f x).dies = s.dies := rfl
@[simp] theorem State.setFork_mem (s : State) (f : ForkId) (x : Fork) : (s.setFork f x).mem = s.mem := rfl
@[simp] theorem State.setFork_tags (s : State) (f : ForkId) (x : Fork) : (s.setFork f x).tags = s.tags := rfl
@[simp] theorem State.setFork_poison (s : State) (f : ForkId) (x : Fork) : (s.setFork f x).poison = s.poison := rfl
@[simp] theorem State.setFork_undo (s : State) (f : ForkId) (x : Fork) : (s.setFork f x).undo = s.undo := rfl
@[simp] theorem State.setFork_regions (s : State) (f : ForkId) (x : Fork) : (s.setFork f x).regions = s.regions := rfl
@[simp] theorem State.setFork_lines (s : State) (f : ForkId) (x : Fork) : (s.setFork f x).lines = s.lines := rfl
@[simp] theorem State.setFork_rngb (s : State) (f : ForkId) (x : Fork) : (s.setFork f x).rngb = s.rngb := rfl
@[simp] theorem State.setFork_rngl (s : State) (f : ForkId) (x : Fork) : (s.setFork f x).rngl = s.rngl := rfl
@[simp] theorem State.setFork_pendB (s : State) (f : ForkId) (x : Fork) : (s.setFork f x).pendB = s.pendB := rfl
@[simp] theorem State.setFork_pendL (s : State) (f : ForkId) (x : Fork) : (s.setFork f x).pendL = s.pendL := rfl
@[simp] theorem State.setFork_tgen (s : State) (f : ForkId) (x : Fork) : (s.setFork f x).tgen = s.tgen := rfl
@[simp] theorem State.setFork_commits (s : State) (f : ForkId) (x : Fork) : (s.setFork f x).commits = s.commits := rfl
@[simp] theorem State.setFork_bars (s : State) (f : ForkId) (x : Fork) : (s.setFork f x).bars = s.bars := rfl
@[simp] theorem State.setFork_net (s : State) (f : ForkId) (x : Fork) : (s.setFork f x).net = s.net := rfl
@[simp] theorem State.setFork_owners (s : State) (f : ForkId) (x : Fork) : (s.setFork f x).owners = s.owners := rfl
@[simp] theorem State.setFork_outs (s : State) (f : ForkId) (x : Fork) : (s.setFork f x).outs = s.outs := rfl
@[simp] theorem State.setFork_xoff (s : State) (f : ForkId) (x : Fork) : (s.setFork f x).xoff = s.xoff := rfl
@[simp] theorem State.setFork_parts (s : State) (f : ForkId) (x : Fork) : (s.setFork f x).parts = s.parts := rfl
@[simp] theorem State.setFork_domain (s : State) (f : ForkId) (x : Fork) : (s.setFork f x).domain = s.domain := rfl
@[simp] theorem State.setFork_hub (s : State) (f : ForkId) (x : Fork) : (s.setFork f x).hub = s.hub := rfl
@[simp] theorem State.setFork_time (s : State) (f : ForkId) (x : Fork) : (s.setFork f x).time = s.time := rfl
@[simp] theorem State.setFork_frames (s : State) (f : ForkId) (x : Fork) : (s.setFork f x).frames = s.frames := rfl
@[simp] theorem State.setFork_sweeps (s : State) (f : ForkId) (x : Fork) : (s.setFork f x).sweeps = s.sweeps := rfl
@[simp] theorem State.setFork_pkg (s : State) (f : ForkId) (x : Fork) : (s.setFork f x).pkg = s.pkg := rfl
@[simp] theorem State.setFork_cur (s : State) (f : ForkId) (x : Fork) : (s.setFork f x).cur = s.cur := rfl
@[simp] theorem State.setFork_turn (s : State) (f : ForkId) (x : Fork) : (s.setFork f x).turn = s.turn := rfl
@[simp] theorem State.setFork_agenda (s : State) (f : ForkId) (x : Fork) : (s.setFork f x).agenda = s.agenda := rfl
@[simp] theorem State.setFork_seq (s : State) (f : ForkId) (x : Fork) : (s.setFork f x).seq = s.seq := rfl
@[simp] theorem State.setFork_free (s : State) (f : ForkId) (x : Fork) : (s.setFork f x).free = s.free := rfl

/-! ## `State.dropFork` changes `forks` only -/

@[simp] theorem State.dropFork_ctxs (s : State) (f : ForkId) : (s.dropFork f).ctxs = s.ctxs := rfl
@[simp] theorem State.dropFork_cores (s : State) (f : ForkId) : (s.dropFork f).cores = s.cores := rfl
@[simp] theorem State.dropFork_quads (s : State) (f : ForkId) : (s.dropFork f).quads = s.quads := rfl
@[simp] theorem State.dropFork_rings (s : State) (f : ForkId) : (s.dropFork f).rings = s.rings := rfl
@[simp] theorem State.dropFork_dies (s : State) (f : ForkId) : (s.dropFork f).dies = s.dies := rfl
@[simp] theorem State.dropFork_mem (s : State) (f : ForkId) : (s.dropFork f).mem = s.mem := rfl
@[simp] theorem State.dropFork_tags (s : State) (f : ForkId) : (s.dropFork f).tags = s.tags := rfl
@[simp] theorem State.dropFork_poison (s : State) (f : ForkId) : (s.dropFork f).poison = s.poison := rfl
@[simp] theorem State.dropFork_undo (s : State) (f : ForkId) : (s.dropFork f).undo = s.undo := rfl
@[simp] theorem State.dropFork_regions (s : State) (f : ForkId) : (s.dropFork f).regions = s.regions := rfl
@[simp] theorem State.dropFork_lines (s : State) (f : ForkId) : (s.dropFork f).lines = s.lines := rfl
@[simp] theorem State.dropFork_rngb (s : State) (f : ForkId) : (s.dropFork f).rngb = s.rngb := rfl
@[simp] theorem State.dropFork_rngl (s : State) (f : ForkId) : (s.dropFork f).rngl = s.rngl := rfl
@[simp] theorem State.dropFork_pendB (s : State) (f : ForkId) : (s.dropFork f).pendB = s.pendB := rfl
@[simp] theorem State.dropFork_pendL (s : State) (f : ForkId) : (s.dropFork f).pendL = s.pendL := rfl
@[simp] theorem State.dropFork_tgen (s : State) (f : ForkId) : (s.dropFork f).tgen = s.tgen := rfl
@[simp] theorem State.dropFork_commits (s : State) (f : ForkId) : (s.dropFork f).commits = s.commits := rfl
@[simp] theorem State.dropFork_bars (s : State) (f : ForkId) : (s.dropFork f).bars = s.bars := rfl
@[simp] theorem State.dropFork_net (s : State) (f : ForkId) : (s.dropFork f).net = s.net := rfl
@[simp] theorem State.dropFork_owners (s : State) (f : ForkId) : (s.dropFork f).owners = s.owners := rfl
@[simp] theorem State.dropFork_outs (s : State) (f : ForkId) : (s.dropFork f).outs = s.outs := rfl
@[simp] theorem State.dropFork_xoff (s : State) (f : ForkId) : (s.dropFork f).xoff = s.xoff := rfl
@[simp] theorem State.dropFork_parts (s : State) (f : ForkId) : (s.dropFork f).parts = s.parts := rfl
@[simp] theorem State.dropFork_domain (s : State) (f : ForkId) : (s.dropFork f).domain = s.domain := rfl
@[simp] theorem State.dropFork_hub (s : State) (f : ForkId) : (s.dropFork f).hub = s.hub := rfl
@[simp] theorem State.dropFork_time (s : State) (f : ForkId) : (s.dropFork f).time = s.time := rfl
@[simp] theorem State.dropFork_frames (s : State) (f : ForkId) : (s.dropFork f).frames = s.frames := rfl
@[simp] theorem State.dropFork_sweeps (s : State) (f : ForkId) : (s.dropFork f).sweeps = s.sweeps := rfl
@[simp] theorem State.dropFork_pkg (s : State) (f : ForkId) : (s.dropFork f).pkg = s.pkg := rfl
@[simp] theorem State.dropFork_cur (s : State) (f : ForkId) : (s.dropFork f).cur = s.cur := rfl
@[simp] theorem State.dropFork_turn (s : State) (f : ForkId) : (s.dropFork f).turn = s.turn := rfl
@[simp] theorem State.dropFork_agenda (s : State) (f : ForkId) : (s.dropFork f).agenda = s.agenda := rfl
@[simp] theorem State.dropFork_seq (s : State) (f : ForkId) : (s.dropFork f).seq = s.seq := rfl
@[simp] theorem State.dropFork_free (s : State) (f : ForkId) : (s.dropFork f).free = s.free := rfl

/-! ## `State.setPart` changes `parts` only -/

@[simp] theorem State.setPart_ctxs (s : State) (p : Nat) (x : Part) : (s.setPart p x).ctxs = s.ctxs := rfl
@[simp] theorem State.setPart_cores (s : State) (p : Nat) (x : Part) : (s.setPart p x).cores = s.cores := rfl
@[simp] theorem State.setPart_quads (s : State) (p : Nat) (x : Part) : (s.setPart p x).quads = s.quads := rfl
@[simp] theorem State.setPart_rings (s : State) (p : Nat) (x : Part) : (s.setPart p x).rings = s.rings := rfl
@[simp] theorem State.setPart_dies (s : State) (p : Nat) (x : Part) : (s.setPart p x).dies = s.dies := rfl
@[simp] theorem State.setPart_forks (s : State) (p : Nat) (x : Part) : (s.setPart p x).forks = s.forks := rfl
@[simp] theorem State.setPart_mem (s : State) (p : Nat) (x : Part) : (s.setPart p x).mem = s.mem := rfl
@[simp] theorem State.setPart_tags (s : State) (p : Nat) (x : Part) : (s.setPart p x).tags = s.tags := rfl
@[simp] theorem State.setPart_poison (s : State) (p : Nat) (x : Part) : (s.setPart p x).poison = s.poison := rfl
@[simp] theorem State.setPart_undo (s : State) (p : Nat) (x : Part) : (s.setPart p x).undo = s.undo := rfl
@[simp] theorem State.setPart_regions (s : State) (p : Nat) (x : Part) : (s.setPart p x).regions = s.regions := rfl
@[simp] theorem State.setPart_lines (s : State) (p : Nat) (x : Part) : (s.setPart p x).lines = s.lines := rfl
@[simp] theorem State.setPart_rngb (s : State) (p : Nat) (x : Part) : (s.setPart p x).rngb = s.rngb := rfl
@[simp] theorem State.setPart_rngl (s : State) (p : Nat) (x : Part) : (s.setPart p x).rngl = s.rngl := rfl
@[simp] theorem State.setPart_pendB (s : State) (p : Nat) (x : Part) : (s.setPart p x).pendB = s.pendB := rfl
@[simp] theorem State.setPart_pendL (s : State) (p : Nat) (x : Part) : (s.setPart p x).pendL = s.pendL := rfl
@[simp] theorem State.setPart_tgen (s : State) (p : Nat) (x : Part) : (s.setPart p x).tgen = s.tgen := rfl
@[simp] theorem State.setPart_commits (s : State) (p : Nat) (x : Part) : (s.setPart p x).commits = s.commits := rfl
@[simp] theorem State.setPart_bars (s : State) (p : Nat) (x : Part) : (s.setPart p x).bars = s.bars := rfl
@[simp] theorem State.setPart_net (s : State) (p : Nat) (x : Part) : (s.setPart p x).net = s.net := rfl
@[simp] theorem State.setPart_owners (s : State) (p : Nat) (x : Part) : (s.setPart p x).owners = s.owners := rfl
@[simp] theorem State.setPart_outs (s : State) (p : Nat) (x : Part) : (s.setPart p x).outs = s.outs := rfl
@[simp] theorem State.setPart_xoff (s : State) (p : Nat) (x : Part) : (s.setPart p x).xoff = s.xoff := rfl
@[simp] theorem State.setPart_domain (s : State) (p : Nat) (x : Part) : (s.setPart p x).domain = s.domain := rfl
@[simp] theorem State.setPart_hub (s : State) (p : Nat) (x : Part) : (s.setPart p x).hub = s.hub := rfl
@[simp] theorem State.setPart_time (s : State) (p : Nat) (x : Part) : (s.setPart p x).time = s.time := rfl
@[simp] theorem State.setPart_frames (s : State) (p : Nat) (x : Part) : (s.setPart p x).frames = s.frames := rfl
@[simp] theorem State.setPart_sweeps (s : State) (p : Nat) (x : Part) : (s.setPart p x).sweeps = s.sweeps := rfl
@[simp] theorem State.setPart_pkg (s : State) (p : Nat) (x : Part) : (s.setPart p x).pkg = s.pkg := rfl
@[simp] theorem State.setPart_cur (s : State) (p : Nat) (x : Part) : (s.setPart p x).cur = s.cur := rfl
@[simp] theorem State.setPart_turn (s : State) (p : Nat) (x : Part) : (s.setPart p x).turn = s.turn := rfl
@[simp] theorem State.setPart_agenda (s : State) (p : Nat) (x : Part) : (s.setPart p x).agenda = s.agenda := rfl
@[simp] theorem State.setPart_seq (s : State) (p : Nat) (x : Part) : (s.setPart p x).seq = s.seq := rfl
@[simp] theorem State.setPart_free (s : State) (p : Nat) (x : Part) : (s.setPart p x).free = s.free := rfl

/-! ## `State.retire` changes `ctxs` only -/

@[simp] theorem State.retire_cores (s : State) (d : BitVec 5) (v : Word) : (s.retire d v).cores = s.cores := rfl
@[simp] theorem State.retire_quads (s : State) (d : BitVec 5) (v : Word) : (s.retire d v).quads = s.quads := rfl
@[simp] theorem State.retire_rings (s : State) (d : BitVec 5) (v : Word) : (s.retire d v).rings = s.rings := rfl
@[simp] theorem State.retire_dies (s : State) (d : BitVec 5) (v : Word) : (s.retire d v).dies = s.dies := rfl
@[simp] theorem State.retire_forks (s : State) (d : BitVec 5) (v : Word) : (s.retire d v).forks = s.forks := rfl
@[simp] theorem State.retire_mem (s : State) (d : BitVec 5) (v : Word) : (s.retire d v).mem = s.mem := rfl
@[simp] theorem State.retire_tags (s : State) (d : BitVec 5) (v : Word) : (s.retire d v).tags = s.tags := rfl
@[simp] theorem State.retire_poison (s : State) (d : BitVec 5) (v : Word) : (s.retire d v).poison = s.poison := rfl
@[simp] theorem State.retire_undo (s : State) (d : BitVec 5) (v : Word) : (s.retire d v).undo = s.undo := rfl
@[simp] theorem State.retire_regions (s : State) (d : BitVec 5) (v : Word) : (s.retire d v).regions = s.regions := rfl
@[simp] theorem State.retire_lines (s : State) (d : BitVec 5) (v : Word) : (s.retire d v).lines = s.lines := rfl
@[simp] theorem State.retire_rngb (s : State) (d : BitVec 5) (v : Word) : (s.retire d v).rngb = s.rngb := rfl
@[simp] theorem State.retire_rngl (s : State) (d : BitVec 5) (v : Word) : (s.retire d v).rngl = s.rngl := rfl
@[simp] theorem State.retire_pendB (s : State) (d : BitVec 5) (v : Word) : (s.retire d v).pendB = s.pendB := rfl
@[simp] theorem State.retire_pendL (s : State) (d : BitVec 5) (v : Word) : (s.retire d v).pendL = s.pendL := rfl
@[simp] theorem State.retire_tgen (s : State) (d : BitVec 5) (v : Word) : (s.retire d v).tgen = s.tgen := rfl
@[simp] theorem State.retire_commits (s : State) (d : BitVec 5) (v : Word) : (s.retire d v).commits = s.commits := rfl
@[simp] theorem State.retire_bars (s : State) (d : BitVec 5) (v : Word) : (s.retire d v).bars = s.bars := rfl
@[simp] theorem State.retire_net (s : State) (d : BitVec 5) (v : Word) : (s.retire d v).net = s.net := rfl
@[simp] theorem State.retire_owners (s : State) (d : BitVec 5) (v : Word) : (s.retire d v).owners = s.owners := rfl
@[simp] theorem State.retire_outs (s : State) (d : BitVec 5) (v : Word) : (s.retire d v).outs = s.outs := rfl
@[simp] theorem State.retire_xoff (s : State) (d : BitVec 5) (v : Word) : (s.retire d v).xoff = s.xoff := rfl
@[simp] theorem State.retire_parts (s : State) (d : BitVec 5) (v : Word) : (s.retire d v).parts = s.parts := rfl
@[simp] theorem State.retire_domain (s : State) (d : BitVec 5) (v : Word) : (s.retire d v).domain = s.domain := rfl
@[simp] theorem State.retire_hub (s : State) (d : BitVec 5) (v : Word) : (s.retire d v).hub = s.hub := rfl
@[simp] theorem State.retire_time (s : State) (d : BitVec 5) (v : Word) : (s.retire d v).time = s.time := rfl
@[simp] theorem State.retire_frames (s : State) (d : BitVec 5) (v : Word) : (s.retire d v).frames = s.frames := rfl
@[simp] theorem State.retire_sweeps (s : State) (d : BitVec 5) (v : Word) : (s.retire d v).sweeps = s.sweeps := rfl
@[simp] theorem State.retire_pkg (s : State) (d : BitVec 5) (v : Word) : (s.retire d v).pkg = s.pkg := rfl
@[simp] theorem State.retire_cur (s : State) (d : BitVec 5) (v : Word) : (s.retire d v).cur = s.cur := rfl
@[simp] theorem State.retire_turn (s : State) (d : BitVec 5) (v : Word) : (s.retire d v).turn = s.turn := rfl
@[simp] theorem State.retire_agenda (s : State) (d : BitVec 5) (v : Word) : (s.retire d v).agenda = s.agenda := rfl
@[simp] theorem State.retire_seq (s : State) (d : BitVec 5) (v : Word) : (s.retire d v).seq = s.seq := rfl
@[simp] theorem State.retire_free (s : State) (d : BitVec 5) (v : Word) : (s.retire d v).free = s.free := rfl

/-! ## `State.advance` changes `ctxs` only -/

@[simp] theorem State.advance_cores (s : State) : s.advance.cores = s.cores := rfl
@[simp] theorem State.advance_quads (s : State) : s.advance.quads = s.quads := rfl
@[simp] theorem State.advance_rings (s : State) : s.advance.rings = s.rings := rfl
@[simp] theorem State.advance_dies (s : State) : s.advance.dies = s.dies := rfl
@[simp] theorem State.advance_forks (s : State) : s.advance.forks = s.forks := rfl
@[simp] theorem State.advance_mem (s : State) : s.advance.mem = s.mem := rfl
@[simp] theorem State.advance_tags (s : State) : s.advance.tags = s.tags := rfl
@[simp] theorem State.advance_poison (s : State) : s.advance.poison = s.poison := rfl
@[simp] theorem State.advance_undo (s : State) : s.advance.undo = s.undo := rfl
@[simp] theorem State.advance_regions (s : State) : s.advance.regions = s.regions := rfl
@[simp] theorem State.advance_lines (s : State) : s.advance.lines = s.lines := rfl
@[simp] theorem State.advance_rngb (s : State) : s.advance.rngb = s.rngb := rfl
@[simp] theorem State.advance_rngl (s : State) : s.advance.rngl = s.rngl := rfl
@[simp] theorem State.advance_pendB (s : State) : s.advance.pendB = s.pendB := rfl
@[simp] theorem State.advance_pendL (s : State) : s.advance.pendL = s.pendL := rfl
@[simp] theorem State.advance_tgen (s : State) : s.advance.tgen = s.tgen := rfl
@[simp] theorem State.advance_commits (s : State) : s.advance.commits = s.commits := rfl
@[simp] theorem State.advance_bars (s : State) : s.advance.bars = s.bars := rfl
@[simp] theorem State.advance_net (s : State) : s.advance.net = s.net := rfl
@[simp] theorem State.advance_owners (s : State) : s.advance.owners = s.owners := rfl
@[simp] theorem State.advance_outs (s : State) : s.advance.outs = s.outs := rfl
@[simp] theorem State.advance_xoff (s : State) : s.advance.xoff = s.xoff := rfl
@[simp] theorem State.advance_parts (s : State) : s.advance.parts = s.parts := rfl
@[simp] theorem State.advance_domain (s : State) : s.advance.domain = s.domain := rfl
@[simp] theorem State.advance_hub (s : State) : s.advance.hub = s.hub := rfl
@[simp] theorem State.advance_time (s : State) : s.advance.time = s.time := rfl
@[simp] theorem State.advance_frames (s : State) : s.advance.frames = s.frames := rfl
@[simp] theorem State.advance_sweeps (s : State) : s.advance.sweeps = s.sweeps := rfl
@[simp] theorem State.advance_pkg (s : State) : s.advance.pkg = s.pkg := rfl
@[simp] theorem State.advance_cur (s : State) : s.advance.cur = s.cur := rfl
@[simp] theorem State.advance_turn (s : State) : s.advance.turn = s.turn := rfl
@[simp] theorem State.advance_agenda (s : State) : s.advance.agenda = s.agenda := rfl
@[simp] theorem State.advance_seq (s : State) : s.advance.seq = s.seq := rfl
@[simp] theorem State.advance_free (s : State) : s.advance.free = s.free := rfl

/-! ## `State.jump` changes `ctxs` only -/

@[simp] theorem State.jump_cores (s : State) (pc : Word) : (s.jump pc).cores = s.cores := rfl
@[simp] theorem State.jump_quads (s : State) (pc : Word) : (s.jump pc).quads = s.quads := rfl
@[simp] theorem State.jump_rings (s : State) (pc : Word) : (s.jump pc).rings = s.rings := rfl
@[simp] theorem State.jump_dies (s : State) (pc : Word) : (s.jump pc).dies = s.dies := rfl
@[simp] theorem State.jump_forks (s : State) (pc : Word) : (s.jump pc).forks = s.forks := rfl
@[simp] theorem State.jump_mem (s : State) (pc : Word) : (s.jump pc).mem = s.mem := rfl
@[simp] theorem State.jump_tags (s : State) (pc : Word) : (s.jump pc).tags = s.tags := rfl
@[simp] theorem State.jump_poison (s : State) (pc : Word) : (s.jump pc).poison = s.poison := rfl
@[simp] theorem State.jump_undo (s : State) (pc : Word) : (s.jump pc).undo = s.undo := rfl
@[simp] theorem State.jump_regions (s : State) (pc : Word) : (s.jump pc).regions = s.regions := rfl
@[simp] theorem State.jump_lines (s : State) (pc : Word) : (s.jump pc).lines = s.lines := rfl
@[simp] theorem State.jump_rngb (s : State) (pc : Word) : (s.jump pc).rngb = s.rngb := rfl
@[simp] theorem State.jump_rngl (s : State) (pc : Word) : (s.jump pc).rngl = s.rngl := rfl
@[simp] theorem State.jump_pendB (s : State) (pc : Word) : (s.jump pc).pendB = s.pendB := rfl
@[simp] theorem State.jump_pendL (s : State) (pc : Word) : (s.jump pc).pendL = s.pendL := rfl
@[simp] theorem State.jump_tgen (s : State) (pc : Word) : (s.jump pc).tgen = s.tgen := rfl
@[simp] theorem State.jump_commits (s : State) (pc : Word) : (s.jump pc).commits = s.commits := rfl
@[simp] theorem State.jump_bars (s : State) (pc : Word) : (s.jump pc).bars = s.bars := rfl
@[simp] theorem State.jump_net (s : State) (pc : Word) : (s.jump pc).net = s.net := rfl
@[simp] theorem State.jump_owners (s : State) (pc : Word) : (s.jump pc).owners = s.owners := rfl
@[simp] theorem State.jump_outs (s : State) (pc : Word) : (s.jump pc).outs = s.outs := rfl
@[simp] theorem State.jump_xoff (s : State) (pc : Word) : (s.jump pc).xoff = s.xoff := rfl
@[simp] theorem State.jump_parts (s : State) (pc : Word) : (s.jump pc).parts = s.parts := rfl
@[simp] theorem State.jump_domain (s : State) (pc : Word) : (s.jump pc).domain = s.domain := rfl
@[simp] theorem State.jump_hub (s : State) (pc : Word) : (s.jump pc).hub = s.hub := rfl
@[simp] theorem State.jump_time (s : State) (pc : Word) : (s.jump pc).time = s.time := rfl
@[simp] theorem State.jump_frames (s : State) (pc : Word) : (s.jump pc).frames = s.frames := rfl
@[simp] theorem State.jump_sweeps (s : State) (pc : Word) : (s.jump pc).sweeps = s.sweeps := rfl
@[simp] theorem State.jump_pkg (s : State) (pc : Word) : (s.jump pc).pkg = s.pkg := rfl
@[simp] theorem State.jump_cur (s : State) (pc : Word) : (s.jump pc).cur = s.cur := rfl
@[simp] theorem State.jump_turn (s : State) (pc : Word) : (s.jump pc).turn = s.turn := rfl
@[simp] theorem State.jump_agenda (s : State) (pc : Word) : (s.jump pc).agenda = s.agenda := rfl
@[simp] theorem State.jump_seq (s : State) (pc : Word) : (s.jump pc).seq = s.seq := rfl
@[simp] theorem State.jump_free (s : State) (pc : Word) : (s.jump pc).free = s.free := rfl

/-! ## `State.hold` changes `ctxs` only -/

@[simp] theorem State.hold_cores (s : State) (k : WaitKind) : (s.hold k).cores = s.cores := rfl
@[simp] theorem State.hold_quads (s : State) (k : WaitKind) : (s.hold k).quads = s.quads := rfl
@[simp] theorem State.hold_rings (s : State) (k : WaitKind) : (s.hold k).rings = s.rings := rfl
@[simp] theorem State.hold_dies (s : State) (k : WaitKind) : (s.hold k).dies = s.dies := rfl
@[simp] theorem State.hold_forks (s : State) (k : WaitKind) : (s.hold k).forks = s.forks := rfl
@[simp] theorem State.hold_mem (s : State) (k : WaitKind) : (s.hold k).mem = s.mem := rfl
@[simp] theorem State.hold_tags (s : State) (k : WaitKind) : (s.hold k).tags = s.tags := rfl
@[simp] theorem State.hold_poison (s : State) (k : WaitKind) : (s.hold k).poison = s.poison := rfl
@[simp] theorem State.hold_undo (s : State) (k : WaitKind) : (s.hold k).undo = s.undo := rfl
@[simp] theorem State.hold_regions (s : State) (k : WaitKind) : (s.hold k).regions = s.regions := rfl
@[simp] theorem State.hold_lines (s : State) (k : WaitKind) : (s.hold k).lines = s.lines := rfl
@[simp] theorem State.hold_rngb (s : State) (k : WaitKind) : (s.hold k).rngb = s.rngb := rfl
@[simp] theorem State.hold_rngl (s : State) (k : WaitKind) : (s.hold k).rngl = s.rngl := rfl
@[simp] theorem State.hold_pendB (s : State) (k : WaitKind) : (s.hold k).pendB = s.pendB := rfl
@[simp] theorem State.hold_pendL (s : State) (k : WaitKind) : (s.hold k).pendL = s.pendL := rfl
@[simp] theorem State.hold_tgen (s : State) (k : WaitKind) : (s.hold k).tgen = s.tgen := rfl
@[simp] theorem State.hold_commits (s : State) (k : WaitKind) : (s.hold k).commits = s.commits := rfl
@[simp] theorem State.hold_bars (s : State) (k : WaitKind) : (s.hold k).bars = s.bars := rfl
@[simp] theorem State.hold_net (s : State) (k : WaitKind) : (s.hold k).net = s.net := rfl
@[simp] theorem State.hold_owners (s : State) (k : WaitKind) : (s.hold k).owners = s.owners := rfl
@[simp] theorem State.hold_outs (s : State) (k : WaitKind) : (s.hold k).outs = s.outs := rfl
@[simp] theorem State.hold_xoff (s : State) (k : WaitKind) : (s.hold k).xoff = s.xoff := rfl
@[simp] theorem State.hold_parts (s : State) (k : WaitKind) : (s.hold k).parts = s.parts := rfl
@[simp] theorem State.hold_domain (s : State) (k : WaitKind) : (s.hold k).domain = s.domain := rfl
@[simp] theorem State.hold_hub (s : State) (k : WaitKind) : (s.hold k).hub = s.hub := rfl
@[simp] theorem State.hold_time (s : State) (k : WaitKind) : (s.hold k).time = s.time := rfl
@[simp] theorem State.hold_frames (s : State) (k : WaitKind) : (s.hold k).frames = s.frames := rfl
@[simp] theorem State.hold_sweeps (s : State) (k : WaitKind) : (s.hold k).sweeps = s.sweeps := rfl
@[simp] theorem State.hold_pkg (s : State) (k : WaitKind) : (s.hold k).pkg = s.pkg := rfl
@[simp] theorem State.hold_cur (s : State) (k : WaitKind) : (s.hold k).cur = s.cur := rfl
@[simp] theorem State.hold_turn (s : State) (k : WaitKind) : (s.hold k).turn = s.turn := rfl
@[simp] theorem State.hold_agenda (s : State) (k : WaitKind) : (s.hold k).agenda = s.agenda := rfl
@[simp] theorem State.hold_seq (s : State) (k : WaitKind) : (s.hold k).seq = s.seq := rfl
@[simp] theorem State.hold_free (s : State) (k : WaitKind) : (s.hold k).free = s.free := rfl

end Sys2Proof.Machine
end

