-- ==== Sys2Proof/Laws/Tables.lean ====
section
/-! SUPPORT. Reading a table after writing it, and with it reading a context, a core, a quad, a ring, a die, a fork or a
partition after an update. -/

namespace Sys2Proof.Machine

@[simp] theorem Table.find_put_self {α : Type} (t : Table α) (i : Nat) (v : α) : Table.find (Table.put t i v) i = some v := by
  induction t with
  | nil => simp [Table.put, Table.find]
  | cons p t ih =>
    obtain ⟨k, w⟩ := p
    simp only [Table.put]
    split
    · next h => simp [Table.find, h]
    · split
      · simp [Table.find]
      · next h1 h2 => simp [Table.find, h1, h2, ih]

theorem Table.find_put_ne {α : Type} (t : Table α) (i j : Nat) (v : α) (h : j ≠ i) : Table.find (Table.put t i v) j = Table.find t j := by
  induction t with
  | nil => simp [Table.put, Table.find, h]
  | cons p t ih =>
    obtain ⟨k, w⟩ := p
    simp only [Table.put]
    split
    · next hk => subst hk; simp [Table.find, h]
    · split
      · next h1 h2 =>
        by_cases hj : j < i
        · simp only [Table.find, h, hj, if_true, if_false]
          rw [if_neg (by omega), if_pos (by omega)]
        · simp [Table.find, h, hj]
      · next h1 h2 => simp only [Table.find, ih]

@[simp] theorem Table.getD_put_self {α : Type} (t : Table α) (i : Nat) (v d : α) : Table.getD (Table.put t i v) i d = v := by
  simp [Table.getD]

theorem Table.getD_put_ne {α : Type} (t : Table α) (i j : Nat) (v d : α) (h : j ≠ i) :
    Table.getD (Table.put t i v) j d = Table.getD t j d := by simp [Table.getD, Table.find_put_ne t i j v h]

@[simp] theorem Table.put_put {α : Type} (t : Table α) (i : Nat) (v w : α) : Table.put (Table.put t i v) i w = Table.put t i w := by
  induction t with
  | nil => simp [Table.put]
  | cons p t ih =>
    obtain ⟨k, x⟩ := p
    simp only [Table.put]
    split
    · next h => simp [Table.put, h]
    · split
      · simp [Table.put]
      · next h1 h2 => simp [Table.put, h1, h2, ih]

theorem CtxId.key_inj (u v : CtxId) (h : u.key = v.key) : u = v := by
  obtain ⟨d, n, k⟩ := u
  obtain ⟨d', n', k'⟩ := v
  simp only [CtxId.key] at h
  have := d.isLt; have := n.isLt; have := k.isLt; have := d'.isLt; have := n'.isLt; have := k'.isLt
  have h1 : d = d' := by ext; omega
  have h2 : n = n' := by ext; omega
  have h3 : k = k' := by ext; omega
  rw [h1, h2, h3]

/-! ## Contexts -/

@[simp] theorem State.ctx_setCtx (s : State) (u : CtxId) (c : Ctx) : (s.setCtx u c).ctx u = c := by
  simp [State.ctx, State.setCtx]

theorem State.ctx_setCtx_ne (s : State) (u v : CtxId) (c : Ctx) (h : v ≠ u) : (s.setCtx u c).ctx v = s.ctx v := by
  simp only [State.ctx, State.setCtx]
  exact Table.getD_put_ne _ _ _ _ _ (fun e => h (CtxId.key_inj _ _ e))

@[simp] theorem State.setCtx_setCtx (s : State) (u : CtxId) (c d : Ctx) : (s.setCtx u c).setCtx u d = s.setCtx u d := by
  simp [State.setCtx]

@[simp] theorem State.ctx_updCtx (s : State) (u : CtxId) (f : Ctx → Ctx) : (s.updCtx u f).ctx u = f (s.ctx u) := by
  simp [State.updCtx]

theorem State.ctx_updCtx_ne (s : State) (u v : CtxId) (f : Ctx → Ctx) (h : v ≠ u) : (s.updCtx u f).ctx v = s.ctx v :=
  s.ctx_setCtx_ne u v _ h

@[simp] theorem State.me_upd (s : State) (f : Ctx → Ctx) : (s.upd f).me = f s.me := by simp [State.me, State.upd]

@[simp] theorem State.me_setCtx (s : State) (c : Ctx) : (s.setCtx s.cur c).me = c := by simp [State.me]

theorem State.upd_eq (s : State) (f : Ctx → Ctx) : s.upd f = s.setCtx s.cur (f s.me) := rfl

theorem State.updCtx_eq (s : State) (u : CtxId) (f : Ctx → Ctx) : s.updCtx u f = s.setCtx u (f (s.ctx u)) := rfl

@[simp] theorem State.upd_upd (s : State) (f g : Ctx → Ctx) : (s.upd f).upd g = s.upd (fun c => g (f c)) := by
  simp [State.upd, State.updCtx]

/-! ## Updates of the other tables leave the contexts -/

@[simp] theorem State.setCore_ctx (s : State) (d : Fin 8) (n : Nat) (x : Core) (u : CtxId) : (s.setCore d n x).ctx u = s.ctx u := rfl
@[simp] theorem State.setQuad_ctx (s : State) (d : Fin 8) (q : Nat) (x : Quad) (u : CtxId) : (s.setQuad d q x).ctx u = s.ctx u := rfl
@[simp] theorem State.setRing_ctx (s : State) (d : Fin 8) (n : Nat) (x : Ring) (u : CtxId) : (s.setRing d n x).ctx u = s.ctx u := rfl
@[simp] theorem State.setRingOf_ctx (s : State) (v : CtxId) (x : Ring) (u : CtxId) : (s.setRingOf v x).ctx u = s.ctx u := rfl
@[simp] theorem State.setDie_ctx (s : State) (d : Fin 8) (x : Die) (u : CtxId) : (s.setDie d x).ctx u = s.ctx u := rfl
@[simp] theorem State.setFork_ctx (s : State) (f : ForkId) (x : Fork) (u : CtxId) : (s.setFork f x).ctx u = s.ctx u := rfl
@[simp] theorem State.dropFork_ctx (s : State) (f : ForkId) (u : CtxId) : (s.dropFork f).ctx u = s.ctx u := rfl
@[simp] theorem State.setPart_ctx (s : State) (p : Nat) (x : Part) (u : CtxId) : (s.setPart p x).ctx u = s.ctx u := rfl

/-! ## Cores, quads, rings, dies -/

@[simp] theorem State.core_setCore (s : State) (d : Fin 8) (n : Nat) (x : Core) : (s.setCore d n x).core d n = x := by
  simp [State.core, State.setCore]

@[simp] theorem State.quad_setQuad (s : State) (d : Fin 8) (q : Nat) (x : Quad) : (s.setQuad d q x).quad d q = x := by
  simp [State.quad, State.setQuad]

@[simp] theorem State.die_setDie (s : State) (d : Fin 8) (x : Die) : (s.setDie d x).die d = x := by
  simp [State.die, State.setDie]

theorem State.die_setDie_ne (s : State) (d e : Fin 8) (x : Die) (h : e ≠ d) : (s.setDie d x).die e = s.die e := by
  simp only [State.die, State.setDie]
  rw [Vector.getElem_set_ne]
  exact fun k => h (Fin.ext k.symm)

@[simp] theorem State.fork_setFork (s : State) (f : ForkId) (x : Fork) : (s.setFork f x).fork f = some x := by
  simp [State.fork, State.setFork]

@[simp] theorem State.part_setPart (s : State) (p : Nat) (x : Part) : (s.setPart p x).part p = x := by
  simp [State.part, State.setPart]

/-! ## Registers of a context -/

@[simp] theorem Ctx.setX_zero (c : Ctx) (v : Word) : c.setX 0 v = c := rfl

theorem Ctx.x_zero (c : Ctx) : c.x 0 = 0 := rfl

theorem Ctx.x_setX (c : Ctx) (d r : BitVec 5) (v : Word) :
    (c.setX d v).x r = if r = 0 then 0 else if r = d then v else c.x r := by
  unfold Ctx.setX Ctx.x
  by_cases hr : r = 0
  · simp [hr]
  by_cases hd : d = 0
  · subst hd; simp only [if_true]; rw [if_neg hr, if_neg hr, if_neg hr]
  · simp only [hr, hd, if_false]
    by_cases h : r = d
    · subst h; simp
    · rw [Vector.getElem_set_ne]
      · simp [h]
      · intro e; exact h (BitVec.eq_of_toNat_eq e.symm)

@[simp] theorem Ctx.setX_pc (c : Ctx) (d : BitVec 5) (v : Word) : (c.setX d v).pc = c.pc := by unfold Ctx.setX; split <;> rfl
@[simp] theorem Ctx.setX_csr (c : Ctx) (d : BitVec 5) (v : Word) : (c.setX d v).csr = c.csr := by unfold Ctx.setX; split <;> rfl
@[simp] theorem Ctx.setX_sup (c : Ctx) (d : BitVec 5) (v : Word) : (c.setX d v).sup = c.sup := by unfold Ctx.setX; split <;> rfl
@[simp] theorem Ctx.setX_wait (c : Ctx) (d : BitVec 5) (v : Word) : (c.setX d v).wait = c.wait := by unfold Ctx.setX; split <;> rfl
@[simp] theorem Ctx.setX_rin (c : Ctx) (d : BitVec 5) (v : Word) : (c.setX d v).rin = c.rin := by unfold Ctx.setX; split <;> rfl
@[simp] theorem Ctx.setX_vregs (c : Ctx) (d : BitVec 5) (v : Word) : (c.setX d v).vregs = c.vregs := by unfold Ctx.setX; split <;> rfl
@[simp] theorem Ctx.setX_masks (c : Ctx) (d : BitVec 5) (v : Word) : (c.setX d v).masks = c.masks := by unfold Ctx.setX; split <;> rfl
@[simp] theorem Ctx.advance_pc (c : Ctx) : c.advance.pc = c.pc + 4 := rfl
@[simp] theorem Ctx.advance_regs (c : Ctx) : c.advance.regs = c.regs := rfl
@[simp] theorem Ctx.advance_x (c : Ctx) (r : BitVec 5) : c.advance.x r = c.x r := rfl
@[simp] theorem Ctx.advance_csr (c : Ctx) : c.advance.csr = c.csr := rfl

theorem State.retire_eq (s : State) (d : BitVec 5) (v : Word) : s.retire d v = s.setCtx s.cur ((s.me.setX d v).advance) := rfl

end Sys2Proof.Machine
end

