-- ==== Sys2Proof/Laws/Memory.lean ====
section
/-! SUPPORT. Memory as a list of cells: every operation keeps the canonical form, and a read after a write. -/

namespace Sys2Proof.Machine

/-! ## The canonical form -/

theorem memFrom_cons (lo k : Nat) (b : Byte) (m : List Host.Cell) :
    memFrom lo ((k, b) :: m) = true ↔ lo ≤ k ∧ b ≠ 0 ∧ memFrom (k + 1) m = true := by
  simp only [memFrom, Bool.and_eq_true, decide_eq_true_eq, and_assoc]

theorem memFrom_mono (m : List Host.Cell) (lo hi : Nat) (h : lo ≤ hi) (hm : memFrom hi m = true) : memFrom lo m = true := by
  cases m with
  | nil => rfl
  | cons c m =>
    rw [memFrom_cons] at hm ⊢
    exact ⟨Nat.le_trans h hm.1, hm.2⟩

theorem memSet_from (m : List Host.Cell) (lo a : Nat) (v : Byte) (h : lo ≤ a) (hm : memFrom lo m = true) :
    memFrom lo (memSet m a v) = true := by
  induction m generalizing lo with
  | nil =>
    simp only [memSet]
    split
    · rfl
    · next hv => exact (memFrom_cons _ _ _ _).mpr ⟨h, hv, rfl⟩
  | cons c m ih =>
    obtain ⟨k, b⟩ := c
    obtain ⟨hk, hb, ht⟩ := (memFrom_cons _ _ _ _).mp hm
    simp only [memSet]
    split
    · next e =>
      subst e
      split
      · exact memFrom_mono _ _ _ (Nat.le_succ_of_le hk) ht
      · next hv => exact (memFrom_cons _ _ _ _).mpr ⟨hk, hv, ht⟩
    · split
      · next hne hlt =>
        split
        · exact hm
        · next hv => exact (memFrom_cons _ _ _ _).mpr ⟨h, hv, (memFrom_cons _ _ _ _).mpr ⟨hlt, hb, ht⟩⟩
      · next hne hge => exact (memFrom_cons _ _ _ _).mpr ⟨hk, hb, ih (k + 1) (by omega) ht⟩

theorem memSet_wf (m : List Host.Cell) (a : Nat) (v : Byte) (hm : Memory.wf m = true) : Memory.wf (memSet m a v) = true :=
  memSet_from m 0 a v (Nat.zero_le a) hm

theorem memWrite_wf (m : List Host.Cell) (a : Nat) (bs : List Byte) (hm : Memory.wf m = true) : Memory.wf (memWrite m a bs) = true := by
  induction bs generalizing m a with
  | nil => exact hm
  | cons b bs ih => exact ih _ _ (memSet_wf m a b hm)

theorem memClear_from (m : List Host.Cell) (lo a n : Nat) (hm : memFrom lo m = true) : memFrom lo (memClear m a n) = true := by
  induction m generalizing lo with
  | nil => rfl
  | cons c m ih =>
    simp only [memFrom, Bool.and_eq_true, decide_eq_true_eq] at hm
    obtain ⟨⟨hk, hb⟩, ht⟩ := hm
    have h1 := ih _ ht
    simp only [memClear, List.filter_cons]
    split
    · simp only [memFrom, Bool.and_eq_true, decide_eq_true_eq]
      exact ⟨⟨hk, hb⟩, h1⟩
    · exact memFrom_mono _ _ _ (Nat.le_succ_of_le hk) h1

theorem memClear_wf (m : List Host.Cell) (a n : Nat) (hm : Memory.wf m = true) : Memory.wf (memClear m a n) = true :=
  memClear_from m 0 a n hm

theorem reset_memory_wf : Memory.wf State.reset.mem = true := rfl

theorem reset_memsWf : State.reset.memsWf = true := rfl

/-! ## A read after a write -/

theorem memGet_below (m : List Host.Cell) (lo a : Nat) (h : a < lo) (hm : memFrom lo m = true) : memGet m a = 0 := by
  cases m with
  | nil => rfl
  | cons c m =>
    obtain ⟨k, b⟩ := c
    simp only [memFrom, Bool.and_eq_true, decide_eq_true_eq] at hm
    simp only [memGet]
    rw [if_neg (by omega), if_pos (by omega)]

theorem memGet_memSet_from (m : List Host.Cell) (lo a b : Nat) (v : Byte) (hm : memFrom lo m = true) :
    memGet (memSet m a v) b = if b = a then v else memGet m b := by
  induction m generalizing lo with
  | nil =>
    simp only [memSet]
    split
    · next hv => split <;> simp only [memGet, hv]
    · simp only [memGet, ite_self]
  | cons c m ih =>
    obtain ⟨k, w⟩ := c
    simp only [memFrom, Bool.and_eq_true, decide_eq_true_eq] at hm
    obtain ⟨⟨hk, hw⟩, ht⟩ := hm
    have hlow : ∀ x, x < k + 1 → memGet m x = 0 := fun x hx => memGet_below m (k + 1) x hx ht
    simp only [memSet]
    split
    · next e =>
      subst e
      by_cases hb : b = a
      · subst hb
        rw [if_pos rfl]
        split
        · next hv => rw [hlow b (Nat.lt_succ_self b), hv]
        · simp only [memGet, if_true]
      · by_cases hlt : b < a
        · split <;> simp [memGet, hb, hlt, hlow b (by omega)]
        · split <;> simp [memGet, hb, hlt]
    · split
      · next hne hlt =>
        by_cases hb : b = a
        · subst hb
          rw [if_pos rfl]
          split
          · next hv => simp only [memGet, hne, hlt, hv, if_true, if_false]
          · simp only [memGet, if_true]
        · split
          · simp
          · by_cases h2 : b < a
            · have h3 : b ≠ k := by omega
              have h4 : b < k := by omega
              simp [memGet, hb, h2, h3, h4]
            · simp [memGet, hb, h2]
      · next hne hge =>
        have hi := ih (k + 1) ht
        by_cases hb : b = a
        · subst hb
          have h4 : ¬ b < k := by omega
          simp [memGet, hne, h4, hi]
        · simp only [memGet, hi, if_neg hb]

/-- The byte written is the byte read; every other byte is as before. -/
theorem memGet_memSet (m : List Host.Cell) (a b : Nat) (v : Byte) (hm : Memory.wf m = true) :
    memGet (memSet m a v) b = if b = a then v else memGet m b := memGet_memSet_from m 0 a b v hm

/-- After a write the bytes written are read, and every other byte is as before. -/
theorem memGet_memWrite (m : List Host.Cell) (a b : Nat) (bs : List Byte) (hm : Memory.wf m = true) :
    memGet (memWrite m a bs) b = if a ≤ b ∧ b < a + bs.length then bs.getD (b - a) 0 else memGet m b := by
  induction bs generalizing m a with
  | nil =>
    have h3 : ¬ (a ≤ b ∧ b < a + ([] : List Byte).length) := by simp only [List.length_nil]; omega
    rw [if_neg h3, memWrite]
  | cons x bs ih =>
    rw [memWrite, ih _ _ (memSet_wf m a x hm), memGet_memSet m a b x hm]
    by_cases h1 : b = a
    · subst h1
      have h3 : ¬ b + 1 ≤ b := by omega
      simp [h3]
    · by_cases h2 : a ≤ b ∧ b < a + (x :: bs).length
      · have h3 : a + 1 ≤ b ∧ b < a + 1 + bs.length := by simp only [List.length_cons] at h2; omega
        have h4 : b - a = (b - (a + 1)) + 1 := by omega
        rw [if_pos h3, if_pos h2, h4, List.getD_cons_succ]
      · have h3 : ¬ (a + 1 ≤ b ∧ b < a + 1 + bs.length) := by simp only [List.length_cons] at h2; omega
        rw [if_neg h3, if_neg h2, if_neg h1]

theorem memRead_length (m : List Host.Cell) (a n : Nat) : (memRead m a n).length = n := by
  induction n generalizing a with
  | zero => rfl
  | succ n ih => simp [memRead, ih]

theorem memRead_getD (m : List Host.Cell) (a n i : Nat) (h : i < n) : (memRead m a n).getD i 0 = memGet m (a + i) := by
  induction n generalizing a i with
  | zero => omega
  | succ n ih =>
    cases i with
    | zero => simp [memRead]
    | succ i =>
      rw [memRead, List.getD_cons_succ, ih _ _ (by omega)]
      congr 1
      omega

/-- Clearing a span makes its bytes read as zero and leaves the others. -/
theorem memGet_memClear_from (m : List Host.Cell) (lo a n b : Nat) (hm : memFrom lo m = true) :
    memGet (memClear m a n) b = if a ≤ b ∧ b < a + n then 0 else memGet m b := by
  induction m generalizing lo with
  | nil => simp [memClear, memGet]
  | cons c m ih =>
    obtain ⟨k, w⟩ := c
    simp only [memFrom, Bool.and_eq_true, decide_eq_true_eq] at hm
    obtain ⟨⟨hk, hw⟩, ht⟩ := hm
    have hi := ih (k + 1) ht
    have hlow : ∀ x, x < k + 1 → memGet (memClear m a n) x = 0 := fun x hx =>
      memGet_below _ (k + 1) x hx (memClear_from m (k + 1) a n ht)
    have hcons : memClear ((k, w) :: m) a n = if k < a ∨ a + n ≤ k then (k, w) :: memClear m a n else memClear m a n := by
      simp [memClear, List.filter_cons]
    rw [hcons]
    by_cases hout : k < a ∨ a + n ≤ k
    · rw [if_pos hout]
      by_cases hb : b = k
      · subst hb
        have h3 : ¬ (a ≤ b ∧ b < a + n) := by omega
        simp [memGet, h3]
      · by_cases hlt : b < k
        · simp [memGet, hb, hlt]
        · simp [memGet, hb, hlt, hi]
    · rw [if_neg hout]
      by_cases hb : b = k
      · subst hb
        have h3 : a ≤ b ∧ b < a + n := by omega
        simp [h3, hlow b (Nat.lt_succ_self b)]
      · by_cases hlt : b < k
        · rw [hlow b (by omega)]
          simp [memGet, hb, hlt]
        · simp [memGet, hb, hlt, hi]

theorem memGet_memClear (m : List Host.Cell) (a n b : Nat) (hm : Memory.wf m = true) :
    memGet (memClear m a n) b = if a ≤ b ∧ b < a + n then 0 else memGet m b := memGet_memClear_from m 0 a n b hm

/-! ## Which updates of State leave its memories -/

theorem State.memsWf_setCtx (s : State) (u : CtxId) (c : Ctx) : (s.setCtx u c).memsWf = s.memsWf := rfl
theorem State.memsWf_setQuad (s : State) (d : Fin 8) (q : Nat) (x : Quad) : (s.setQuad d q x).memsWf = s.memsWf := rfl
theorem State.memsWf_setRing (s : State) (d : Fin 8) (q : Nat) (x : Ring) : (s.setRing d q x).memsWf = s.memsWf := rfl
theorem State.memsWf_setDie (s : State) (d : Fin 8) (x : Die) : (s.setDie d x).memsWf = s.memsWf := rfl
theorem State.memsWf_setFork (s : State) (f : ForkId) (x : Fork) : (s.setFork f x).memsWf = s.memsWf := rfl
theorem State.memsWf_dropFork (s : State) (f : ForkId) : (s.dropFork f).memsWf = s.memsWf := rfl
theorem State.memsWf_setPart (s : State) (p : Nat) (x : Part) : (s.setPart p x).memsWf = s.memsWf := rfl

theorem Table.all_put {α : Type} (t : Table α) (i : Nat) (v : α) (p : α → Bool) (ht : t.all (fun kc => p kc.2) = true)
    (hv : p v = true) : (Table.put t i v).all (fun kc => p kc.2) = true := by
  induction t with
  | nil => simp [Table.put, hv]
  | cons c t ih =>
    obtain ⟨k, w⟩ := c
    simp only [List.all_cons, Bool.and_eq_true] at ht
    simp only [Table.put]
    split
    · simp only [List.all_cons, Bool.and_eq_true]; exact ⟨hv, ht.2⟩
    · split
      · simp only [List.all_cons, Bool.and_eq_true]; exact ⟨hv, ht.1, ht.2⟩
      · simp only [List.all_cons, Bool.and_eq_true]; exact ⟨ht.1, ih ht.2⟩

/-- A unit's update keeps the canonical form when its ISTORE does. -/
theorem State.memsWf_setCore (s : State) (d : Fin 8) (n : Nat) (x : Core) (h : s.memsWf = true) (hx : Memory.wf x.istore = true) :
    (s.setCore d n x).memsWf = true := by
  simp only [State.memsWf, Bool.and_eq_true] at h ⊢
  exact ⟨⟨h.1.1, Table.all_put _ _ _ (fun c : Core => Memory.wf c.istore) h.1.2 hx⟩, h.2⟩

end Sys2Proof.Machine
end

