-- ==== Sys2Proof/Laws/Ops.lean ====
section
/-! SUPPORT. For each shared operation what it does, said once: which fields of State it can change, and its result where no
chunk and no trap is in the way. -/

namespace Sys2Proof.Machine

/-! ## How an instruction ends -/

theorem State.advance_eq (s : State) : s.advance = s.setCtx s.cur s.me.advance := rfl

theorem State.jump_eq (s : State) (pc : Word) : s.jump pc = s.setCtx s.cur { s.me with
    pc := pc
    wait := none } := rfl

theorem State.hold_eq (s : State) (k : WaitKind) : s.hold k = s.setCtx s.cur { s.me with
    wait := some k
    blocked := if s.me.wait = some k then s.me.blocked else s.time } := rfl

theorem State.retire_frame (s : State) (d : BitVec 5) (v : Word) : s.retire d v = { s with ctxs := (s.retire d v).ctxs } := rfl

/-- The PC advances, the destination takes the value unless it is s0, every other register stands. -/
theorem State.retire_me (s : State) (d r : BitVec 5) (v : Word) :
    (s.retire d v).me.pc = s.me.pc + 4 ∧ (s.retire d v).me.x r = if r = 0 then 0 else if r = d then v else s.me.x r := by
  rw [State.retire_eq, State.me_setCtx]
  exact ⟨by simp, by rw [Ctx.advance_x, Ctx.x_setX]⟩

/-! ## Flags, counters, energy -/

@[simp] theorem Ctx.orF_pc (c : Ctx) (f : Flags) : (c.orF f).pc = c.pc := rfl
@[simp] theorem Ctx.orF_regs (c : Ctx) (f : Flags) : (c.orF f).regs = c.regs := rfl
@[simp] theorem Ctx.orF_fflg (c : Ctx) (f : Flags) : (c.orF f).csr.fflg = c.csr.fflg ||| f := rfl
@[simp] theorem Ctx.orV_vflg (c : Ctx) (f : Flags) : (c.orV f).csr.vflg = c.csr.vflg ||| f := rfl
@[simp] theorem Ctx.orV_fflg (c : Ctx) (f : Flags) : (c.orV f).csr.fflg = c.csr.fflg := rfl

theorem Ctx.count_frame (c : Ctx) (n amount : Nat) : c.count n amount = { c with csr := { c.csr with pmc := (c.count n amount).csr.pmc } } := by
  unfold Ctx.count
  split <;> rfl

theorem Ctx.count_off (c : Ctx) (n amount : Nat) (h : c.counting = false) : c.count n amount = c := by
  simp [Ctx.count, h]

theorem State.debit_frame (s : State) (u : CtxId) (n : Nat) : s.debit u n = { s with
    ctxs := (s.debit u n).ctxs
    rings := (s.debit u n).rings } := rfl

theorem State.debit_ring (s : State) (u : CtxId) (n : Nat) :
    (s.debit u n).ringOf u = { s.ringOf u with ealw := max (-(2 ^ 31)) ((s.ringOf u).ealw - n) } := by
  exact Table.getD_put_self _ _ _ _

theorem State.debit_ctx (s : State) (u : CtxId) (n : Nat) : (s.debit u n).ctx u = (s.ctx u).count 13 n := by
  simp [State.debit]

theorem State.debit_ctx_ne (s : State) (u v : CtxId) (n : Nat) (h : v ≠ u) : (s.debit u n).ctx v = s.ctx v := by
  simp [State.debit, State.ctx_updCtx_ne _ _ _ _ h]

/-! ## Error records and halting -/

theorem State.writeError_frame (s : State) (e : ErrInfo) : s.writeError e = { s with hub := (s.writeError e).hub } := by
  unfold State.writeError
  simp only
  split
  · rfl
  · split
    · rfl
    · split <;> rfl

@[simp] theorem State.writeError_ctx (s : State) (e : ErrInfo) (u : CtxId) : (s.writeError e).ctx u = s.ctx u := by
  rw [State.writeError_frame]
  rfl

@[simp] theorem State.writeError_mem (s : State) (e : ErrInfo) : (s.writeError e).mem = s.mem := by rw [State.writeError_frame]

/-- A record finds room while fewer than 8,192 stand unconsumed (R389). -/
theorem State.writeError_room (s : State) (e : ErrInfo) (h : s.hub.errhead - s.hub.errack < 8192) :
    s.writeError e = { s with hub := { s.hub with
      errors := Table.put s.hub.errors (s.hub.errhead.toNat % 8192) (s.errRecord e s.hub.errhead)
      errhead := s.hub.errhead + 1 } } := by
  unfold State.writeError
  rw [if_pos h]

theorem State.halt_frame (s : State) (u : CtxId) (cause : BitVec 8) (val pc : Word) : s.halt u cause val pc = { s with
    ctxs := (s.halt u cause val pc).ctxs
    hub := (s.halt u cause val pc).hub } := by
  unfold State.halt
  rw [State.writeError_frame]
  rfl

@[simp] theorem State.halt_ctx (s : State) (u : CtxId) (cause : BitVec 8) (val pc : Word) :
    (s.halt u cause val pc).ctx u = { s.ctx u with
      status := .halted
      wait := none } := by
  simp [State.halt]

/-! ## Outside a fork -/

theorem State.sewThrough_plain (s : State) (u : CtxId) (h : (s.ctx u).chunk = none) : s.sewThrough u = s := by
  simp [State.sewThrough, h]

theorem State.basted_plain (s : State) (u : CtxId) (h : (s.ctx u).chunk = none) : s.basted u = false := by
  simp [State.basted, h]

theorem State.maySew_plain (s : State) (u : CtxId) (h : (s.ctx u).chunk = none) : s.maySew u = true := by
  simp [State.maySew, h]

theorem State.ownFork_plain (s : State) (u : CtxId) (h : (s.ctx u).chunk = none) : s.ownFork u = none := by
  simp [State.ownFork, h]

theorem State.threadCtx_plain (s : State) (u : CtxId) (h : (s.ctx u).chunk = none) : s.threadCtx u = u := by
  simp [State.threadCtx, h]

theorem State.irrevocably_plain (s : State) (f : State → State) (h : s.me.chunk = none) : s.irrevocably f = f s := by
  have h' : (s.ctx s.cur).chunk = none := h
  simp [State.irrevocably, s.basted_plain _ h', s.maySew_plain _ h', s.sewThrough_plain _ h']

/-! ## Taking an exception and returning (R358-R363) -/

theorem State.enter_target (c : Csrs) (b : Bool) :
    ((c.trapv.setWidth 64 : Word) * 256 + (if b then 0x100 else 0)).toNat = c.trapv.toNat * 256 + if b then 256 else 0 := by
  have := c.trapv.isLt
  cases b
  · simp [BitVec.toNat_mul, BitVec.toNat_setWidth]; omega
  · simp [BitVec.toNat_add, BitVec.toNat_mul, BitVec.toNat_setWidth]; omega

/-- Trap entry of a context outside a fork, with a handler inside its ISTORE. -/
theorem State.enter_plain (s : State) (u : CtxId) (interrupt deferred : Bool) (cause : BitVec 8) (val p epx : Word)
    (h : (s.ctx u).chunk = none) (hx : interrupt = true ∨ (s.ctx u).csr.exl = false)
    (ht : ((s.ctx u).csr.trapv.setWidth 64 * 256 + (if interrupt then 0x100 else 0) : Word).toNat < istoreSize u.unit.val) :
    s.enter u interrupt deferred cause val p epx = s.setCtx u { (s.ctx u).count 15 1 with
      sup := true
      pc := (s.ctx u).csr.trapv.setWidth 64 * 256 + (if interrupt then 0x100 else 0)
      epx := epx
      rst := 0
      wait := none
      evld := none
      watch := []
      woken := false
      joinFirst := false
      prior := 0
      csr := { ((s.ctx u).count 15 1).csr with
        xpc := p
        tcause := cause.setWidth 10 ||| (if interrupt then 0x100 else 0) ||| (if deferred then 0x200 else 0)
        tval := val
        plvl := (s.ctx u).sup
        pie := (s.ctx u).csr.ie
        ie := false
        exl := true } } := by
  have h1 : (!interrupt && (s.ctx u).csr.exl) = false := by
    rcases hx with hx | hx <;> simp [hx]
  unfold State.enter
  simp only [s.sewThrough_plain u h, h1, Bool.false_eq_true, if_false]
  rw [if_neg (by omega)]

/-- A synchronous trap with EXL set halts the thread (R361). -/
theorem State.enter_exl (s : State) (u : CtxId) (deferred : Bool) (cause : BitVec 8) (val p epx : Word)
    (h : (s.ctx u).chunk = none) (hx : (s.ctx u).csr.exl = true) :
    s.enter u false deferred cause val p epx = s.halt u cause val p := by
  unfold State.enter
  simp [s.sewThrough_plain u h, hx]

theorem State.raise_plain (s : State) (cause : BitVec 8) (val : Word) (h : s.me.chunk = none) :
    s.raise cause val = s.enter s.cur false false cause val s.me.pc 0 := by
  unfold State.raise State.raiseEpx
  rw [s.basted_plain _ h]
  rfl

/-- A return whose XPC is an instruction address (R363). -/
theorem State.eret_ok (s : State) (rst : Word) (h4 : s.me.csr.xpc.toNat % 4 = 0) (hr : s.me.csr.xpc.toNat < istoreSize s.cur.unit.val) :
    s.eret rst = s.setCtx s.cur { s.me with
      sup := s.me.csr.plvl
      pc := s.me.csr.xpc
      epx := 0
      rst := rst
      joinFirst := s.joinLabel = some s.me.csr.xpc
      wait := none
      prior := 0
      csr := { s.me.csr with
        ie := s.me.csr.pie
        exl := false } } := by
  unfold State.eret
  simp only [h4, not_true, if_false, ne_eq]
  rw [if_neg (by omega)]
  rfl

/-! ## Accesses outside a fork -/

/-- A read of memory without poison gives the bytes and marks the region; nothing else changes. -/
theorem State.readPa_plain (s : State) (pa n : Nat) (h : s.me.chunk = none) (hp : s.isPoisoned pa n = false) :
    s.readPa pa n = .ok (memRead s.mem pa n) (s.touchRegion s.cur.die.val pa false) := by
  unfold State.readPa
  simp only [h, hp, Bool.false_eq_true, if_false]

theorem State.touchRegion_frame (s : State) (d pa : Nat) (w : Bool) :
    s.touchRegion d pa w = { s with regions := (s.touchRegion d pa w).regions } := by
  unfold State.touchRegion
  split <;> rfl

theorem State.touchRange_frame (s : State) (d pa n : Nat) (w : Bool) :
    s.touchRange d pa n w = { s with regions := (s.touchRange d pa n w).regions } := by
  have go : ∀ (l : List Nat) (t : State), l.foldl (fun t i => t.touchRegion d ((pa / 2 ^ 21 + i) * 2 ^ 21) w) t = { t with
      regions := (l.foldl (fun t i => t.touchRegion d ((pa / 2 ^ 21 + i) * 2 ^ 21) w) t).regions } := by
    intro l
    induction l with
    | nil => intro t; rfl
    | cons i l ih => intro t; rw [List.foldl_cons, ih, t.touchRegion_frame]
  exact go _ s

theorem State.writePa_plain (s : State) (pa : Nat) (bs : List Byte) (h : s.me.chunk = none) (hl : s.mayLog s.me.rin pa bs.length = true) :
    s.writePa pa bs = .ok () (s.storeMine pa bs) := by
  unfold State.writePa
  simp only [h, hl, if_true]

theorem State.logSector_frame (s : State) (rin : BitVec 32) (sec : Nat) : s.logSector rin sec = { s with
    undo := (s.logSector rin sec).undo
    dies := (s.logSector rin sec).dies
    tags := (s.logSector rin sec).tags } := by
  unfold State.logSector
  split
  · rfl
  · simp only
    split <;> rfl

theorem State.logSector_mem (s : State) (rin : BitVec 32) (sec : Nat) : (s.logSector rin sec).mem = s.mem := by
  rw [State.logSector_frame]

theorem State.foldl_mem (l : List Nat) (s : State) (f : State → Nat → State) (hf : ∀ t i, (f t i).mem = t.mem) :
    (l.foldl f s).mem = s.mem := by
  induction l generalizing s with
  | nil => rfl
  | cons i l ih => rw [List.foldl_cons, ih, hf]

theorem State.logRange_mem (s : State) (rin : BitVec 32) (pa n : Nat) : (s.logRange rin pa n).mem = s.mem :=
  State.foldl_mem _ s _ (fun t i => t.logSector_mem rin i)

/-- A performed write leaves exactly the written bytes in memory. -/
theorem State.storeRaw_mem (s : State) (own : Option Nat) (rin : BitVec 32) (pa : Nat) (bs : List Byte) :
    (s.storeRaw own rin pa bs).mem = memWrite s.mem pa bs := by
  rw [← s.logRange_mem rin pa bs.length]
  rfl

theorem State.store_mem (s : State) (own : Option Nat) (rin : BitVec 32) (pa : Nat) (bs : List Byte) :
    (s.store own rin pa bs).mem = memWrite s.mem pa bs := by
  rw [← s.logRange_mem rin pa bs.length]
  rfl

/-! ## The seal gate (R321) -/

theorem State.sealGate_open (s : State) (f : State → State) (h : s.me.sealing = false) : s.sealGate f = f s := by
  simp [State.sealGate, h]

/-! ## A vector instruction (R142, R349) -/

theorem State.pushEvent_frame (s : State) (d : Fin 8) (x : Nat) (e : BitVec 64) :
    s.pushEvent d x e = { s with cores := (s.pushEvent d x e).cores } := by
  unfold State.pushEvent
  simp only
  split <;> rfl

theorem State.emitEvents_frame (s : State) (d : Fin 8) (x : Nat) (e : BitVec 64) :
    State.emitEvents d x s e = { s with cores := (State.emitEvents d x s e).cores } := by
  unfold State.emitEvents
  simp only
  split
  · rw [State.pushEvent_frame, s.pushEvent_frame]; rfl
  · rw [State.pushEvent_frame]; rfl

theorem State.emitAll_frame (d : Fin 8) (x : Nat) (evs : List (BitVec 64)) (s : State) :
    evs.foldl (State.emitEvents d x) s = { s with cores := (evs.foldl (State.emitEvents d x) s).cores } := by
  induction evs generalizing s with
  | nil => rfl
  | cons e evs ih =>
    rw [List.foldl_cons, ih, s.emitEvents_frame d x e]

/-- Groups that enter are counted and debited and emit events; nothing else changes (R349, R379). -/
theorem State.venter_frame (s : State) (n : VNote) (cost : Nat → Nat) (upto : Option (Word × Option Nat)) :
    s.venter n cost upto = { s with
      ctxs := (s.venter n cost upto).ctxs
      cores := (s.venter n cost upto).cores
      rings := (s.venter n cost upto).rings } := by
  unfold State.venter
  simp only
  rw [State.emitAll_frame]
  rfl

/-- A trace number is the core's (R377). -/
theorem State.takeNumber_frame (s : State) : s.takeNumber = { s with cores := s.takeNumber.cores } := by
  unfold State.takeNumber
  simp only
  split <;> rfl

theorem State.vstopped_frame (s : State) (n : VNote) (p : Word) : s.vstopped n p = { s with
    ctxs := (s.vstopped n p).ctxs
    cores := (s.vstopped n p).cores
    rings := (s.vstopped n p).rings } := by
  unfold State.vstopped
  simp only
  rw [State.takeNumber_frame, State.emitAll_frame, State.venter_frame]

theorem State.vdoneWith_frame (s : State) (n : VNote) (cost : Nat → Nat) : s.vdoneWith n cost = { s with
    ctxs := (s.vdoneWith n cost).ctxs
    cores := (s.vdoneWith n cost).cores
    rings := (s.vdoneWith n cost).rings } := by
  unfold State.vdoneWith
  simp only
  split
  · split
    · rfl
    · rw [State.vstopped_frame]; rfl
  · rw [State.takeNumber_frame, State.venter_frame]; rfl

/-! ## Free values -/

theorem State.fresh_frame (s : State) : s.fresh.2 = { s with free := s.free + 1 } := rfl

end Sys2Proof.Machine
end

