-- ==== Sys2Proof/Tests/Slice0.lean ====
section
/-! SUPPORT. Tests of the model on fixed values, each expected result taken from the spec, and for each statement with hypotheses
a concrete state and operands that meet them, clause by clause. -/

set_option Elab.async false

namespace Sys2Proof.Tests

open Sys2Proof Sys2Proof.Machine Sys2Proof.Claims

/-! ## Well-formedness: an ill-formed term for each check (R43 to R53) -/

theorem test_amo_scope : Instr.wellFormed (.amoadd 5 6 7 0 1 1) = false ∧ Instr.wellFormed (.amoadd 5 6 7 1 1 1) = true := by decide
theorem test_amo_scopes : ∀ i ∈ [Instr.amoand 1 2 3 0 0 0, .amoor 1 2 3 0 0 0, .amoxor 1 2 3 0 0 0, .amomin 1 2 3 0 0 0,
    .amomax 1 2 3 0 0 0, .amominu 1 2 3 0 0 0, .amomaxu 1 2 3 0 0 0, .amoswap 1 2 3 0 0 0, .amocas 1 2 3 0 0 0, .famoFadd 1 2 3 0 0,
    .famoFmin 1 2 3 0 0, .famoFmax 1 2 3 0 0], i.wellFormed = false := by decide
theorem test_vcfg_tag : Instr.wellFormed (.vcfg 1 13) = false ∧ Instr.wellFormed (.vcfg 1 0) = true ∧ Instr.wellFormed (.vcfg 1 12) = true := by decide
theorem test_vcvt_tag : Instr.wellFormed (.vcvt 5 6 0 0) = false ∧ Instr.wellFormed (.vcvt 5 6 0 13) = false ∧ Instr.wellFormed (.vcvt 5 6 0 10) = true := by decide
theorem test_vsplat_tag : Instr.wellFormed (.vsplat 2 0 0 0) = false ∧ Instr.wellFormed (.vsplat 2 13 0 0) = false ∧ Instr.wellFormed (.vsplat 2 11 0 0) = true := by decide
theorem test_tst_tag : Instr.wellFormed (.tst 1 7 0) = false ∧ Instr.wellFormed (.tst 1 7 13) = false ∧ Instr.wellFormed (.tst 1 7 10) = true := by decide
theorem test_fork_target : Instr.wellFormed (.fork 5 3 4 1) = false ∧ Instr.wellFormed (.fork 5 3 4 2) = true := by decide
theorem test_fwd_register : Instr.wellFormed (.fwd 0) = false ∧ Instr.wellFormed (.fwd 31) = true := by decide
theorem test_fence_order : Instr.wellFormed (.fence 7 0) = false ∧ Instr.wellFormed (.fence 7 3) = true := by decide
theorem test_bararr_scope : Instr.wellFormed (.bararr 5 6 1 1) = false ∧ Instr.wellFormed (.bararr 5 6 7 1) = false ∧ Instr.wellFormed (.bararr 5 6 2 1) = true := by decide
theorem test_barwt_scope : Instr.wellFormed (.barwt 5 6 1) = false ∧ Instr.wellFormed (.barwt 5 6 7) = false ∧ Instr.wellFormed (.barwt 5 6 6) = true := by decide

/-! ## Decoding: words that the spec writes out -/

def reads (w : BitVec 32) (i : Instr) : Bool :=
  match decode w with
  | .ok j => decide (j = i)
  | .error _ => false

def refuses (w : BitVec 32) : Bool :=
  match decode w with
  | .ok _ => false
  | .error _ => true

/-- The words of the statement WorkedWords. -/
theorem test_worked_words : (workedWords.all fun p => reads p.1 p.2 && decide (encode p.2 = some p.1)) = true := by decide +kernel

/-- Words of R126, R135, R159, R269, R342, R364, R382, R385 and of the program of 21_prog_window_conv.md. -/
theorem test_listing_words : ([(0x60205001, .vcfg 1 10), (0x784B0080, .vsplat 2 11 0 0), (0x64415083, .vfma 2 1 10 0 1), (0x6C20C080, .vslide1 1 24 0),
    (0x64611003, .vfma 3 1 2 0 0), (0x74A6000A, .vcvt 5 6 0 10), (0xA8C85000, .dsbind 3 4 5), (0xA84C7002, .sendt 1 6 7 0),
    (0xA8085106, .vscacc 4 5 2), (0xB4000003, .yield), (0xB9090035, .csrc 8 9 3), (0xB806000A, .trcmkStart 6), (0xB806001A, .trcmkStop 6),
    (0xB8050008, .bist 5), (0xB8000007, .rcommit), (0x5102C010, .ldd 8 2 0x10), (0x54E35FFC, .stw 7 3 0x1FFC), (0x1CA6FFFF, .sltiu 5 6 0xFFFF),
    (0x2C600010, .addpc 3 0x10), (0x4C010000, .jalr 0 1 0)].all fun (p : BitVec 32 × Instr) => reads p.1 p.2 && decide (encode p.2 = some p.1)) = true := by decide +kernel

/-- The word's majors 0, 0x2F and 0x3F, and an ADD with a reserved bit set (R40, R41). -/
theorem test_reserved_words : ([0x00000000, 0xBC000000, 0xFC000000, 0x04000040].all refuses) = true := by decide +kernel

/-! ## A small machine -/

/-- What comes of an instruction, looked at by `f`. -/
def after (o : Host.Outcome State Fault Refusal) (f : State → Bool) : Bool :=
  match o with
  | .next t => f t
  | .fault _ => false
  | .refused _ => false

/-- Context 0 of core 0, or of QCC 0, of die 0, at level S. -/
def core0 : CtxId := mkCtxId 0 0 0
def qcc0 : CtxId := mkCtxId 0 128 0

def thread : Ctx := { Ctx.idle with
  status := .live
  sup := true }

/-- The module with one thread, which issues next. -/
def machine (u : CtxId) (f : Ctx → Ctx) : State := { State.reset with cur := u }.setCtx u (f thread)

/-- A thread with s1, s2 and s3 set. -/
def withRegs (a b c : Word) (x : Ctx) : Ctx := { x with regs := ((x.regs.set 1 a).set 2 b).set 3 c }

/-- A core thread with those registers. -/
def scalar (a b c : Word) : State := machine core0 (withRegs a b c)

/-- The value that an instruction leaves in s4. -/
def gives (i : Instr) (s : State) (v : Word) : Bool := after (exec i s) fun t => decide (t.me.x 4 = v) && decide (t.me.pc = s.me.pc + 4)

/-- The trap that an instruction takes: cause and TVAL. -/
def trapsWith (i : Instr) (s : State) (cause : BitVec 10) (tval : Word) : Bool :=
  after (exec i s) fun t => decide (t.me.csr.tcause = cause) && decide (t.me.csr.tval = tval) && t.me.csr.exl && decide (t.me.csr.xpc = s.me.pc)

/-! ## Scalar instructions (R92 to R101) -/

theorem test_div_truncates : gives (.div 4 1 2) (scalar (-7) 2 0) (-3) = true ∧ gives (.rem 4 1 2) (scalar (-7) 2 0) (-1) = true := by decide +kernel
theorem test_div_by_zero : gives (.div 4 1 2) (scalar (-7) 0 0) (-1) = true ∧ gives (.remu 4 1 2) (scalar 9 0 0) 9 = true := by decide +kernel
theorem test_addpc : gives (.addpc 4 0x10) (machine core0 fun c => { c with pc := 0x200 }) 0x240 = true := by decide +kernel
theorem test_sltiu_sign : gives (.sltiu 4 1 0xFFFF) (scalar 5 0 0) 1 = true ∧ gives (.sltiu 4 1 0xFFFF) (scalar (-1) 0 0) 0 = true := by decide +kernel
theorem test_lik_inserts : after (exec (.lik 1 1 0xABCD) (scalar 0x1111222233334444 0 0)) (fun t => decide (t.me.x 1 = 0x11112222ABCD4444)) = true := by decide +kernel
theorem test_branch_range : trapsWith (.beq 0 0 0x8000) (scalar 0 0 0) 0x06 (-0x20000) = true := by decide +kernel
theorem test_jalr_misaligned : trapsWith (.jalr 4 1 0) (scalar 2 0 0) 0x03 2 = true := by decide +kernel
theorem test_write_to_s0 : after (exec (.addi 0 1 1) (scalar 5 0 0)) (fun t => decide (t.me.x 0 = 0) && decide (t.me.pc = 4)) = true := by decide +kernel

/-! ## Memory (R108 to R111) and atomics (R232, R233) -/

/-- The same core thread over some bytes of memory at 0x1000. -/
def mem8 (a b c : Word) : State := { scalar a b c with mem := memWrite [] 0x1000 [0x80, 0x81, 0x82, 0x83, 0x84, 0x85, 0x86, 0x87] }

theorem test_load_signed_byte : gives (.ldb 4 1 0) (mem8 0x1000 0 0) 0xFFFFFFFFFFFFFF80 = true ∧ gives (.ldbu 4 1 0) (mem8 0x1000 0 0) 0x80 = true := by decide +kernel
theorem test_load_little_endian : gives (.ldd 4 1 0) (mem8 0x1000 0 0) 0x8786858483828180 = true ∧ gives (.ldw 4 1 4) (mem8 0x1000 0 0) 0xFFFFFFFF87868584 = true := by decide +kernel
theorem test_load_misaligned : trapsWith (.ldw 4 1 2) (mem8 0x1000 0 0) 0x03 0x1002 = true := by decide +kernel
theorem test_store_half : after (exec (.sth 2 1 2) (mem8 0x1000 0x1234 0)) (fun t => decide (memRead t.mem 0x1000 5 = [0x80, 0x81, 0x34, 0x12, 0x84])) = true := by decide +kernel
theorem test_store_zero_unlists : after (exec (.stb 0 1 0) (mem8 0x1000 0 0)) (fun t => decide (t.mem.length = 7) && Memory.wf t.mem) = true := by decide +kernel
theorem test_amoadd_wraps : after (exec (.amoadd 4 1 2 1 0 0) (mem8 0x1000 0x7D7C7D80 0)) (fun t => decide (t.me.x 4 = 0xFFFFFFFF83828180) &&
    decide (memRead t.mem 0x1000 4 = [0x00, 0xFF, 0xFE, 0x00])) = true := by decide +kernel
theorem test_amocas_fails : after (exec (.amocas 4 1 2 1 0 1) (mem8 0x1000 7 0)) (fun t => decide (t.me.x 4 = 0x8786858483828180) && decide (t.mem.length = 8)) = true := by decide +kernel

/-! ## Traps and CSRs (R355 to R365) -/

theorem test_ecall : trapsWith (.ecall 0x2A) (machine core0 fun c => { c with pc := 0x40 }) 0x0B 0x2A = true := by decide +kernel
theorem test_eret : after (exec .eret (machine core0 fun c => { c with csr := { c.csr with
    xpc := 0x80
    pie := true
    exl := true } })) (fun t => decide (t.me.pc = 0x80) && t.me.csr.ie && !t.me.csr.exl && !t.me.sup) = true := by decide +kernel
theorem test_second_trap_halts : after (exec (.ecall 1) (machine core0 fun c => { c with csr := { c.csr with exl := true } })) (fun t => decide (t.me.status = .halted)) = true := by decide +kernel
theorem test_csrs_reads_old : after (exec (.csrs 4 1 0x108) (machine core0 fun c => { withRegs 0xF0 0 0 c with csr := { c.csr with xscr := 0x0F } }))
    (fun t => decide (t.me.x 4 = 0x0F) && decide (t.me.csr.xscr = 0xFF)) = true := by decide +kernel
theorem test_csr_privilege : trapsWith (.csrw 0 0 0x100) (machine core0 fun c => { c with sup := false }) 0x0C 0xB8001003 = true := by decide +kernel
theorem test_vector_on_qcc : trapsWith .vsync (machine qcc0 id) 0x01 0x60000002 = true := by decide +kernel

/-! ## The vector unit (R132 to R160) -/

/-- A register of 32-bit elements with the given ones first. -/
def i32s (xs : List Nat) : VReg := ⟨BitVec.ofNat 8192 (ofBytes (xs.flatMap (bytesOf 4))), .i32, 16⟩

/-- A core thread with VL, v1, v2 and v3. -/
def vector (vl : Nat) (a b c : VReg) : State := machine core0 fun x => { x with
  csr := { x.csr with vl := vl }
  vregs := ((x.vregs.set 1 a).set 2 b).set 3 c }

def elems (t : State) (r : BitVec 5) (n : Nat) : List Nat := (List.range n).map (elemAt (t.me.v r) 4)

theorem test_vadd : after (exec (.vadd 3 1 2 0 0) (vector 3 (i32s [1, 0xFFFFFFFF, 5]) (i32s [10, 2, 6]) (i32s [9, 9, 9, 9]))) (fun t => decide (elems t 3 4 = [11, 1, 11, 9])) = true := by decide +kernel
theorem test_vslide1 : after (exec (.vslide1 3 1 0) ((vector 3 (i32s []) (i32s []) (i32s [1, 2, 3, 4])).upd (withRegs 77 0 0))) (fun t => decide (elems t 3 4 = [2, 3, 77, 4])) = true := by decide +kernel
theorem test_vrsum : after (exec (.vrsum 3 1 0) (vector 4 (i32s [1, 2, 3, 4]) (i32s []) (i32s [0, 8]))) (fun t => decide (elems t 3 2 = [10, 8])) = true := by decide +kernel
theorem test_vclt : after (exec (.vclt 2 1 2 0 0) (vector 3 (i32s [1, 5, 0xFFFFFFFF]) (i32s [2, 5, 0]) (i32s []))) (fun t => decide (t.me.masks[2] = 5)) = true := by decide +kernel
theorem test_vcmpr : after (exec (.vcmpr 3 1 1) ((vector 3 (i32s [7, 8, 9]) (i32s []) (i32s [0, 6])).upd fun c => { c with masks := c.masks.set 1 5 })) (fun t => decide (elems t 3 3 = [7, 9, 0])) = true := by decide +kernel
theorem test_vsetl_clips : after (exec (.vsetl 4 1) (scalar 5000 0 0)) (fun t => decide (t.me.csr.vl = 1024) && decide (t.me.x 4 = 1024)) = true := by decide +kernel
theorem test_widths_too_wide : trapsWith (.vadd 3 1 2 0 0) (vector 257 (i32s []) (i32s []) (i32s [])) 0x02 0 = true := by decide +kernel

/-! ## Floating point: FP32 sums rounded to nearest even (R67, R72), and the exact element sum of R157 -/

theorem test_fp32_one_plus_half_ulp : fp32.add .rne (fp32.read 0x3F800000) (fp32.read 0x33800000) = (0x3F800000, Flags.nx) := by decide +kernel
theorem test_fp32_invalid : (fp32.add .rne (fp32.read 0x7F800000) (fp32.read 0xFF800000)).2 = Flags.nv := by decide +kernel

/-! ## The event unit and barriers (R240, R246) -/

theorem test_evu_take : after (exec (.evuTake core0) (({ machine core0 (fun c => { c with
      evld := some ⟨64 * 3 + 8, 4, false⟩
      wait := some .eventUnit }) with time := 5 } : State).setQuad 0 0 { Quad.reset with evu := { Evu.reset with lines := Evu.reset.lines.set 3 2 } }))
    (fun t => decide (t.me.x 4 = 2) && decide ((t.quad 0 0).evu.lines[3] = 1) && decide (t.me.pc = 4)) = true := by decide +kernel

/-! ## A step (R88, R348) -/

theorem test_step_runs_word : after (step (State.reset.withFetchWord 32 0x08A5FFFF)) (fun t => decide (t.me.x 5 = 0xFFFFFFFFFFFFFFFF) && decide (t.me.pc = 4) &&
    decide (t.time = State.reset.time + 1)) = true := by decide +kernel
theorem test_step_runs_tile_word : after (step (State.reset.withFetchWord 32 0x9C000006)) (fun t => decide (t.cur = qcc0)) = true := by decide +kernel
theorem test_step_refuses_event_of_word : step { State.reset with agenda := [.event .yield] } = .fault .notAnEvent := by rfl

/-! ## Witnesses: states and operands that meet the hypotheses of a statement, clause by clause -/

/-- A context of the small machine. -/
theorem machine_ctx (u v : CtxId) (f : Ctx → Ctx) : (machine u f).ctx v = if v = u then f thread else Ctx.idle := by
  unfold machine
  split
  · next h => rw [h, State.ctx_setCtx]
  · next h => rw [State.ctx_setCtx_ne _ _ _ _ h]; rfl

theorem machine_me (u : CtxId) (f : Ctx → Ctx) : (machine u f).me = f thread := by
  show (machine u f).ctx u = f thread
  rw [machine_ctx, if_pos rfl]

/-! ### Scalar instructions, branches, traps, CSRs -/

theorem witness_ScalarResults : ([.add 4 1 2, .sub 4 1 2, .andR 4 1 2, .orR 4 1 2, .xorR 4 1 2, .andn 4 1 2, .sll 4 1 2, .srl 4 1 2, .sra 4 1 2,
    .slt 4 1 2, .sltu 4 1 2, .minS 4 1 2, .maxS 4 1 2, .minu 4 1 2, .maxu 4 1 2, .mul 4 1 2, .mulh 4 1 2, .mulhu 4 1 2, .clz 4 1, .ctz 4 1, .popc 4 1,
    .sxb 4 1, .sxh 4 1, .sxw 4 1, .zxw 4 1, .sel 4 1 2 3, .addi 4 1 0x8000, .andi 4 1 1, .ori 4 1 1, .xori 4 1 1, .slti 4 1 1, .sltiu 4 1 1,
    .slli 4 1 63, .srli 4 1 63, .srai 4 1 63, .liz 4 3 1 0x8000, .lik 4 3 1, .addpc 4 0x100000].all fun i =>
      decide ((scalarResult (scalar (-7) 64 0).me.x (scalar (-7) 64 0).me.pc i).map (·.1) = some 4)) = true := by decide +kernel

/-- Not taken; taken to the last word of the ISTORE; taken to its end. -/
theorem witness_ConditionalBranches :
    branchOf (scalar 1 2 0).me.x (.beq 1 2 0x7FFF) = some (false, 0x7FFF) ∧
    (branchOf (scalar 1 2 0).me.x (.bne 1 2 0x7FFF) = some (true, 0x7FFF) ∧ (relative (scalar 1 2 0).me.pc (0x7FFF : BitVec 16)).toNat < limit (scalar 1 2 0).cur) ∧
    (let s := (scalar 1 2 0).upd fun c => { c with pc := 4 }
     branchOf s.me.x (.bltu 1 2 0x7FFF) = some (true, 0x7FFF) ∧ limit s.cur ≤ (relative s.me.pc (0x7FFF : BitVec 16)).toNat ∧ MayTrap s) := by
  unfold MayTrap
  decide +kernel

theorem witness_ConditionalBranches_each : ([.beq 1 1 1, .bne 1 2 1, .blt 1 2 1, .bge 2 1 1, .bltu 1 2 1, .bgeu 2 1 1].all fun i =>
    decide (branchOf (scalar 1 2 0).me.x i = some (true, 1))) = true := by decide +kernel

theorem witness_JumpsAndLinks :
    (relative (scalar 0 0 0).me.pc (0x7FFF : BitVec 21)).toNat < limit (scalar 0 0 0).cur ∧
    (limit (scalar 0 0 0).cur ≤ (relative (scalar 0 0 0).me.pc (0x8000 : BitVec 21)).toNat ∧ MayTrap (scalar 0 0 0)) ∧
    (let t (x : Word) (imm : BitVec 16) := BitVec.ofInt 64 (((scalar x 0 0).me.x 1).toNat + immInt imm)
     ((t 0x20000 0xFFFC).toNat % 4 = 0 ∧ (t 0x20000 0xFFFC).toNat < limit (scalar 0x20000 0 0).cur) ∧
     ((t 0x20000 0xFFFF).toNat % 4 ≠ 0 ∧ MayTrap (scalar 0x20000 0 0)) ∧
     (t 0x20000 0).toNat % 4 = 0 ∧ limit (scalar 0x20000 0 0).cur ≤ (t 0x20000 0).toNat ∧ MayTrap (scalar 0x20000 0 0)) := by
  unfold MayTrap
  decide +kernel

/-- A thread whose EXL is set. -/
def trapped : State := machine core0 fun c => { c with csr := { c.csr with
  exl := true
  trapv := 0x1FF
  xpc := 0x1FFFC } }

theorem witness_SoftwareTraps : MayTrap (scalar 0 0 0) ∧ trapped.me.chunk = none ∧ trapped.me.csr.exl = true := by
  unfold MayTrap
  decide +kernel

/-- The highest handler of a core lies in its ISTORE. -/
theorem witness_SoftwareTraps_edge : MayTrap (machine core0 fun c => { c with csr := { c.csr with trapv := 0x1FF } }) := by
  unfold MayTrap
  decide +kernel

theorem witness_InterruptEntry :
    (let c := (machine core0 fun c => { c with gswDue := some 0xFFFFFFFFFFFF }).ctx core0
     c.status = .live ∧ c.chunk = none ∧ c.csr.exl = false ∧ (scalar 0 0 0).hub.powerOff = false ∧ (handler c true).toNat < limit core0 ∧
       c.gswDue = some 0xFFFFFFFFFFFF) ∧
    (let c := (machine core0 fun c => { c with csr := { c.csr with
        ie := true
        ipend := true } }).ctx core0
     c.status = .live ∧ c.chunk = none ∧ c.csr.exl = false ∧ (handler c true).toNat < limit core0 ∧ c.gswDue = none ∧ c.csr.ie = true ∧
       c.csr.ipend = true ∧ c.sealing = false) := by decide +kernel

theorem witness_ReturnFromTrap :
    (trapped.me.chunk = none ∧ trapped.me.sup = true ∧ trapped.me.csr.xpc.toNat % 4 = 0 ∧ trapped.me.csr.xpc.toNat < limit trapped.cur) ∧
    (let s := machine core0 fun c => { c with sup := false }
     s.me.sup = false ∧ MayTrap s) ∧
    (let s := machine core0 fun c => { c with csr := { c.csr with xpc := 2 } }
     s.me.sup = true ∧ MayTrap s ∧ s.me.csr.xpc.toNat % 4 ≠ 0) ∧
    (let s := machine core0 fun c => { c with csr := { c.csr with xpc := 0x20000 } }
     s.me.sup = true ∧ MayTrap s ∧ s.me.csr.xpc.toNat % 4 = 0 ∧ limit s.cur ≤ s.me.csr.xpc.toNat) := by
  unfold MayTrap
  decide +kernel

/-- A read of an SO CSR at level S and at level U; a write of an RO CSR, of an SRW CSR at level U; CSRs that a unit does not have. -/
theorem witness_CsrReads :
    let s := scalar 0 0 0
    let user := machine core0 fun c => { c with sup := false }
    (ReadsCsr (.csrr 4 0x106) 4 0x106 ∧ onlyS 0x106 ∧ s.me.sup = true) ∧
    (ReadsCsr (.csrs 4 0 0x106) 4 0x106 ∧ user.me.sup = false ∧ MayTrap user) ∧
    (WritesCsr (.csrs 4 1 0x110) 4 1 0x110 ∧ readOnly 0x110 ∧ s.me.chunk = none) ∧
    (WritesCsr (.csrw 4 1 0x0D0) 4 1 0x0D0 ∧ writesOnlyS 0x0D0) ∧
    (ReadsCsr (.csrc 4 0 0x0A4) 4 0x0A4 ∧ WritesCsr (.csrc 4 1 0x0A4) 4 1 0x0A4 ∧ MayTrap s ∧ MayTrap (machine qcc0 id)) := by
  unfold MayTrap ReadsCsr WritesCsr onlyS writesOnlyS readOnly
  decide +kernel

/-- Nothing is awaited for a level's own CSR, for VL and for FFLG. -/
theorem witness_CsrReads_awaited : ∀ n ∈ [0x106, 0x010, 0x001], NothingAwaited thread n := by
  unfold NothingAwaited
  decide +kernel

/-- The values of some CSRs after reset, of both kinds of unit, and numbers that one of them does not have (R375). -/
theorem witness_CsrReads_numbers :
    let s := scalar 0 0 0
    let q := machine qcc0 id
    csrWord s core0 0x092 = some 0x1010 ∧ csrWord q qcc0 0x0A3 = some 0x01000000 ∧ csrWord s core0 0x0F2 = some 0x4000 ∧
      csrWord s core0 0x106 = some 0 ∧ (csrWord s core0 0x110).isSome = true ∧ csrWord s core0 0x0D0 = some 0 ∧
      csrWord s core0 0x0A4 = none ∧ csrWord q qcc0 0x010 = none ∧ csrWord q qcc0 0x005 = none := by decide +kernel

theorem witness_CsrWrites : ∀ i ∈ [Instr.csrw 4 1 0x108, .csrs 4 1 0x108, .csrc 4 1 0x108, .csrw 4 1 0x060],
    let s := scalar 0xF0 0 0
    let n : BitVec 12 := if i = .csrw 4 1 0x060 then 0x060 else 0x108
    s.me.sup = true ∧ s.me.chunk = none ∧ (plainCsr n.toNat).isSome = true ∧
      (csrEffect (((plainCsr n.toNat).getD fun _ => 0) s.me) (s.me.x 1) 4 1 n i).isSome = true := by decide +kernel

/-- The smallest values that each rule refuses. -/
theorem witness_CsrRefusals :
    (∀ i : Fin 6, let s := scalar (#v[5, 1025, 17, 1, 3, 0x700][i]) 0 0
      MayTrap s ∧ s.me.sup = true ∧ s.cur.unit.val < 128 ∧ s.me.vecs = []) ∧
    4 < ((scalar 5 0 0).me.x 1).toNat % 8 ∧ 1024 < ((scalar 1025 0 0).me.x 1).toNat % 2048 ∧ 16 < ((scalar 17 0 0).me.x 1).toNat % 32 ∧
    ((scalar 1 0 0).me.x 1).toNat % 32 < 2 ∧ ((scalar 3 0 0).me.x 1).toNat % 4 = 3 ∧ ((scalar 0x700 0 0).me.x 1).toNat / 256 % 256 < 8 ∧
    MayTrap (machine core0 fun c => { c with sup := false }) := by
  unfold MayTrap
  decide +kernel

/-- A field register, a W1C one, and a tile CSR of a QCC. -/
theorem witness_FieldWrites : ∀ n ∈ [0x0F2, 0x080, 0x0A0],
    let s := scalar 0x0801 0 0
    s.me.chunk = none ∧ MayWriteCsr s n ∧ s.me.csr.ecls < 4 := by
  unfold MayWriteCsr onlyS writesOnlyS NothingAwaited
  decide +kernel

theorem witness_FieldWrites_legal : ∀ p ∈ [(0x0F2, 0x0801), (0x080, 0xFFFFFFFFFFFFF7FE)], LegalCsr core0 p.1 p.2 := by
  unfold LegalCsr
  decide +kernel

theorem witness_FieldWrites_old : csrWord (scalar 0x0801 0 0) core0 0x0F2 = some 0x4000 ∧
    csrWord (machine core0 fun c => { withRegs 0x0801 0 0 c with trb := 0xFFFFFFFFFFFFFFFF }) core0 0x080 = some 0xFFFFFFFFFFFFFFFF := by decide +kernel

theorem witness_FieldWrites_fields : Leaves (scalar 0x0801 0 0) (.csrw 4 1 0x0F2) 4 1 0x0F2 0x4000 0x0801 := by
  show (∀ k < 64, _) ∧ ∃ w, _ ∧ _
  exact ⟨by decide +kernel, _, rfl, by decide +kernel⟩

theorem witness_FieldWrites_cleared : Leaves (scalar 0x0801 0 0) (.csrs 4 1 0x080) 4 1 0x080 0xFFFFFFFFFFFFFFFF 0xFFFFFFFFFFFFF7FE := by
  show (_ ∧ _) ∨ _ ∧ _
  exact .inr ⟨.inr rfl, by decide +kernel⟩

theorem witness_FieldWrites_tile :
    let s := machine qcc0 (withRegs 0xBAA 0 0)
    csrWord s s.cur 0x0A0 = some 0 ∧ LegalCsr s.cur 0x0A0 0xBAA := by
  unfold LegalCsr
  decide +kernel

/-- ULOGTH of a context in a domain. -/
theorem witness_FieldWrites_domain : (machine core0 fun c => { c with dom := true }).me.dom = true ∧
    csrWord (machine core0 fun c => { c with dom := true }) core0 0x0E3 = some 0x180000000 := by decide +kernel

/-- A mark of 17 is refused. -/
theorem witness_CsrRefusals_field :
    let s := scalar 17 0 0
    WritesCsr (.csrw 4 1 0x040) 4 1 0x040 ∧ MayTrap s ∧ MayWriteCsr s 0x040 ∧ csrWord s s.cur 0x040 = some 0 := by
  unfold MayTrap WritesCsr MayWriteCsr onlyS writesOnlyS NothingAwaited
  decide +kernel

theorem witness_CsrRefusals_mark : ¬LegalCsr core0 0x040 17 := by
  unfold LegalCsr
  decide +kernel

theorem witness_CsrRefusals_leaves : Leaves (scalar 17 0 0) (.csrw 4 1 0x040) 4 1 0x040 0 17 := by
  show (∀ k < 64, _) ∧ ∃ w, _ ∧ _
  exact ⟨by decide +kernel, _, rfl, by decide +kernel⟩

/-- A request of the issuing context for bytes that land at 0x1000, translated under an entry of the page that holds them. -/
def landingOf (s : State) : Req where
  src := some (.here s.cur)
  srcEp := 0
  ds := 0
  fn := 4
  target := 0
  win := 0
  inc := 0
  rin := 0
  dom := false
  part := some 0
  out := false
  imm := false
  rel := false
  beats := 1
  credited := true
  tries := 0
  kind := .get 0 8 [(0x1000, 8)]
  stage := .flying
  via := [⟨0, 0, 0x10000, 0, true, true, false, 0⟩]
  ce := false

/-- A TLBI with nothing to wait for, and one that waits for a GET; RCOMMIT alone, behind another, first of two, second of two. -/
theorem witness_TranslationMaintenance :
    let s := scalar 0x1000 0 0
    let g := { s with net := [landingOf s] }
    let other := mkCtxId 1 2 0
    let waits (c : Ctx) := { c with wait := some .commit }
    let after1 := { s.setCtx other (waits thread) with commits := [other] }
    let first := { (s.upd waits).setCtx other (waits thread) with commits := [core0, other] }
    let second := { (s.upd waits).setCtx other (waits thread) with commits := [other, core0] }
    (Privileged s ∧ NothingLands s ∧ s.me.wait ≠ some .commit ∧ Committing s []) ∧
    (Privileged g ∧ (landingOf s).src.isSome = true ∧ (landingOf s).issued = true ∧ (landingOf s).landing ≠ [] ∧
      ((landingOf s).via.all fun e => !stays g (.tlbi 1) 1 e) = true) ∧
    (Privileged after1 ∧ after1.me.wait ≠ some .commit ∧ Committing after1 [other]) ∧
    (Privileged first ∧ first.me.status = .live ∧ first.me.wait = some .commit ∧ NothingLands first ∧ Committing { first with commits := [other] } [other] ∧
      first.commits = first.cur :: [other]) ∧
    (Privileged second ∧ second.me.wait = some .commit ∧ Committing { second with commits := [other] } [other] ∧ second.commits = [other] ++ [second.cur]) := by
  unfold Privileged NothingLands Committing
  decide +kernel

/-- A start outside a capture and a stop in one; a start in one and a stop outside. -/
theorem witness_CaptureMarks :
    let out := scalar 1 0 0
    let inside := machine core0 fun c => { c with csr := { c.csr with trcctl := 0x30 } }
    (out.me.chunk = none ∧ out.me.csr.trcctl.getLsbD 4 = false) ∧ (inside.me.chunk = none ∧ inside.me.csr.trcctl.getLsbD 4 = true) ∧
      (inside.me.csr.trcctl.getLsbD 4 ≠ false ∧ MayTrap inside) ∧ out.me.csr.trcctl.getLsbD 4 ≠ true ∧ MayTrap out := by
  unfold MayTrap
  decide +kernel

/-! ### Accesses -/

/-- Four addresses, one for each check. -/
theorem witness_AccessChecks :
    let ea (x : Word) := address (scalar x 0 0) 1 0
    (∃ g, loadOf (.ldw 4 1 0) = some (4, 1, 0, 4, g)) ∧ storeOf (.stw 4 1 0) = some (4, 1, 0, 4) ∧ (scalar 0 0 0).me.sealing = false ∧
    (∀ i : Fin 5, MayTrap (scalar (#v[0x1002, 0x0100000000000000, 0x0001000000000000, 0x8000000000, 0xFF00000000000000][i]) 0 0)) ∧
    (ea 0x1002).toNat % 4 ≠ 0 ∧
    ((ea 0x0100000000000000).toNat % 4 = 0 ∧ (ea 0x0100000000000000).toNat / 2 ^ 56 ≠ 0 ∧ (ea 0x0100000000000000).toNat / 2 ^ 56 ≠ 255) ∧
    ((ea 0x0001000000000000).toNat % 4 = 0 ∧ (ea 0x0001000000000000).toNat / 2 ^ 56 = 0 ∧ 2 ^ 48 ≤ (ea 0x0001000000000000).toNat % 2 ^ 57) ∧
    ((ea 0xFF00000000000000).toNat % 4 = 0 ∧ (ea 0xFF00000000000000).toNat / 2 ^ 56 = 255) ∧
    ((ea 0x8000000000).toNat % 4 = 0 ∧ (ea 0x8000000000).toNat < 2 ^ 48 ∧ (scalar 0x8000000000 0 0).place (ea 0x8000000000).toNat = .hole) ∧
    (∀ k : Fin 16, (scalar 0 0 0).rngb[k].getLsbD 0 = false) ∧ (scalar 0 0 0).me.csr.ptroot.getLsbD 0 = false ∧ (scalar 0 0 0).me.sup = true ∧
    (machine core0 fun c => { c with sup := false }).me.sup = false ∧ MayTrap (machine core0 fun c => { c with sup := false }) := by
  unfold MayTrap
  exact ⟨⟨true, rfl⟩, by decide +kernel⟩

theorem witness_AccessChecks_each : ([.ldb 4 1 0, .ldbu 4 1 0, .ldh 4 1 0, .ldhu 4 1 0, .ldw 4 1 0, .ldwu 4 1 0, .ldd 4 1 0].all fun i =>
    (loadOf i).isSome) = true ∧ ([.stb 4 1 0, .sth 4 1 0, .stw 4 1 0, .std 4 1 0].all fun i => (storeOf i).isSome) = true := by decide +kernel

/-- The mapping that a check answers. -/
def mapping (r : Except (BitVec 8) Mapping × State) : Option Mapping :=
  match r.1 with
  | .ok m => some m
  | .error _ => none

theorem mapped_of (s : State) (k : AccKind) (b : Bool) (va : Word) (n : Nat) (m : Mapping)
    (h : mapping (s.check (s.viewer s.cur) k b va n) = some m) : Mapped s k b va n m (s.check (s.viewer s.cur) k b va n).2 := by
  unfold Mapped mapping at *
  split at h
  · next x e =>
    obtain rfl := Option.some.inj h
    exact Prod.ext e rfl
  · exact absurd h (by simp)

/-- Flat memory at a level S. -/
def flatMap (pa : Nat) : Mapping := ⟨pa, true, true, true, 0⟩

/-- An address at a pair that hits, one below 2^48 at level S with paging off, one that the tables map as a leaf of level 4; and
addresses without a mapping, without a permission, mapped to the hole. -/
def paged (rights : Nat) : State :=
  let pte (x : Nat) : List Byte := bytesOf 8 x
  { machine core0 (fun c => { withRegs 0x10008 0x70008 0x90008 c with csr := { c.csr with ptroot := 0x5000000000001000 ||| 1 } }) with
    mem := memWrite (memWrite (memWrite (memWrite (memWrite (memWrite [] 0x1000 (pte 0x2001)) 0x2000 (pte 0x3001)) 0x3000 (pte 0x4001)) 0x4000 (pte 0x5001))
      0x5008 (pte (0x30000 ||| rights))) 0x5038 (pte (0x8000000000 ||| rights)) }

theorem witness_Translations :
    let s := scalar 0x2008 0 0
    let r := { s with
      rngb := s.rngb.set 3 0x0F
      rngl := s.rngl.set 3 0x0000000700000001 }
    let w := machine core0 fun c => { withRegs 0x2008 0 0 c with wait := some .commit }
    let committing := { r.setCtx (mkCtxId 1 2 0) w.me with commits := [mkCtxId 1 2 0] }
    (WellPlaced 0x2008 8 ∧ s.poison = [] ∧ s.committing = [] ∧ MayTrap s ∧ s.me.sealing = false) ∧
    (translated s 0x2008 = some ⟨0x2008, true, true, true, 0⟩ ∧ s.place 0x2008 ≠ .hole) ∧
    (rangeOf r 0x2008 = some 3 ∧ translated r 0x2008 = some ⟨0x72008, true, true, true, 0⟩) ∧
    (rangeOf (paged 0xF) 0x10008 = none ∧ translated (paged 0xF) 0x10008 = some ⟨0x30008, true, true, false, 0⟩) ∧
    (translated (paged 0xF) 0x90008 = none ∧ translated (paged 0x3) 0x10008 = some ⟨0x30008, false, false, false, 0⟩ ∧
      translated (paged 0xF) 0x70008 = some ⟨0x8000000008, true, true, false, 0⟩ ∧ (paged 0xF).place 0x8000000008 = .hole ∧ MayTrap (paged 0xF)) ∧
    (committing.committing ≠ [] ∧ (rangeOf committing 0x2008).isSome = true ∧ address committing 1 0 = 0x2008 ∧ storeOf (.std 2 1 0) = some (2, 1, 0, 8) ∧
      committing.me.sealing = false) := by
  unfold MayTrap WellPlaced
  decide +kernel

/-- A mapping that lets a level-S load and store through, and one that does not let it read. -/
theorem witness_Translations_permitted :
    Permitted (scalar 0x2008 0 0) .store true ⟨0x2008, true, true, false, 0⟩ ∧ Permitted (paged 0xF) .load true ⟨0x8000000008, true, true, false, 0⟩ ∧
      ¬Permitted (paged 0x3) .load true ⟨0x30008, false, false, false, 0⟩ := by
  have place (s : State) (a : Nat) (h : s.place a = .dram ∨ s.place a = .hole) (x : Place) (hx : s.place a = x) : x = .dram ∨ x = .hole := hx ▸ h
  have no (k : AccKind) (hk : k ≠ .evld) (s : State) (m : Mapping) (h : s.place m.pa = .dram ∨ s.place m.pa = .hole) (hr : m.r = true) (hw : m.w = true)
      (hs : s.me.sup = true) (h0 : m.kind = 0) : Permitted s k true m := by
    unfold Permitted
    refine ⟨fun _ => hr, fun _ => hw, fun h => absurd (hs.symm.trans h) (by decide), fun _ => rfl, ⟨fun e => absurd e hk, ?_⟩, ?_, ?_⟩
    · rintro ⟨d, q, o, e⟩
      cases place s m.pa h _ e <;> contradiction
    · rintro d q o (e | e) <;> cases place s m.pa h _ e <;> contradiction
    · intro o e
      cases place s m.pa h _ e <;> contradiction
  exact ⟨no _ (by decide) _ _ (by decide +kernel) rfl rfl (by decide +kernel) rfl, no _ (by decide) _ _ (by decide +kernel) rfl rfl (by decide +kernel) rfl,
    fun h => absurd (h.1 (by decide)) (by decide)⟩

theorem witness_ScalarLoads :
    let s := mem8 0x1004 0 0
    loadOf (.ldw 4 1 0) = some (4, 1, 0, 4, true) ∧ s.me.chunk = none ∧
      Mapped s .load true (address s 1 0) 4 (flatMap 0x1004) (s.check (s.viewer s.cur) .load true (address s 1 0) 4).2 ∧
      IsMemory s 0x1004 ∧ s.isPoisoned 0x1004 4 = false :=
  ⟨by decide +kernel, by decide +kernel, mapped_of _ _ _ _ _ _ (by decide +kernel), .inl (by decide +kernel), by decide +kernel⟩

/-- The device window, through an address of device kind. -/
def deviceMap (pa : Nat) : Mapping := ⟨pa, true, true, true, 1⟩

/-- LDD of SWBASE of die 0, with nothing held and with a store of the context held; LDW of it; an unassigned block; one above all. -/
theorem witness_RegisterLoads :
    (∀ i : Fin 4, let s := scalar (#v[0x130000001000, 0x130000001000, 0x130000900000, 0x130001000000][i]) 0 0
      let n : Nat := if i = 1 then 4 else 8
      mapping (s.check (s.viewer s.cur) .load true (address s 1 0) n) = some (deviceMap (s.me.x 1).toNat) ∧
        s.place (s.me.x 1).toNat = .device ((s.me.x 1).toNat - 0x130000000000) ∧ MayTrap s) ∧
    ((loadOf (.ldd 4 1 0)).isSome = true ∧ (loadOf (.ldw 4 1 0)).isSome = true) ∧
    (let s := scalar 0x130000001000 0 0
     deviceWord s 0x1000 = some 0 ∧ s.me.chunk = none ∧ ((s.die s.cur.die).holds.all fun h => decide (h.who ≠ Holder.here s.cur)) = true) ∧
    (let s := scalar 0x130000001000 0 0
     let h : HeldStore := ⟨s.cur, .here s.cur, 0, 0x130000001000, 8, 0, 0, []⟩
     let t := s.setDie 0 { s.die 0 with holds := [h] }
     mapping (t.check (t.viewer t.cur) .load true (address t 1 0) 8) = some (deviceMap 0x130000001000) ∧ deviceWord t 0x1000 = some 0 ∧
       t.me.chunk = none ∧ (t.die t.cur.die).holds = [h] ∧ h.who = Holder.here t.cur) := by
  unfold MayTrap
  decide +kernel

/-- At the last word of DRAM. -/
theorem witness_ScalarStores :
    let s := scalar 0x7FFFFFFFFC 0x12345678 0
    let s1 := (s.check (s.viewer s.cur) .store true (address s 1 0) 4).2
    storeOf (.stw 2 1 0) = some (2, 1, 0, 4) ∧ Mapped s .store true (address s 1 0) 4 (flatMap 0x7FFFFFFFFC) s1 ∧ IsMemory s 0x7FFFFFFFFC ∧
      (flatMap 0x7FFFFFFFFC).kind = 0 ∧ MayStore s1 0x7FFFFFFFFC 4 ∧ Memory.wf s.mem = true :=
  ⟨by decide +kernel, mapped_of _ _ _ _ _ _ (by decide +kernel), .inl (by decide +kernel), rfl, by unfold MayStore; decide +kernel, by decide +kernel⟩

/-- STD to SWBASE of die 0, by a context of no domain and by one of a domain; STW; MODE 3 into RCFG; a store through a page of
device kind to memory. -/
theorem witness_DeviceStores :
    let at_ (a : Word) (dom : Bool) := machine core0 fun c => { withRegs a 3 0 c with dom := dom }
    (∀ i : Fin 4, let s := at_ (#v[0x130000001000, 0x130000001000, 0x130000001000, 0x130000000000][i]) (decide (i = 1))
      let n : Nat := if i = 2 then 4 else 8
      mapping (s.check (s.viewer s.cur) .store true (address s 1 0) n) = some (deviceMap (s.me.x 1).toNat) ∧ s.me.chunk = none ∧ s.me.sealing = false ∧
        s.place (s.me.x 1).toNat = .device ((s.me.x 1).toNat - 0x130000000000) ∧ MayTrap s) ∧
    ((registerStored (at_ 0x130000001000 false) 0x1000 3).isSome = true ∧ (at_ 0x130000001000 false).me.dom = false) ∧
    ((at_ 0x130000001000 true).me.dom = true ∧ 1 ≤ freeHold (at_ 0x130000001000 true) core0.die ∧
      (registerStored (at_ 0x130000001000 true) 0x1000 3).isSome = true) ∧
    ((at_ 0x130000000000 false).me.x 2).toNat % 4 = 3 := by
  unfold MayTrap
  decide +kernel
theorem witness_ScalarAtomics :
    let s := mem8 0x1000 7 0
    let s1 := (s.check (s.viewer s.cur) .atomic false (s.me.x 1) 4).2
    (∃ f, atomicOf s.me (.amoadd 4 1 2 1 3 0) = some (4, 1, 4, 3, true, f)) ∧ Mapped s .atomic false (s.me.x 1) 4 (flatMap 0x1000) s1 ∧
      IsMemory s 0x1000 ∧ s.isPoisoned 0x1000 4 = false ∧ s.me.chunk = none ∧ s.me.sealing = false ∧ s1.mayLog s.me.rin 0x1000 4 = true ∧
      s.me.accs = [] ∧ s.me.vecs = [] ∧ Memory.wf s.mem = true :=
  ⟨⟨_, rfl⟩, mapped_of _ _ _ _ _ _ (by decide +kernel), .inl (by decide +kernel), by decide +kernel⟩

theorem witness_ScalarAtomics_each : ([.amoadd 4 1 2 1 0 1, .amoand 4 1 2 1 0 1, .amoor 4 1 2 1 0 1, .amoxor 4 1 2 1 0 1, .amomin 4 1 2 1 0 1,
    .amomax 4 1 2 1 0 1, .amominu 4 1 2 1 0 1, .amomaxu 4 1 2 1 0 1, .amoswap 4 1 2 1 0 1, .amocas 4 1 2 1 0 1, .famoFadd 4 1 2 1 0,
    .famoFmin 4 1 2 1 0, .famoFmax 4 1 2 1 0].all fun i => (atomicOf thread i).isSome) = true := by decide +kernel

/-! ### Copies and waits -/

/-- CPY of 128 bytes; CPY2 of two rows at their least pitch; an empty copy; one that overlaps by one byte. -/
theorem witness_CopiesIssue :
    let s := scalar 0x2000 0x1000 128
    let s2 := machine core0 fun c => { withRegs 0x2000 0x1000 0 c with csr := { c.csr with cpydim := 2 + 64 * 2 ^ 16 + 2 ^ 36 + 2 ^ 50 } }
    (s.me.chunk = none ∧ s.me.sealing = false ∧ (s.me.x 3).toNat = 128 ∧ ¬((s.me.x 1).toNat < (s.me.x 2).toNat + 128 ∧ (s.me.x 2).toNat < (s.me.x 1).toNat + 128) ∧
      EngineFree s 5) ∧
    (s2.me.csr.cpydim.toNat % 2 ^ 16 = 2 ∧ s2.me.csr.cpydim.toNat / 2 ^ 16 % 2 ^ 20 = 64 ∧ 64 * (s2.me.csr.cpydim.toNat / 2 ^ 50) = 64 ∧
      EngineFree s2 5 ∧ ¬((s2.me.x 1).toNat < (s2.me.x 2).toNat + 128 ∧ (s2.me.x 2).toNat < (s2.me.x 1).toNat + 128)) ∧
    (((scalar 0x2000 0x1000 0).me.x 3).toNat = 0 ∧ EngineFree (scalar 0x2000 0x1000 0) 5) ∧
    (let o := scalar 0x107F 0x1000 128
     (o.me.x 1).toNat < (o.me.x 2).toNat + 128 ∧ (o.me.x 2).toNat < (o.me.x 1).toNat + 128 ∧ MayTrap o) := by
  unfold MayTrap EngineFree
  decide +kernel

/-- A fresh copy of two rows. -/
def copying : State := { machine core0 (fun c => { c with copies := [{
    tag := 5
    dst := 0x2000
    src := 0x1000
    rows := 2
    rowlen := 4
    spitch := 4
    dpitch := 64
    ptroot := 0
    sup := true
    rin := 0
    row := 0
    off := 0 }] }) with mem := memWrite [] 0x1000 [1, 2, 3, 4, 5, 6, 7, 8] }

theorem witness_CopiesComplete : ∃ c, (copying.ctx core0).copies[0]? = some c ∧ c.row = 0 ∧ c.off = 0 ∧ c.rin = 0 ∧ Flat copying c.sup c.ptroot ∧
    copying.poison = [] ∧ 0 < c.rows ∧ 0 < c.rowlen ∧ (1 < c.rows → c.rowlen ≤ c.dpitch) ∧ Memory.wf copying.mem = true ∧
    c.dst.toNat + ((c.rows - 1) * c.dpitch + c.rowlen) ≤ copying.dramEnd ∧ c.src.toNat + ((c.rows - 1) * c.spitch + c.rowlen) ≤ copying.dramEnd ∧
    c.src.toNat + ((c.rows - 1) * c.spitch + c.rowlen) ≤ c.dst.toNat := by
  unfold Flat
  exact ⟨_, rfl, by decide +kernel⟩

/-- Tags 0 and 63 ready, or none; a mask of one of them, of a tag not ready, or empty. -/
theorem witness_CopyWaits :
    let s (m : Word) := machine core0 fun c => { withRegs m 0 0 c with trb := 0x8000000000000001 }
    (∀ i : Fin 4, let c := (s (#v[0x8000000000000000, 2, 0, 1][i])).me
      c.chunk = none ∧ NoFault c ∧ c.wait = none) ∧
    (let c := (s 0x8000000000000000).me
     c.trb.getLsbD 63 = true ∧ (c.x 1).getLsbD 63 = true) ∧
    ((s 2).me.x 1 ≠ 0 ∧ (List.range 64).all (fun k => !((s 2).me.trb.getLsbD k && ((s 2).me.x 1).getLsbD k)) = true ∧ (s 2).me.trb.getLsbD 1 = false) ∧
    ((s 0).me.x 1 = 0 ∧ MayTrap (s 0)) ∧
    (loadsOut (s 0) core0 ≤ 0 ∧ storesOut (s 0) core0 ≤ 0 ∧ (s 0).me.copies.length ≤ 0 ∧ (s 0).me.tile.queue.length ≤ 0) ∧
    (let m := machine core0 fun c => { c with accs := [⟨true, 0⟩] }
     NoFault m.me ∧ m.me.wait = none ∧ 0 < storesOut m core0) ∧
    ((s 1).me.x 1 ≠ 0 ∧ ((s 1).me.x 1).getLsbD (PendFault.tag ⟨0x04, 0x1234, 0⟩).toNat = true ∧ MayTrap (s 1)) := by
  unfold MayTrap NoFault
  decide +kernel

/-- A context with nothing outstanding has performed it all. -/
theorem performed_of (s : State) (u : CtxId) (sc : Nat) (h : (s.ctx u).accs = [] ∧ (s.ctx u).vecs = [] ∧ s.net = []) : Performed s u sc :=
  ⟨h.1, h.2.1, fun _ m => absurd (h.2.2 ▸ m) (List.not_mem_nil)⟩

/-- Nothing earlier outstanding; a store outstanding before a release, a vector load or a vector atomic before an acquire; a
pending message fault. -/
theorem witness_Fences :
    let s := scalar 0 0 0
    let ld (atomic : Bool) := machine core0 fun c => { c with vecs := [⟨!atomic, false, atomic, none, [], none⟩] }
    let f := machine core0 fun c => { c with msgFault := some ⟨0x0A, 7, 0⟩ }
    (s.me.chunk = none ∧ s.me.msgFault = none ∧ Performed s s.cur 7 ∧ s.me.accs = [] ∧ s.me.vecs = []) ∧
    (∀ b : Bool, (ld b).me.chunk = none ∧ (ld b).me.msgFault = none ∧ ((ld b).me.vecs.all fun x => !x.isLoad && !x.atomic) = false) ∧
    (f.me.chunk = none ∧ f.me.msgFault = some ⟨0x0A, 7, 0⟩ ∧ MayTrap f) :=
  ⟨⟨by decide +kernel, by decide +kernel, performed_of _ _ _ (by decide +kernel), by decide +kernel⟩,
    by decide +kernel, by unfold MayTrap; decide +kernel⟩

theorem witness_Fences_release :
    let st := machine core0 fun c => { c with accs := [⟨true, 0⟩] }
    st.me.chunk = none ∧ st.me.msgFault = none ∧ st.me.sealing = false ∧ ¬Performed st st.cur 2 :=
  ⟨by decide +kernel, by decide +kernel, by decide +kernel, fun h => absurd h.1 (by decide +kernel)⟩

/-! ### Barriers and event units -/

def quadBarrier : BarKey := ⟨.quad 0 0, 0⟩

/-- A member of an enabled domain of two, at phase `ph`; s2 is the phase to be awaited. -/
def atBarrier (ph : BitVec 32) (awaited : Word) : State := (scalar 0 awaited 0).setBar quadBarrier
  { (scalar 0 0 0).bar quadBarrier with
    en := true
    n := 2
    ph := ph
    members := BitVec.allOnes 1280 }

theorem witness_Barriers_arrive :
    let s := atBarrier 0 0
    (s.me.chunk = none ∧ s.me.sealing = false) ∧ Member s 1 2 quadBarrier ∧ Performed s s.cur 2 ∧
    (16 ≤ ((scalar 16 0 0).me.x 1).toNat ∧ MayTrap (scalar 16 0 0)) ∧
    (let o := scalar 0 0 0
     Selects o 1 2 quadBarrier ∧ (o.bar quadBarrier).en = false ∧ MayTrap o) ∧
    (let o := s.setBar quadBarrier { s.bar quadBarrier with members := 0 }
     Selects o 1 2 quadBarrier ∧ (o.bar quadBarrier).en = true ∧ ¬IsMember o quadBarrier ∧ MayTrap o) := by
  unfold MayTrap Member Selects IsMember
  refine ⟨by decide +kernel, by decide +kernel, performed_of _ _ _ (by decide +kernel), ?_⟩
  decide +kernel

/-- A releasing arrival before a store is acknowledged. -/
theorem witness_Barriers_release :
    let s := (atBarrier 0 0).upd fun c => { c with accs := [⟨true, 0⟩] }
    s.me.chunk = none ∧ s.me.sealing = false ∧ Member s 1 2 quadBarrier ∧ ¬Performed s s.cur 2 := by
  unfold Member Selects IsMember
  exact ⟨by decide +kernel, by decide +kernel, by decide +kernel, fun h => absurd h.1 (by decide +kernel)⟩

/-- Phases just completed, completed 2^31 ago and wrapped, and not completed. -/
theorem witness_Barriers_wait :
    let k (s : State) := ((s.bar quadBarrier).ph.toNat + 2 ^ 32 - (s.me.x 2).toNat) % 2 ^ 32
    (∀ i : Fin 4, let s := atBarrier (#v[1, 0x80000000, 0, 0x80000001][i]) (#v[0, 0, 0xFFFFFFFF, 0][i])
      s.me.chunk = none ∧ Member s 1 2 quadBarrier ∧ (s.me.x 2).toNat < 2 ^ 32 ∧ s.me.wait = none) ∧
    k (atBarrier 1 0) = 1 ∧ k (atBarrier 0x80000000 0) = 2 ^ 31 ∧ k (atBarrier 0 0xFFFFFFFF) = 1 ∧ k (atBarrier 0x80000001 0) = 2 ^ 31 + 1 ∧
    (let s := ((atBarrier 1 0).upd fun c => { c with wait := some .barrier }).setCore 0 0 { Core.reset with
        istore := memWrite [] 0 (bytesOf 4 ((encode (.barwt 2 1 2)).getD 0).toNat) }
     s.me.wait = some .barrier ∧ s.instrAt s.cur = some (.barwt 2 1 2) ∧ Member s 1 2 quadBarrier) := by
  unfold Member Selects IsMember
  decide +kernel

/-- The address of an operation at the event unit of quad 0 of die 0. -/
def evuAt (op : EvuOp) : State := (scalar (BitVec.ofNat 64 (0x110000000000 + evuOffset op)) 0 0).setQuad 0 0 { Quad.reset with evu := { Evu.reset with
  lines := Evu.reset.lines.set 31 0xFFFF
  bars := Evu.reset.bars.set 7 ⟨31, 30, 0xFFFFFFFF, Vector.replicate 18 0⟩
  mutexes := Evu.reset.mutexes.set 7 (some (0, 0)) } }

theorem witness_EventUnitOperations : ([.wait 31, .take 31, .drain 31, .peek 31, .clear 31, .arrive 7, .barWait 7, .poll 7, .set 6 31, .lock 6, .try1 7,
    .unlock 7, .owner 7].all fun op => let s := evuAt op
      decide (s.me.chunk = none ∧ s.me.evld = none ∧ s.me.wait = none ∧ s.me.sup = true ∧ s.me.csr.ptroot.getLsbD 0 = false ∧
        (∀ k : Fin 16, s.rngb[k].getLsbD 0 = false) ∧ s.me.accs = [] ∧ s.me.vecs = [] ∧ s.net = [] ∧
        (s.me.x 1).toNat = 0x110000000000 + 0x200000 * s.cur.die.val + 0x10000 * s.cur.quad + evuOffset op ∧
        (s.quad s.cur.die s.cur.quad).evu.queue = [] ∧
        (evuEffect (s.quad s.cur.die s.cur.quad).evu (evuIndex s.cur) (unitInQuad s.cur.unit.val, s.cur.slot.val) op).isSome = true)) = true := by
  decide +kernel

theorem witness_EventLines :
    let e : EvldReq := ⟨64 * 31 + 8, 4, false⟩
    let s := (machine core0 fun c => { c with
      evld := some e
      wait := some .eventUnit })
    let q := s.setQuad 0 0 { Quad.reset with evu := { Evu.reset with
      lines := Evu.reset.lines.set 31 1
      queue := [core0]
      signals := [31] } }
    ((s.ctx core0).chunk = none ∧ (s.ctx core0).wait = some .eventUnit ∧ (s.ctx core0).evld = some e ∧ (s.quad 0 0).evu.lines[31] = 0 ∧
      (s.quad 0 0).evu.queue = []) ∧
    ((q.ctx core0).evld = some e ∧ (q.quad 0 0).evu.queue = [core0] ∧ (q.quad 0 0).evu.lines[31] ≠ 0 ∧ (q.quad 0 0).evu.signals = [31]) ∧
    (let m := scalar (BitVec.ofNat 64 ((scalar 0 0 0).pkg.toNat * 2 ^ 14 + 7 * 2 ^ 10 + 128 + 31)) 31 0
     m.me.chunk = none ∧ m.me.sealing = false ∧ m.me.accs = [] ∧ m.me.vecs = [] ∧ m.net = [] ∧
       (m.me.x 1).toNat = m.pkg.toNat * 2 ^ 14 + 7 * 2 ^ 10 + 128 + 31 ∧ (m.me.x 2).toNat = 31) ∧
    32 ≤ ((scalar 0 32 0).me.x 2).toNat ∧ (scalar 0 32 0).me.sealing = false ∧ MayTrap (scalar 0 32 0) := by
  unfold MayTrap
  decide +kernel

theorem witness_CompletionsOfAccesses :
    ((machine core0 fun c => { c with accs := [⟨false, Flags.nx⟩] }).ctx core0).accs = [⟨false, Flags.nx⟩] ∧
    (let s := machine core0 fun c => { c with vecs := [⟨true, false, false, some 1, [], none⟩] }
     (s.ctx core0).vecs = [⟨true, false, false, some 1, [], none⟩]) := by decide +kernel

/-! ### The vector unit -/

theorem witness_VectorConfiguration :
    OnCore (scalar 1024 0 0) ∧ (scalar 1024 0 0).me.vecs = [] ∧ Tag.lns8.code = (12 : BitVec 5).toNat ∧ Tag.untagged.code = (0 : BitVec 5).toNat ∧
    (let s := machine core0 fun c => { c with vecs := [⟨true, false, false, none, [], none⟩] }
     OnCore s ∧ s.me.vecs ≠ []) := by
  unfold OnCore
  decide +kernel

/-- Operands of 256 elements of 32 bits, the most that R137 allows. -/
def full : State := vector 256 (i32s [1, 2]) (i32s [3, 4]) (i32s [5, 6])

theorem witness_VectorIntegerArithmetic :
    OnCore full ∧ Tag.i32.family = some .signed ∧ 0 < full.me.csr.vl ∧
    (arithOf (.vadd 3 1 2 0 0) = some (.add, 3, 1, some (2, 0), 0) ∧ ArithLegal full .add 3 1 (second full 1 (some (2, 0))) false false .i32 4) ∧
    (arithOf (.vfma 3 1 2 0 0) = some (.fma, 3, 1, some (2, 0), 0) ∧ ArithLegal full .fma 3 1 (second full 1 (some (2, 0))) false false .i32 4) ∧
    (arithOf (.vshl 3 1 2 0 1) = some (.shl, 3, 1, some (2, 1), 0) ∧ ArithLegal full .shl 3 1 (second full 1 (some (2, 1))) true false .i32 4) ∧
    arithOf (.vabs 3 1 0) = some (.abs, 3, 1, none, 0) ∧ ArithLegal full .abs 3 1 (second full 1 none) false true .i32 4 := by
  unfold OnCore
  dsimp only [ArithLegal, takes, ResultType]
  and_intros <;> first | rfl | decide +kernel

theorem witness_VectorArithmetic_each : ([.vadd 3 1 2 0 0, .vsub 3 1 2 0 0, .vmul 3 1 2 0 0, .vfma 3 1 2 0 0, .vmulh 3 1 2 0 0, .vadds 3 1 2 0 0,
    .vsubs 3 1 2 0 0, .vmin 3 1 2 0 0, .vmax 3 1 2 0 0, .vand 3 1 2 0 0, .vor 3 1 2 0 0, .vxor 3 1 2 0 0, .vshl 3 1 2 0 0, .vshr 3 1 2 0 0,
    .vabs 3 1 0, .vneg 3 1 0, .vrcp 3 1 0, .vrsq 3 1 0, .vexp2 3 1 0, .vlog2 3 1 0].all fun i => (arithOf i).isSome) = true := by decide +kernel

def asTag (t : Tag) (v : VReg) : VReg := { v with tag := t }

/-- FP32 in v1, an untagged v2, and LNS8 operands. -/
def floats : State := vector 256 (asTag .fp32 (i32s [0x3F800000])) VReg.zero VReg.zero
def logs : State := vector 1024 (asTag .lns8 (i32s [0x40])) (asTag .lns8 (i32s [0x40])) VReg.zero

theorem witness_VectorFloatArithmetic :
    OnCore floats ∧ Tag.fp32.fmt = some fp32 ∧ 0 < floats.me.csr.vl ∧
    (arithOf (.vadd 3 1 2 0 0) = some (.add, 3, 1, some (2, 0), 0) ∧ ArithLegal floats .add 3 1 (second floats 1 (some (2, 0))) false false .fp32 4) ∧
    arithOf (.vexp2 3 1 0) = some (.exp2, 3, 1, none, 0) ∧ ArithLegal floats .exp2 3 1 (second floats 1 none) false true .fp32 4 := by
  unfold OnCore
  dsimp only [ArithLegal, takes, ResultType]
  and_intros <;> first | rfl | decide +kernel

theorem witness_ResultType : ResultType [.i32, .i8] .i32 ∧ ResultType [.fp16, .bf16] .fp32 ∧ ResultType [.untagged, .n8] .n8 := by
  unfold ResultType
  decide

theorem witness_LogarithmicMultiply :
    let s := { logs with cur := core0 }.upd fun c => { c with vregs := c.vregs.set 3 (asTag .lns8 (i32s [])) }
    OnCore s ∧ (s.me.v 1).tag = .lns8 ∧ (s.me.v 2).tag = .lns8 ∧ (s.me.v 3).tag = .lns8 ∧ 0 < s.me.csr.vl ∧ s.me.csr.vl ≤ 1024 ∧ s.me.rst = 0 := by
  unfold OnCore
  decide +kernel

/-- Integer registers, and a float compared with a scalar. -/
theorem witness_VectorCompares :
    (OnCore full ∧ ResultType [(full.me.v 1).tag, (second full 1 (some (2, 0))).tag] .i32 ∧ Tag.i32 ≠ .lns8 ∧
      4 = max Tag.i32.width (max (full.me.v 1).tag.width (second full 1 (some (2, 0))).tag.width) ∧ full.me.csr.vl * 4 ≤ 1024) ∧
    (OnCore floats ∧ ResultType [(floats.me.v 1).tag, (second floats 1 (some (2, 1))).tag] .fp32 ∧ (floats.me.v 1).tag ≠ .untagged ∧
      floats.me.csr.vl * 4 ≤ 1024) := by
  unfold OnCore ResultType
  decide +kernel

/-- A slide by a scalar and by a register, a gather, and a destination that is the source. -/
theorem witness_VectorPermutes :
    let s := full
    let T := (s.me.v 1).tag
    OnCore s ∧ s.me.vecs = [] ∧ 0 < s.me.csr.vl ∧ (s.me.v 3).tag ≠ .untagged ∧ s.me.csr.vl * (s.me.v 3).tag.width ≤ 1024 ∧ T ≠ .untagged ∧
    slideBy s 1 1 0 0 ∧ slideBy s 2 0 3 4 ∧ s.me.csr.vl * max T.width 4 ≤ 1024 ∧ s.me.csr.vl * max T.width 0 ≤ 1024 ∧
    (s.me.v 2).tag.family = some .signed ∧ (s.me.v 3).tag.width = T.width := by
  unfold OnCore slideBy
  decide +kernel

theorem witness_VectorMoves :
    OnCore full ∧ 0 < full.me.csr.vl ∧ ((full.me.v 1).tag = .i32 ∧ (full.me.v 2).tag = .i32) ∧ full.me.csr.vl * Tag.i32.width ≤ 1024 ∧
    ((floats.me.v 2).tag = .untagged ∧ (floats.me.v 1).tag = .fp32) ∧ OnCore floats ∧
    (Tag.fp16.code = (9 : BitVec 4).toNat ∧ (full.me.v 1).tag ≠ .untagged ∧ full.me.csr.vl * max (full.me.v 1).tag.width Tag.fp16.width ≤ 1024) ∧
    Tag.i32.code = (3 : BitVec 5).toNat := by
  unfold OnCore
  decide +kernel

/-- The last element of a register of 32-bit elements; an older vector instruction that is not complete. -/
theorem witness_VectorInsertExtractIota :
    let s := full.upd (withRegs 255 7 0)
    OnCore s ∧ ((s.me.v 3).tag ≠ .untagged ∧ (s.me.x 1).toNat * (s.me.v 3).tag.width < 1024 ∧ toRun s.me.rst (s.me.v 3).tag.width (s.me.x 1).toNat = true) ∧
    s.me.vecs = [] ∧ (if (s.me.v 3).tag = .untagged then Tag.i32 else (s.me.v 3).tag).family = some .signed ∧ 0 < s.me.csr.vl ∧
    s.me.csr.vl * Tag.i32.width ≤ 1024 ∧ (full.upd fun c => { c with vecs := [⟨true, false, false, none, [], none⟩] }).me.vecs ≠ [] ∧ (if (floats.me.v 3).tag = .untagged then Tag.i32 else (floats.me.v 3).tag) = .i32 := by
  unfold OnCore
  decide +kernel

/-- Some active elements, of integers and of floats, and none. -/
theorem witness_ReductionsAndScans :
    let s := vector 2 (i32s [3, 0xFFFFFFFF]) (i32s []) (i32s [])
    OnCore s ∧ s.me.vecs = [] ∧ Addable (s.me.v 1).tag ∧ s.me.csr.vl * (s.me.v 1).tag.width ≤ 1024 ∧ 0 < s.me.csr.vl ∧
    terms s 1 0 (fun _ => true) ≠ [] ∧ terms s 1 1 (fun _ => true) = [] ∧ (vector 0 (i32s []) (i32s []) (i32s [])).me.csr.vl = 0 ∧
    OnCore floats ∧ Addable (floats.me.v 1).tag ∧ floats.me.csr.vl * (floats.me.v 1).tag.width ≤ 1024 := by
  unfold OnCore Addable
  decide +kernel

theorem witness_MaskOperations :
    let s := full.upd fun c => { c with masks := (c.masks.set 1 6).set 2 0 }
    OnCore s ∧ s.me.vecs = [] ∧ ((List.range 1).all fun e => !active s.me 1 e) = true ∧ active s.me 1 1 = true ∧ s.me.csr.vl ≤ s.me.csr.vl ∧
      ((List.range 256).all fun e => !active s.me 2 e) = true := by
  unfold OnCore
  decide +kernel

theorem witness_RefusedInstructions :
    (0x00FFFFFF : BitVec 32).toNat / 2 ^ 26 = 0 ∧ (0xBC000000 : BitVec 32).toNat / 2 ^ 26 = 0x2F ∧ (0xF8000000 : BitVec 32).toNat / 2 ^ 26 = 0x3E ∧
    (0xFC000000 : BitVec 32).toNat / 2 ^ 26 = 0x3F ∧
    (MayTrap (machine qcc0 id) ∧ encode (.vsetl 4 1) = some 0x60810000 ∧ 128 ≤ (machine qcc0 id).cur.unit.val ∧ (0x60810000 : BitVec 32).toNat / 2 ^ 26 = 0x18) ∧
    (MayTrap full ∧ OnCore full ∧ encode (.tgath 4 5) = some 0x9C042800 ∧ (0x9C042800 : BitVec 32).toNat / 2 ^ 26 = 0x27) ∧
    (let s := machine core0 fun c => { c with sup := false }
     MayTrap s ∧ s.me.sup = false) ∧
    (let s := vector 4 VReg.zero VReg.zero VReg.zero
     MayTrap s ∧ OnCore s ∧ (s.me.v 1).tag = .untagged ∧ (s.me.v 2).tag = .untagged ∧ (s.me.v 3).tag = .untagged) ∧
    (let s := vector 257 (i32s []) (i32s []) (i32s [])
     MayTrap s ∧ OnCore s ∧ 1024 < s.me.csr.vl * (s.me.v 1).tag.width) := by
  unfold MayTrap OnCore
  decide +kernel

/-! ### Vector memory -/

/-- Four elements of 32 bits at the end of DRAM, by base s1 and stride s2; v2 holds indices. -/
def gather (m : List Host.Cell) : State := { (vector 4 (i32s [1, 2, 3, 4]) (i32s [0, 4, 8, 12]) (i32s [])).upd (withRegs 0x7FFFFFFFF0 4 0) with mem := m }

theorem lanes (p : Nat → Prop) (h : p 0 ∧ p 1 ∧ p 2 ∧ p 3) (e : Nat) (he : e < 4) : p e := by
  match e, he with
  | 0, _ => exact h.1
  | 1, _ => exact h.2.1
  | 2, _ => exact h.2.2.1
  | 3, _ => exact h.2.2.2

theorem clear_gather (x : VecAccess) (hg : x.good) (hew : x.EW = 4) (hx : ∀ e, e < 4 → (x.ea e).toNat = 0x7FFFFFFFF0 + 4 * e) :
    x.Clear (gather []) := by
  have hf : OnCore (gather []) ∧ (gather []).me.chunk = none ∧ Flat (gather []) (gather []).me.sup (gather []).me.csr.ptroot := by
    unfold OnCore Flat
    decide +kernel
  refine ⟨hf.1, hf.2.1, hf.2.2, hg, by rw [hew]; decide +kernel, fun e he => ?_⟩
  have hv : (gather []).me.csr.vl = 4 := by decide +kernel
  have hd : (gather []).dramEnd = 0x8000000000 := by decide +kernel
  have h4 : e < 4 := by
    simp only [VecAccess.runs, Bool.and_eq_true, decide_eq_true_eq] at he
    omega
  rw [hx e h4, hew, hd]
  omega

theorem gather_idx : Indexes (gather []) 2 := by
  unfold Indexes
  decide +kernel

theorem witness_VectorLoads : ∀ i ∈ [Instr.vld 3 1 0 0 0 0 2, .vlds 3 1 2 0 0 0 0 2, .vldx 3 1 2 0 0 0 0 2],
    ∃ x, vecLoadOf (gather []) i = some x ∧ x.Clear (gather []) ∧ (gather []).poison = [] ∧ loadsOut (gather []) (gather []).cur < 31 := by
  intro i hi
  simp only [List.mem_cons, List.not_mem_nil, or_false] at hi
  rcases hi with rfl | rfl | rfl
  · exact ⟨_, rfl, clear_gather _ trivial rfl (lanes _ (by decide +kernel)), by decide +kernel⟩
  · exact ⟨_, rfl, clear_gather _ trivial rfl (lanes _ (by decide +kernel)), by decide +kernel⟩
  · exact ⟨_, rfl, clear_gather _ gather_idx rfl (lanes _ (by decide +kernel)), by decide +kernel⟩

theorem witness_VectorStores : ∀ i ∈ [Instr.vst 1 1 0 0 0 0 2, .vsts 1 1 2 0 0 0 0 2, .vstx 1 1 2 0 0 0 0 2],
    ∃ x, vecStoreOf (gather []) i = some x ∧ x.Clear (gather []) ∧ (gather []).me.sealing = false ∧ storesOut (gather []) (gather []).cur < 31 ∧
      (gather []).me.rin = 0 ∧ Memory.wf (gather []).mem = true := by
  intro i hi
  simp only [List.mem_cons, List.not_mem_nil, or_false] at hi
  rcases hi with rfl | rfl | rfl
  · exact ⟨_, rfl, clear_gather _ trivial rfl (lanes _ (by decide +kernel)), by decide +kernel⟩
  · exact ⟨_, rfl, clear_gather _ trivial rfl (lanes _ (by decide +kernel)), by decide +kernel⟩
  · exact ⟨_, rfl, clear_gather _ gather_idx rfl (lanes _ (by decide +kernel)), by decide +kernel⟩

/-- The four elements with a stride of 5: the second lies at no multiple of 4, nor do those above it. -/
def stray : State := (gather []).upd (withRegs 0x7FFFFFFFE0 5 0)

theorem fails_stray (x : VecAccess) (hg : x.good) (hew : x.EW = 4) (hx : ∀ e, e < 4 → (x.ea e).toNat = 0x7FFFFFFFE0 + 5 * e)
    (hr : x.runs stray 0 = true ∧ x.runs stray 1 = true) : x.Fails stray 1 := by
  have hf : OnCore stray ∧ MayTrap stray ∧ stray.me.vecs = [] ∧ Flat stray stray.me.sup stray.me.csr.ptroot := by
    unfold OnCore MayTrap Flat
    decide +kernel
  refine ⟨hf.1, hf.2.1, hf.2.2.1, hf.2.2.2, hg, by rw [hew]; decide +kernel, fun e he _ => ?_, hr.2, ?_, fun e he _ => ?_⟩
  · have hv : stray.me.csr.vl = 4 := by decide +kernel
    have hd : stray.dramEnd = 0x8000000000 := by decide +kernel
    have h4 : e < 4 := by
      simp only [VecAccess.runs, Bool.and_eq_true, decide_eq_true_eq] at he
      omega
    rw [hx e h4, hew, hd]
    omega
  · rw [hx 1 (by decide), hew]
    decide
  · obtain rfl : e = 0 := by omega
    rw [hx 0 (by decide), hew]

theorem witness_VectorLoads_trap : ∃ x, vecLoadOf stray (.vlds 3 1 2 0 0 0 0 2) = some x ∧ x.Fails stray 1 ∧ stray.poison = [] ∧ loadsOut stray stray.cur < 31 :=
  ⟨_, rfl, fails_stray _ trivial rfl (lanes _ (by decide +kernel)) (by decide +kernel), by decide +kernel⟩

theorem witness_VectorStores_trap : ∃ x, vecStoreOf stray (.vsts 1 1 2 0 0 0 0 2) = some x ∧ x.Fails stray 1 ∧ stray.me.sealing = false ∧
    storesOut stray stray.cur < 31 ∧ stray.me.rin = 0 ∧ Memory.wf stray.mem = true :=
  ⟨_, rfl, fails_stray _ trivial rfl (lanes _ (by decide +kernel)) (by decide +kernel), by decide +kernel⟩

theorem witness_VectorAtomics : ∀ i ∈ [Instr.vamoAdd 1 1 2 0 1 0 0, .vamoMin 1 1 2 0 1 0 0, .vamoMax 1 1 2 0 1 0 0],
    ∃ x op, vecAtomicOf (gather []) i = some (x, op) ∧ x.good ∧ (gather []).me.csr.vl * x.EW ≤ 1024 ∧ (gather []).me.vecs = [] ∧
      OnCore (gather []) ∧ Flat (gather []) (gather []).me.sup (gather []).me.csr.ptroot ∧
      ∀ e ∈ (List.range (gather []).me.csr.vl).filter (active (gather []).me x.km), (x.ea e).toNat % x.EW = 0 ∧ (x.ea e).toNat + x.EW ≤ (gather []).dramEnd := by
  have hd : ((gather []).me.v 1).tag.family = some .signed ∧ ((gather []).me.v 1).tag.width = 4 := by decide +kernel
  have hc : OnCore (gather []) ∧ Flat (gather []) (gather []).me.sup (gather []).me.csr.ptroot := by unfold OnCore Flat; decide +kernel
  intro i hi
  simp only [List.mem_cons, List.not_mem_nil, or_false] at hi
  rcases hi with rfl | rfl | rfl <;>
    exact ⟨_, _, rfl, ⟨⟨.inl hd.1, hd.2⟩, gather_idx⟩, by decide +kernel, by decide +kernel, hc.1, hc.2, by decide +kernel⟩

/-- A VAMO behind a vector instruction that is not complete. -/
theorem witness_VectorAtomics_waits :
    let s := (gather []).upd fun c => { c with vecs := [⟨true, false, false, none, [], none⟩] }
    (vecAtomicOf s (.vamoAdd 1 1 2 0 1 0 0)).isSome = true ∧ OnCore s ∧ s.me.chunk = none ∧ s.me.sealing = false ∧ s.me.vecs ≠ [] := by
  refine ⟨rfl, ?_⟩
  unfold OnCore
  decide +kernel

/-- A VAMO of which three elements are left, two of them at one address. -/
theorem witness_VectorAtomics_passes :
    let y : VamoRest := ⟨0, 4, .i32, 0, [(0x1000, 0x1000, 5), (0x1000, 0x1000, 7), (0x2000, 0x7FFFFFFFFC, 9)]⟩
    let v : VecPend := ⟨false, true, true, none, [], some y⟩
    let s := (gather []).upd fun c => { c with vecs := [v] }
    (s.ctx core0).vecs = v :: [] ∧ v.rest = some y ∧ y.tag ≠ .untagged ∧ (s.ctx core0).rin = 0 ∧ (s.ctx core0).chunk = none ∧ s.poison = [] ∧
      Memory.wf s.mem = true ∧ (∀ e ∈ y.elems, e.2.1 + y.ew ≤ s.dramEnd) ∧ (inPass y true).length = 2 ∧ (inPass y false).length = 1 := by
  decide +kernel

theorem witness_VectorAtomics_fadd :
    let s := (gather []).upd fun c => { c with vregs := c.vregs.set 1 (asTag .fp32 (i32s [0x3F800000])) }
    ∃ x op, vecAtomicOf s (.vamoFadd 1 1 2 0 1 0) = some (x, op) ∧ x.good ∧ s.me.csr.vl * x.EW ≤ 1024 := by
  refine ⟨_, _, rfl, ⟨by decide +kernel, ?_⟩, by decide +kernel⟩
  unfold Indexes
  decide +kernel

/-- Element 0 holds the expected value; it does not; no element armed. -/
theorem witness_GuardedSleep :
    let va : VReg := ⟨0x1000, .n64, 16⟩
    let s (x : Nat) (m : Nat) : State := { vector 1 va (i32s [x]) (i32s []) with mem := memWrite [] 0x1000 [7] }.upd fun c => { c with masks := c.masks.set 1 (BitVec.ofNat 1024 m) }
    (∀ i : Fin 3, let s := s (#v[7, 8, 7][i]) (#v[1, 1, 0][i])
      OnCore s ∧ s.me.chunk = none ∧ Flat s s.me.sup s.me.csr.ptroot ∧ s.poison = [] ∧ s.me.csr.vl ≤ 64 ∧ (s.me.v 1).tag = .n64 ∧
        (s.me.v 2).tag ∈ [Tag.i32, .n32, .i64, .n64] ∧
        ∀ e ∈ (List.range s.me.csr.vl).filter (active s.me 1), elemAt (s.me.v 1) 8 e % 4 = 0 ∧ elemAt (s.me.v 1) 8 e + 4 ≤ s.dramEnd) ∧
    littleEndian (s 7 1).mem 0x1000 4 = elemAt ((s 7 1).me.v 2) 4 0 ∧ littleEndian (s 8 1).mem 0x1000 4 ≠ elemAt ((s 8 1).me.v 2) 4 0 ∧
    (List.range (s 7 1).me.csr.vl).filter (active (s 7 1).me 1) = [0] ∧ (List.range (s 7 0).me.csr.vl).filter (active (s 7 0).me 1) = [] := by
  unfold OnCore Flat
  decide +kernel

/-! ### Forked loops -/

/-- A JOIN word at 0x20. -/
def joins (s : State) : State := s.setCore 0 0 { Core.reset with istore := memWrite [] 0x20 (bytesOf 4 0x90000300) }

/-- A loop of `trip` iterations, `n` each: outside a fork, and in a chunk. -/
def looping (trip n : Word) (ch : Option Chunk) : State := joins (machine core0 fun c => { withRegs trip n 0 c with chunk := ch })

def chunkOf (k : Nat) : Chunk where
  number := k
  incoming := []
  written := 0
  versions := []
  through := false
  sent := false
  trap := none
  request := none

/-- A fork of `count` chunks of which `started` have started; s1 is carried. -/
def forkOf (count started : Nat) : Fork where
  info := {
    addr := 0x100
    join := 0x120
    d := 4
    trip := 2 * count
    n := 2
    count := count
    oldest := 0
    base := 0
    lim := 16
    nopred := false
    fkliv := 2
    fkvec := 0
    awaited := 0
    preds := []
    regs := Vector.replicate 32 0
    vl := 0
    masks := Vector.replicate 8 0 }
  image := thread
  started := started
  kept := []
  given := []
  notices := []
  forwards := []
  flags := (0, 0)
  token := none
  handover := none
  due := none
  conflict := []

/-- The fork of slot 0 of the first ring. -/
def fork0 : ForkId := ⟨0, 0, 0⟩

/-- The machine with such a fork and the given chunks on their cores. -/
def forked (x : Fork) (cs : List Chunk) : State :=
  cs.foldl (fun s ch => s.setCtx (fork0.coreAt ch.number) { thread with chunk := some ch }) ((machine core0 id).setFork fork0 x)

/-- No iteration, one chunk, a shorter last chunk; in a chunk; and a local fork at its last chunk and before it. -/
theorem witness_ForkLoops :
    (∀ i : Fin 3, let s := looping (#v[0, 1, 5][i]) 4 none
      OnCore s ∧ s.me.inner = none ∧ s.me.joinPhase = false ∧ (BitVec.ofNat 64 (s.me.pc.toNat + 4 * (8 : BitVec 8).toNat)).toNat < limit s.cur ∧
        wordAt s (BitVec.ofNat 64 (s.me.pc.toNat + 4 * (8 : BitVec 8).toNat)).toNat = 0x90000300 ∧ (s.me.x 2).toNat ≠ 0 ∧ s.me.chunk = none ∧
        Settled s.me ∧ s.me.csr.fkliv.getLsbD 4 = false) ∧
    (looping 1 4 (some (chunkOf 0))).me.chunk = some (chunkOf 0) ∧
    (∀ i : Fin 2, let k : InnerFork := ⟨4, 8, 4, 2, i.val, 4, 0x20, false⟩
      OnCore (machine core0 fun c => { c with inner := some k }) ∧ (machine core0 fun c => { c with inner := some k }).me.inner = some k ∧ k.joining = false ∧ (i = 0 → k.number + 1 < k.count) ∧ (i = 1 → k.count ≤ k.number + 1)) ∧
    (let k : InnerFork := ⟨4, 8, 4, 2, 1, 4, 0x20, true⟩
     let s := machine core0 fun c => { c with
       inner := some k
       joinFirst := true
       pc := 0x20 }
     s.me.inner = some k ∧ k.joining = true ∧ s.me.joinFirst = true ∧ s.me.pc = k.join) := by
  unfold OnCore Settled
  decide +kernel

/-- A JOIN of a local fork that is not in its join phase, one elsewhere than at the label, one outside any fork, and one at the label
that is not the first instruction there. -/
theorem witness_ForkLoops_refused :
    let k (joining : Bool) : InnerFork := ⟨4, 8, 4, 2, 1, 4, 0x20, joining⟩
    let s (j : Bool) := machine core0 fun c => { c with inner := some (k j) }
    let at_ (pc : Word) := (machine core0 fun c => { c with
      joinPhase := true
      pc := pc }).setFork fork0 (forkOf 1 1)
    ((s false).me.inner = some (k false) ∧ MayTrap (s false)) ∧ ((s true).me.pc ≠ (k true).join ∧ MayTrap (s true)) ∧
    ((at_ 0x40).fork ((at_ 0x40).forkIdOf core0) = some (forkOf 1 1) ∧ (at_ 0x40).me.pc ≠ (forkOf 1 1).info.join ∧ MayTrap (at_ 0x40)) ∧
    ((scalar 0 0 0).fork ((scalar 0 0 0).forkIdOf core0) = none ∧ MayTrap (scalar 0 0 0)) ∧
    (at_ 0x120).me.joinFirst = false ∧ (at_ 0x120).me.pc = (forkOf 1 1).info.join ∧ MayTrap (at_ 0x120) := by
  unfold MayTrap
  decide +kernel

/-- A chunk with one version, of a stored byte. -/
def stored (ch : Chunk) (rd : Bool) : Chunk := { ch with versions := [{
    sector := 0x40
    w := true
    bm := 1
    rd := rd
    sc := 1
    sup := none
    data := 0xAB }] }

theorem witness_ForkEnds :
    (∀ i : Fin 2, let x := forkOf (1 + i.val) 1
      let s := forked x [stored (chunkOf 0) false]
      Runs s x (stored (chunkOf 0) false) ∧ Settled s.me ∧ s.me.sealing = false ∧ s.me.rin = 0 ∧ (stored (chunkOf 0) false).number = x.info.oldest ∧
        Memory.wf s.mem = true ∧ (i = 0 → x.info.count ≤ 0 + 1) ∧ (i = 1 → 0 + 1 < x.info.count)) ∧
    (let x := { forkOf 2 2 with
       token := some 1
       handover := some thread }
     let s := forked x [chunkOf 1]
     s.fork fork0 = some x ∧ x.token = some 1 ∧ x.handover = some thread ∧ x.quiet = true ∧ 1 < x.started ∧
       ((s.ctx (s.chunkCtx fork0 x 1)).chunk.map (·.trap)).getD none = none ∧ (s.ctx (s.chunkCtx fork0 x 1)).chunk = some (chunkOf 1)) ∧
    (let c := { chunkOf 1 with trap := some ⟨0x0B, 5, 0x44, 0⟩ }
     let s := forked { forkOf 2 2 with
       token := some 1
       handover := some thread } [c]
     let u := s.chunkCtx fork0 (forkOf 2 2) 1
     (s.ctx u).chunk = some c ∧ c.through = false ∧ thread.rin = 0 ∧ (s.ctx u).csr.exl = false ∧ (handler (s.ctx u) false).toNat < limit u) ∧
    (let s := (machine core0 fun c => { c with
       joinPhase := true
       joinFirst := true
       pc := 0x120 }).setFork fork0 (forkOf 1 1)
     OnCore s ∧ s.me.inner = none ∧ s.fork (s.forkIdOf s.cur) = some (forkOf 1 1) ∧ s.me.joinPhase = true ∧ s.me.joinFirst = true ∧
       s.me.pc = (forkOf 1 1).info.join) := by
  unfold Runs OnCore Settled
  decide +kernel

/-- FWD in a chunk and in the last. -/
theorem witness_ForkForwards :
    (∀ i : Fin 2, let x := forkOf (2 - i.val) 1
      let s := forked x [chunkOf 0]
      Runs s x (chunkOf 0) ∧ x.info.fkliv.getLsbD (1 : BitVec 5).toNat = true ∧ (i = 0 → 0 + 1 < x.info.count) ∧ (i = 1 → x.info.count ≤ 0 + 1)) ∧
    OnCore (scalar 0 0 0) ∧ (scalar 0 0 0).me.chunk = none ∧ (scalar 0 0 0).me.inner = none := by
  unfold Runs OnCore
  decide +kernel

/-- A value on its way: to a chunk to be unpicked, to one not started, one that waits for it, one that has used it, one that has used another. -/
theorem witness_ForkForwards_arrivals : ∀ i : Fin 5,
    let w : Forward := ⟨1, 1, 9, i = 1⟩
    let x := { forkOf 3 (#v[2, 1, 2, 2, 2][i]) with
      forwards := [w]
      due := if i = 0 then some (1, .mem, none) else none }
    let had := #v[Incoming.await, .await, .await, .pred 9, .pred 8][i]
    let ch := { chunkOf 1 with incoming := [(1, had)] }
    let s := forked x [chunkOf 0, ch]
    s.fork (s.forkIdOf s.cur) = some x ∧ x.forwards = [w] ∧ (s.ctx (s.chunkCtx fork0 x w.target)).chunk = some ch ∧
      x.stopped w.target = decide (i = 0) ∧ (i = 1 → x.started ≤ w.target) ∧ (2 ≤ i.val → w.target < x.started) ∧
      (ch.incoming.find? fun p => decide (p.1 = w.reg)) = some (w.reg, had) ∧ (i = 3 → used had = some w.value) ∧
      (i = 4 → used had = some 8 ∧ (8 : Word) ≠ w.value) := by
  decide +kernel

/-- Sixteen version lines of one set, which leave no way. -/
def fullSet (ch : Chunk) : Chunk := { ch with
  request := some (256 * 16, true)
  versions := (List.range 16).map fun i => {
    sector := 256 * i
    w := false
    bm := 0
    rd := true
    sc := 0
    sup := none
    data := 0 } }

theorem witness_ChunkEvents_start :
    let x := forkOf 3 1
    let s := forked x [chunkOf 0]
    s.fork fork0 = some x ∧ x.started = 1 ∧ 1 < x.info.count ∧ 1 < x.sewn + s.effLimit fork0 x ∧ 1 < x.sewn + s.ringLen fork0.die fork0.quad.val ∧ x.due = none ∧
      (s.ctx (s.chunkCtx fork0 x 1)).status = .free ∧ (s.ctx (s.oldestCtx fork0 x)).status = .live ∧ x.kept = [] ∧ x.given = [] := by decide +kernel

theorem witness_ChunkEvents_version :
    let x := forkOf 3 2
    let ch := { chunkOf 1 with request := some (0x40, true) }
    let s := forked x [chunkOf 0, ch]
    let u := fork0.coreAt 1
    s.forkIdOf u = fork0 ∧ (s.ctx u).chunk = some ch ∧ (0x1000 : BitVec 48).toNat / 64 = 0x40 ∧ s.wayFor u ch 0x40 = true ∧ x.stopped ch.number = false ∧
      x.sewn = 0 ∧ ch.number = 1 ∧ (s.ctx (s.chunkCtx fork0 x 0)).chunk = some (chunkOf 0) ∧ (chunkOf 0).versions = [] ∧
      s.isPoisoned (64 * 0x40) 64 = false := by decide +kernel

/-- A notice that comes from no chunk at a chunk that has read the sector, and one from chunk 0 at one that has not. -/
theorem witness_ChunkEvents_notice : ∀ i : Fin 2,
    let m : Notice := ⟨1, 0x40, 2, 0xCD00, if i = 0 then none else some (0, 1)⟩
    let x := { forkOf 3 2 with notices := [m] }
    let ch := stored (chunkOf 1) (i = 0)
    let s := forked x [chunkOf 0, ch]
    s.fork fork0 = some x ∧ x.notices = [m] ∧ m.target < x.started ∧ (s.ctx (s.chunkCtx fork0 x m.target)).chunk = some ch ∧
      (ch.versions.map fun v => (v.sector, v.rd)) = [(m.sector, decide (i = 0))] ∧ (ch.versions.map fun v => decide (m.mask &&& ~~~v.bm ≠ 0)) = [true] := by
  decide +kernel

theorem witness_ChunkEvents_conflict :
    let x := { forkOf 3 2 with conflict := [0x40] }
    let ch := stored (chunkOf 1) true
    let s := forked x [chunkOf 0, ch]
    s.fork fork0 = some x ∧ (0x1000 : BitVec 48).toNat / 64 ∈ x.conflict ∧ x.info.oldest = 0 ∧ 1 < x.started ∧ (s.ctx (s.chunkCtx fork0 x 1)).chunk = some ch := by
  decide +kernel

theorem witness_ChunkEvents_unpick :
    let x := { forkOf 3 2 with due := some (1, .mem, none) }
    let s := forked x [chunkOf 0, chunkOf 1]
    s.fork fork0 = some x ∧ x.due = some (1, .mem, none) ∧ 1 < x.started := by decide +kernel

/-- An oldest chunk without a way, beside a chunk of the fork of slot 1 that is not its fork's oldest. -/
theorem witness_ChunkEvents_reclaim :
    let f1 : ForkId := ⟨0, 0, 1⟩
    let mate : CtxId := mkCtxId 0 0 1
    let x := { forkOf 3 2 with info := { (forkOf 3 2).info with base := 15 } }
    let s := ((forked (forkOf 1 1) [fullSet (chunkOf 0)]).setFork f1 x).setCtx mate { thread with chunk := some (fullSet (chunkOf 1)) }
    s.fork f1 = some x ∧ s.fork (s.forkIdOf core0) = some (forkOf 1 1) ∧ (s.ctx core0).chunk = some (fullSet (chunkOf 0)) ∧
      (fullSet (chunkOf 0)).number = (forkOf 1 1).info.oldest ∧ (fullSet (chunkOf 0)).request = some (256 * 16, true) ∧ 0 = 256 * 16 / 2 % 128 ∧
      s.wayFor core0 (fullSet (chunkOf 0)) (256 * 16) = false ∧ s.wayVictim 0 (slotMates core0) none = some (mate, 1, 1) ∧ s.forkIdOf mate = f1 ∧
      exec (.l1WayReclaim core0 0) s = .next (s.setFork f1 { x with due := some (1, .cap, none) }) := by
  and_intros <;> rfl

/-- The issuing context runs chunk `k` of a fork whose oldest chunk is 0, with s1, s2 and s3 set. -/
def inChunk (k : Nat) (ch : Chunk) (a b : Word) : State :=
  { forked (forkOf 4 3) ((List.range 3).map fun j => if j = k then ch else chunkOf j) with cur := fork0.coreAt k }.upd (withRegs a b 0)

/-- Loads and stores of 4 bytes at 0x1000: with a version, without one, by the oldest chunk and by a basted one. -/
theorem witness_ChunkLoads : ∀ i : Fin 4,
    let k := i.val % 2
    let ch := if i.val < 2 then stored (chunkOf k) true else chunkOf k
    let s := inChunk k ch 0x1000 7
    (Runs s (forkOf 4 3) ch ∧ mapping (s.check (s.viewer s.cur) .load true (address s 1 0) 4) = some (flatMap 0x1000) ∧
      mapping (s.check (s.viewer s.cur) .store true (address s 1 0) 4) = some (flatMap 0x1000) ∧ 0x1000 < s.dramEnd) ∧
    (s.me.sealing = false ∧ storesOut s s.cur < 31 ∧ ch.through = false ∧ s.isPoisoned 0x1000 4 = false ∧
      (ch.versions.find? fun w => decide (w.sector = 0x40)).isSome = decide (i.val < 2) ∧
      decide (ch.number = (forkOf 4 3).info.oldest) = decide (k = 0)) ∧
    (loadOf (.ldwu 4 1 0)).isSome = true ∧ (storeOf (.stw 2 1 0)).isSome = true := by
  unfold Runs OnCore
  decide +kernel

/-- A store of a chunk that has been sewn through; an ADD-like atomic, NSPEC and two traps of a basted chunk and of the oldest. -/
theorem witness_ChunkStores_through :
    let ch := { chunkOf 0 with through := true }
    let s := inChunk 0 ch 0x1002 7
    Runs s (forkOf 4 3) ch ∧ ch.through = true ∧ s.me.rin = 0 ∧ s.me.sealing = false ∧ ch.number = (forkOf 4 3).info.oldest ∧ s.me.csr.exl = false ∧
      (handler s.me false).toNat < limit s.cur ∧ (address s 1 0).toNat % 4 ≠ 0 := by
  unfold Runs OnCore
  decide +kernel

theorem witness_ChunkIrrevocables : ∀ i : Fin 2,
    let ch := chunkOf i.val
    let s := inChunk i.val ch 0x1002 7
    Runs s (forkOf 4 3) ch ∧ s.me.sealing = false ∧ (decide (ch.number = (forkOf 4 3).info.oldest)) = decide (i = 0) ∧ ch.through = false ∧
      s.me.rin = 0 ∧ Memory.wf s.mem = true ∧ s.me.wait = none ∧ (s.upd fun c => { c with wait := some .poll }).me.wait ≠ none ∧
      (address s 1 0).toNat % 4 ≠ 0 := by
  unfold Runs OnCore
  decide +kernel

/-- One instruction of each of the kinds that a basted chunk waits at. -/
theorem witness_ChunkIrrevocables_each : ∀ j ∈ [Instr.dsbind 3 1 2, .sendt 3 1 2 0, .vscfl, .cpy 5 1 2 3, .amoadd 4 1 2 0 0 0, .evld 4 1, .evsig 1 2, .rcommit, .csrw 4 1 2],
    Irrevocable (inChunk 1 (chunkOf 1) 0x1002 7) j := by
  have hs : (inChunk 1 (chunkOf 1) 0x1002 7).me.binding = none ∧ (inChunk 1 (chunkOf 1) 0x1002 7).net = [] ∧
      (inChunk 1 (chunkOf 1) 0x1002 7).me.evld = none ∧ (inChunk 1 (chunkOf 1) 0x1002 7).me.sup = true := by decide +kernel
  intro j hj
  simp only [List.mem_cons, List.not_mem_nil, or_false] at hj
  rcases hj with rfl | rfl | rfl | rfl | rfl | rfl | rfl | rfl | rfl
  · exact .inl ⟨3, 1, 2, 0, 0, 0, 0, .inl ⟨hs.1, rfl⟩⟩
  · exact .inl ⟨3, 1, 2, 0, 0, 0, 0, .inr (.inl ⟨by rw [hs.2.1]; decide, rfl⟩)⟩
  · exact .inl ⟨0, 0, 0, 0, 0, 0, 0, .inr (.inr (by decide))⟩
  · exact .inr (.inl ⟨5, 1, 2, 3, by decide⟩)
  · exact .inr (.inr (.inl ⟨4, 1, 2, 0, 0, 0, by decide⟩))
  · exact .inr (.inr (.inr (.inl ⟨4, 1, 0, 0, 0, .inl ⟨hs.2.2.1, rfl⟩⟩)))
  · exact .inr (.inr (.inr (.inl ⟨1, 2, 0, 0, 0, .inr (by decide)⟩)))
  · exact .inr (.inr (.inr (.inr (.inl ⟨0, 0, hs.2.2.2, by decide⟩))))
  · exact .inr (.inr (.inr (.inr (.inr ⟨4, 1, 2, by decide, .inl rfl⟩))))
/-! ### Tile instructions and operations -/

/-- A QCC thread with s1, s2, formats and pitch, its latch loaded with rows of 256 bytes. -/
def tile (a b : Word) (tfmt : BitVec 12) (apitch : Word) : State := machine qcc0 fun c => { withRegs a b 0 c with
  csr := { c.csr with
    tfmt := tfmt
    apitch := apitch }
  tile := { c.tile with
    lv := true
    llen := 256 } }

theorem witness_TileInstructions_queue :
    (let s := tile 0x3FFF80 0x3FFFF8 0 0
     TileReady s ∧ (s.me.x 1).toNat % 2 = 0 ∧ (s.me.x 1).toNat + 128 ≤ 0x400000 ∧ (s.me.x 2).toNat % 8 = 0 ∧ (s.me.x 2).toNat < 0x400000) ∧
    (let s := tile 0 0 0x300 0
     TileReady s ∧ s.me.csr.tfmt.toNat / 16 ^ 2 % 16 ≠ 0) ∧
    (let s := tile (0x400000 - 64 * 64) 0 0 (64 * 2 ^ 32)
     let sp := s.me.csr.apitch.toNat / 2 ^ 32 % 2 ^ 16
     TileReady s ∧ Tag.i8.code = (1 : BitVec 4).toNat ∧ s.me.sealing = false ∧ (s.me.x 1).toNat % Tag.i8.width = 0 ∧ sp % Tag.i8.width = 0 ∧ 64 * Tag.i8.width ≤ sp ∧
       (s.me.x 1).toNat + 63 * sp + 64 * Tag.i8.width ≤ 0x400000) ∧
    (let s := tile 31 0 0 0
     TileReady s ∧ (s.me.x 1).toNat ≤ 31 ∧ (s.me.x 1).toNat ≠ s.cur.quad ∧ s.partOf s.cur.die (s.me.x 1).toNat = s.partOfCtx s.cur) := by
  unfold TileReady
  decide +kernel

/-- TMMA of I8 and of LNS8 at their largest K, the operand ending at the end of QSPM. -/
theorem witness_TileInstructions_mma :
    let ok (s : State) (a : Nat) : Prop :=
      TileReady s ∧ shapeOf (s.me.csr.tfmt.toNat % 16) (s.me.csr.tfmt.toNat / 16 % 16) (s.me.csr.tfmt.toNat / 256 % 16) = some (32, 256, 1) ∧
        s.me.csr.tfmt.toNat % 16 = a ∧ 32 ≤ (s.me.x 2).toNat ∧ (s.me.x 2).toNat ≤ 256 ∧ (s.me.x 2).toNat % 32 = 0 ∧ s.me.tile.lv = true ∧
        (s.me.x 2).toNat * 1 ≤ s.me.tile.llen ∧ s.me.tile.queue = [] ∧ s.me.tile.accs[1].live = false ∧ (s.me.x 1).toNat % 64 = 0 ∧
        (s.me.x 1).toNat + (kept (tileMask s.me.tile 0) (s.me.x 2).toNat).length * 64 * 1 ≤ 0x400000
    ok (tile (0x400000 - 256 * 64) 256 0x311 0) 1 ∧ ok (tile (0x400000 - 256 * 64) 256 0xBCC 0) 12 ∧
      ScaleFits (tile 0 0 0xBCC 0).me.csr.scla ∧ ScaleFits 0x80000000003FFF00 := by
  unfold TileReady ScaleFits
  decide +kernel

theorem witness_TileInstructions_rest :
    (let s := tile (0x400000 - 32) 4095 0 0
     TileReady s ∧ s.poison = [] ∧ (s.me.x 1).toNat % 32 = 0 ∧ (s.me.x 1).toNat + 32 ≤ 0x400000 ∧ (s.me.x 2).toNat ≤ 4095 ∧ s.me.tile.queue = []) ∧
    (let s := tile 63 1 0 0
     TileReady s ∧ s.me.chunk = none ∧ (s.me.x 1).toNat < 64 ∧ (s.ctx (mkCtxId 0 (128 + 63 % 32) (63 / 32))).tile.tln.toNat < (s.me.x 2).toNat) ∧
    (let s := tile 63 0 0 0
     (s.me.x 2).toNat ≤ (s.ctx (mkCtxId 0 (128 + 63 % 32) (63 / 32))).tile.tln.toNat) := by
  unfold TileReady
  decide +kernel

/-- One queued operation. -/
def opOf (k : TileKind) : TileOp where
  num := if k = .zero then none else some 1
  order := 0
  acc := 1
  kind := k
  started := false
  done := false
  flags := 0
  rows := none
  reads := []
  writes := []
  owed := []
  half := false

def queued (tfmt : BitVec 12) (apitch : Word) (k : TileKind) : State := (tile 0 0 tfmt apitch).upd fun c => { c with tile := { c.tile with
  queue := [opOf k]
  accs := c.tile.accs.set 1 ⟨true, true, 0⟩ } }

theorem witness_TileOperations :
    (let s := queued 0x300 0 .zero
     Alone s qcc0 (opOf .zero)) ∧
    (let s := queued 0 (256 * 2 ^ 16) (.gath 0x3FFF80 0)
     Alone s qcc0 (opOf (.gath 0x3FFF80 0)) ∧ (s.ctx qcc0).csr.apitch.toNat / 2 ^ 16 % 2 ^ 9 ≤ 256 ∧
       ∀ i < 64, 0 + 0 * i + (s.ctx qcc0).csr.apitch.toNat / 2 ^ 16 % 2 ^ 9 ≤ 0x400000) ∧
    (let s := queued 0x311 0 (.mma 0 256 (BitVec.allOnes 256) false)
     Alone s qcc0 (opOf (.mma 0 256 (BitVec.allOnes 256) false)) ∧ (s.ctx qcc0).csr.tfmt.toNat % 16 = 1 ∧ (s.ctx qcc0).csr.tfmt.toNat / 16 % 16 = 1 ∧
       (s.ctx qcc0).csr.tfmt.toNat / 256 % 16 = 3 ∧ (s.ctx qcc0).tile.accs[1].int = true) ∧
    (let s := queued 0 (64 * 2 ^ 32) (.st .i8 0)
     Alone s qcc0 (opOf (.st .i8 0)) ∧ 64 * Tag.i8.width ≤ (s.ctx qcc0).csr.apitch.toNat / 2 ^ 32 % 2 ^ 16 ∧ Memory.wf s.mem = true) := by
  unfold Alone
  decide +kernel

/-- A neighbour's accumulator is live and its partition runs; an operation that has run. -/
theorem witness_TileOperations_rest :
    (let v := mkCtxId 0 129 0
     let s := (queued 0x300 0 (.accr 1 none)).setCtx v { thread with tile := { thread.tile with accs := thread.tile.accs.set 1 ⟨true, true, 5⟩ } }
     Alone s qcc0 (opOf (.accr 1 none)) ∧ 1 < 32 ∧ 1 ≠ qcc0.quad ∧ (s.ctx v).tile.queue = [] ∧ (s.part (s.partOf 0 1)).pstate ≠ .switching ∧
       (s.part (s.partOf 0 1)).pstate ≠ .saved ∧ (s.ctx qcc0).tile.accs[1].live = true ∧ (s.ctx v).tile.accs[1].live = true ∧ (s.ctx v).tile.accs[1].int = true) ∧
    (let o := { opOf (.gath 0 0) with
       started := true
       rows := some 7 }
     o.started = true ∧ o.done = false ∧ o.unserved = none ∧ o.owed = []) := by
  unfold Alone
  decide +kernel

/-- A TMMA of a format into an accumulator of integers or of floats, over some scale records at the start of QSPM. -/
def multiplies (tfmt : BitVec 12) (int late : Bool) (scales : List Byte) : State :=
  { (queued tfmt 0 (.mma 64 32 (BitVec.allOnes 256) late)).upd (fun c => { c with tile := { c.tile with accs := c.tile.accs.set 1 ⟨true, int, 0⟩ } }) with
    mem := memWrite [] 0x100000000000 scales }

/-- BF16, FP16 and LNS8 products; a mismatch found at the start; a scale exponent of 100. -/
theorem witness_MatrixProducts :
    let op (late : Bool) := opOf (.mma 64 32 (BitVec.allOnes 256) late)
    (∀ i : Fin 3, let s := multiplies (#v[0xBAA, 0xB99, 0xBCC][i]) false false []
      Alone s qcc0 (op false) ∧ shapeOf ((s.ctx qcc0).csr.tfmt.toNat % 16) ((s.ctx qcc0).csr.tfmt.toNat / 16 % 16) ((s.ctx qcc0).csr.tfmt.toNat / 256 % 16) =
        some (#v[(8, 128, 2), (8, 128, 2), (32, 256, 1)][i]) ∧ (s.ctx qcc0).tile.accs[1].int = false) ∧
    (let s := multiplies 0xBAA true true []
     Alone s qcc0 (op true) ∧ (s.ctx qcc0).tile.accs[1].live = true ∧ (s.ctx qcc0).tile.accs[1].int = true ∧ (s.ctx qcc0).tile.fault = none) ∧
    (let s := multiplies 0xBCC false false [0, 100]
     let byte (o : Nat) : Nat := (memGet s.mem (ownQspm qcc0 + o)).toNat
     Alone s qcc0 (op false) ∧ (s.ctx qcc0).csr.scla.getLsbD 63 = false ∧
       ¬(∀ q < 4, -32 ≤ scaleOf byte (s.ctx qcc0).csr.scla 0 q ∧ scaleOf byte (s.ctx qcc0).csr.scla 0 q ≤ 31)) := by
  unfold Alone
  decide +kernel

/-- Empty memory holds scale exponents 0. -/
theorem witness_MatrixProducts_scales :
    let s := multiplies 0xBCC false false []
    ScalesGood (fun o => (memGet s.mem (ownQspm qcc0 + o)).toNat) (s.ctx qcc0).csr.scla := by
  have hb : (fun o => (memGet (multiplies 0xBCC false false []).mem (ownQspm qcc0 + o)).toNat) = fun _ => 0 := by funext; rfl
  intro s r q _ _
  rw [show (fun o => (memGet s.mem (ownQspm qcc0 + o)).toNat) = fun _ => 0 from hb]
  exact ⟨by show -32 ≤ signedByte 0; decide, by show signedByte 0 ≤ 31; decide⟩

/-- TACCR of FP32 accumulators, of two formats, and of two that are not live. -/
theorem witness_AccumulatorReads : ∀ i : Fin 3,
    let v := mkCtxId 0 129 0
    let mine : Acc := ⟨i ≠ 2, false, 0⟩
    let other : Acc := ⟨i ≠ 2, i = 1, 5⟩
    let s := ((queued 0xBAA 0 (.accr 1 none)).upd fun c => { c with tile := { c.tile with accs := c.tile.accs.set 1 mine } }).setCtx v
      { thread with tile := { thread.tile with accs := thread.tile.accs.set 1 other } }
    Alone s qcc0 (opOf (.accr 1 none)) ∧ (s.ctx v).tile.queue = [] ∧ (s.part (s.partOf 0 1)).pstate ≠ .switching ∧ (s.part (s.partOf 0 1)).pstate ≠ .saved ∧
      (s.ctx qcc0).tile.accs[1] = mine ∧ (s.ctx v).tile.accs[1] = other ∧ (s.ctx qcc0).tile.fault = none := by
  unfold Alone
  decide +kernel
/-! ### Messages -/

/-- A slot bound to core 1 of this die with credit. -/
def bound (wc : Nat) : DSlot := { DSlot.unbound with
  ep := State.reset.endpoint 0 1
  bnd := true
  wc := wc
  pmax := 256 }

/-- A thread with slot 5 bound, at the last doubleword of DRAM. -/
def sender (a b c : Word) (wc : Nat) : State := machine core0 fun x => { withRegs a b c x with
  slots := x.slots.set 5 (bound wc)
  csr := { x.csr with slotcfg := 2 ^ 60 + 1 } }

/-- The largest SEND with its beats, and the least; neither is a release. -/
theorem witness_MessagesSent_send :
    (∀ i : Fin 2, let s := sender (#v[0x8000000000 - 4088, 0x1000][i]) (#v[4088, 8][i]) 0 64
     MaySend s true ∧ storesOut s s.cur < 31 ∧ loadsOut s s.cur < 31 ∧ LocalBytes s (s.me.x 1) (s.me.x 2).toNat ∧ 8 ≤ (s.me.x 2).toNat ∧ (s.me.x 2).toNat ≤ 4088 ∧
       Covers s s.cur (slotOf s.me 5) (beatsIn ((s.me.x 2).toNat + 8)) true) ∧
    (let s := sender 0x1000 8 0 64
     ∀ held, MayRelease s (slotOf s.me 5) held) := by
  refine ⟨?_, fun _ => ⟨(⟨rfl, rfl, fun _ h => nomatch (h : _ ∈ [])⟩ : Performed _ _ _), fun _ => ⟨(fun _ h => nomatch (h : _ ∈ [])), ?_⟩⟩⟩
  rotate_left
  · decide +kernel
  unfold MaySend LocalBytes Flat Covers
  decide +kernel

/-- A release that goes to the egress hold, after a request that is held there. -/
theorem witness_MessagesSent_held :
    let s0 := sender 0x1000 8 0 64
    let s := { s0 with net := [{ request s0 s0.cur 5 3 false false 1 (.put 0 [1]) with stage := .held 0 }] }
    MayRelease s (slotOf s.me 5) true := by
  refine ⟨(⟨rfl, rfl, fun r hr _ _ => ?_⟩ : Performed _ _ _), fun h => nomatch h⟩
  rw [List.mem_singleton.mp hr]
  exact .inl ⟨0, rfl⟩

/-- A SENDT in its cycle, before it, in a slot that is not its own, and after its phase. -/
theorem witness_MessagesSent_timed : ∀ i : Fin 4,
    let s := { sender 0x1000 8 0 64 with time := #v[1, 0, 16, 2][i] }
    let phase := s.me.csr.slotcfg.toNat / 2 ^ 60
    let own := s.me.csr.slotcfg.getLsbD (s.time / 16 % 64)
    (MaySend s false ∧ storesOut s s.cur < 31 ∧ loadsOut s s.cur < 31) ∧ (∀ r ∈ s.net, r.src = some (.here s.cur) → ∀ k, r.stage ≠ .timed k) ∧
      LocalBytes s (s.me.x 1) (s.me.x 2).toNat ∧ ((slotOf s.me 5).bnd = true ∧ (slotOf s.me 5).rst = false ∧ s.time / 16 % 64 < 60) ∧
      beatsIn ((s.me.x 2).toNat + 8) ≤ 16 - phase ∧ own = decide (i ≠ 2) ∧ MayTrap s ∧
      (i = 0 → s.time % 16 = phase ∧ Covers s s.cur (slotOf s.me 5) (beatsIn ((s.me.x 2).toNat + 8)) false) ∧
      (i = 1 → s.time % 16 < phase) ∧ (i = 3 → phase < s.time % 16) := by
  unfold MaySend LocalBytes Flat Covers MayTrap
  intro i
  refine ⟨?_, fun _ h => (List.not_mem_nil h).elim, ?_⟩ <;> (revert i; decide +kernel)

/-- The largest PUT and GET and those of no bytes; each RAMO at its alignment. -/
theorem witness_MessagesSent_blocks :
    (∀ i : Fin 2, let n := #v[16384, 0][i]
     let s := sender 8 (0x8000000000 - 16384) n 256
     MaySend s false ∧ LocalBytes s (s.me.x 2) (s.me.x 3).toNat ∧ (s.me.x 3).toNat ≤ 16384 ∧ (s.me.x 1).toNat % 8 = 0 ∧
       ((s.me.x 3).toNat = 0 ↔ i = 1) ∧ (slotOf s.me 5).bnd = true ∧ (slotOf s.me 5).rst = false ∧
       (i = 0 → Covers s s.cur (slotOf s.me 5) (beatsIn (s.me.x 3).toNat) false)) ∧
    (∀ i : Fin 2, let n := #v[16384, 0][i]
     let s := sender (0x8000000000 - 16384) 8 n 256
     LocalBytes s (s.me.x 1) (s.me.x 3).toNat ∧ (s.me.x 3).toNat ≤ 16384 ∧ (s.me.x 2).toNat % 8 = 0 ∧
       (i = 0 → Covers s s.cur (slotOf s.me 5) (beatsIn (s.me.x 3).toNat) false)) ∧
    (∀ op : Fin 4, let s := sender (if op = 3 then 4 else 8) 0 0 1
     (s.me.x 1).toNat % (if op = 3 then 4 else 8) = 0 ∧ Covers s s.cur (slotOf s.me 5) 1 false) := by
  unfold MaySend LocalBytes Flat Covers
  refine ⟨?_, ?_, ?_⟩ <;> decide +kernel

/-- A request of the sender at its slot. -/
def reqOf (s : State) (fn : BitVec 3) (beats : Nat) (kind : ReqKind) (stage : ReqStage) : Req := { request s s.cur 5 fn false false beats kind with stage := stage }

/-- The machine with one request under way. -/
def flying (fn : BitVec 3) (beats : Nat) (kind : ReqKind) (stage : ReqStage) : State :=
  let s := sender 0 0 0 9
  { s with net := [reqOf s fn beats kind stage] }

/-- A launch that the slot's nine beats cover, and one that needs ten. -/
theorem witness_MessagesSent_launch : ∀ i : Fin 2,
    let s := flying 2 (9 + i.val) (.send [1, 2, 3, 4, 5, 6, 7, 8]) (.timed 0)
    ∃ r, s.net = [] ++ [r] ∧ r.src = some (.here core0) ∧ r.stage = .timed s.time ∧ (s.ctx core0).chunk = none ∧ (slotOf (s.ctx core0) r.ds).bnd = true ∧
      (r.beats ≤ allowanceOf s core0.die (slotOf (s.ctx core0) r.ds) false ↔ i = 0) ∧ (s.ctx core0).csr.exl = false ∧
      (handler (s.ctx core0) false).toNat < limit core0 := by
  intro i
  refine ⟨_, rfl, rfl, rfl, ?_⟩
  revert i
  decide +kernel

/-- OWNTBL: two owners from slot 5 on, four words each. -/
def owning (vb : VReg) : State := machine core0 fun x => { x with
  slots := (x.slots.set 5 (bound 9)).set 6 (bound 9)
  vregs := (x.vregs.set 1 (i32s [0, 7])).set 2 vb
  csr := { x.csr with
    vl := 2
    owntbl := 2 * 2 ^ 9 + 5 * 2 ^ 5 + 2 } }

theorem witness_CombiningStores_send : ∀ i : Fin 3, let s := owning (asTag (#v[Tag.fp32, .i32, .n32][i]) (i32s [1, 2]))
    let c := s.me
    MaySend s false ∧ OnCore s ∧ c.vecs = [] ∧ owners c ≠ 0 ∧ owners c ≤ 16 ∧ c.csr.vl ≤ 256 ∧ (c.v 1).tag = .i32 ∧
      ((c.v 2).tag, i.val) ∈ [(Tag.fp32, 0), (.i32, 1), (.n32, 2)] ∧
      (∀ e, e < c.csr.vl → active c 0 e = true → 0 ≤ asInt (c.v 1).tag (elemAt (c.v 1) 4 e) ∧ ownerOf c (elemAt (c.v 1) 4 e) < owners c ∧
        (slotOf c (ownerSlot c (ownerOf c (elemAt (c.v 1) 4 e)))).bnd = true) ∧
      (∀ o ∈ (List.range (owners c)).filter fun o => decide (contributions c 1 2 0 i.val o ≠ []),
        Covers s s.cur (slotOf c (ownerSlot c o)) (beatsIn (8 * (contributions c 1 2 0 i.val o).length)) false) ∧
      storesOut s s.cur + 2 ≤ 31 := by
  unfold MaySend OnCore Covers
  decide +kernel

theorem witness_CombiningStores_flush : let s := owning VReg.zero
    let c := s.me
    MaySend s false ∧ List.range (owners c) ≠ [] ∧ owners c ≤ 16 ∧ storesOut s s.cur + (List.range (owners c)).length ≤ 31 ∧
      (∀ r ∈ s.net, r.src = some (.here s.cur) → ∀ ps, r.kind ≠ .pairs ps) ∧
      (∀ o ∈ List.range (owners c), Covers s s.cur (slotOf c (ownerSlot c o)) 1 false) := by
  unfold MaySend Covers
  refine ⟨?_, ?_, ?_, ?_, fun _ h => (List.not_mem_nil h).elim, ?_⟩ <;> decide +kernel

/-- A window of 64 KiB at 64 KiB that takes every kind of request. -/
def window : Word := 2 ^ 48 + 2 ^ 16 + 7 * 2 ^ 8 + 0xF

/-- The machine with one request under way to window 0 of core 1. -/
def arriving (w : Word) (fn : BitVec 3) (beats : Nat) (kind : ReqKind) (comb : List Comb) : State :=
  let s := flying fn beats kind .flying
  { s with hub := { s.hub with step := 10 } }.setGate 0 1 { Quad.reset with
    rwin := Quad.reset.rwin.set 0 w
    comb := comb }

def theReq (s : State) : Req := (s.net[0]?).getD (reqOf s 0 0 .flush .flying)

/-- A request of the machine comes to its target, the rest of its admission being decided. -/
theorem arrives_of (w : Word) (fn : BitVec 3) (beats : Nat) (kind : ReqKind) (comb : List Comb)
    (h : let s := arriving w fn beats kind comb
      let r := theReq s
      (r.isStart = false ∧ r.target.toNat = s.pkg.toNat * 2 ^ 14 + (0 : Fin 8).val * 2 ^ 10 + 1 ∧ r.inc = incarnation s 0 1 ∧ (s.part (s.partOfCtx core0)).pstate ≠ .switching) ∧
        refusalOf s 0 1 (windowOf s 0 1 r.win) r.srcEp r.dom (some r.fn.toNat) = none) :
    let s := arriving w fn beats kind comb
    Arrives s 0 (theReq s) 0 1 :=
  ⟨⟨rfl, rfl, h.1.1, ⟨core0, rfl, h.1.2.2.2⟩, ⟨h.1.2.1, .inl (by decide)⟩, h.1.2.2.1⟩, rfl, rfl, h.2⟩

/-- The last word of the window: a contribution that makes its entry, and one that joins it; a flush. -/
theorem witness_CombiningStores_pair :
    let e : Comb := ⟨0, 0xFFFC, 1, 9, false, false, false, false, 0, false⟩
    (∀ i : Fin 2, let s := arriving (window + 0x80) 6 1 (.pairs [(0xFFFC, 5, 1)]) (#v[[], [e]][i])
      Arrives s 0 (theReq s) 0 1 ∧ 0xFFFC + 4 ≤ sizeOf_ (windowOf s 0 1 (theReq s).win) ∧ (s.gate 0 1).comb.length < 4096 ∧
        (∀ e ∈ (s.gate 0 1).comb, e.win = (theReq s).win ∧ e.off = 0xFFFC → e.ty = 1)) ∧
    (let s := arriving (window + 0x80) 7 1 .flush [e]
     Arrives s 0 (theReq s) 0 1 ∧ (theReq s).kind = .flush ∧ ((s.gate 0 1).comb.filter fun e => decide (e.win = (theReq s).win)) = [e]) := by
  intro e
  exact ⟨fun i => ⟨arrives_of _ _ _ _ _ (by revert i; decide +kernel), by revert i; decide +kernel⟩, arrives_of _ _ _ _ _ (by decide +kernel),
    by decide +kernel⟩
/-- A PUT of the last bytes of the window, in memory and in an ISTORE window, and one that goes beyond it. -/
theorem witness_MessageArrivals_put : ∀ i : Fin 3,
    let s := arriving (window + #v[0, 0x40, 0][i]) 3 1 (.put (#v[0xFFFC, 0xFFFC, 0xFFFD][i]) [1, 2, 3, 4]) []
    let w := windowOf s 0 1 (theReq s).win
    Arrives s 0 (theReq s) 0 1 ∧ (theReq s).kind = .put (#v[0xFFFC, 0xFFFC, 0xFFFD][i]) [1, 2, 3, 4] ∧
      (sizeOf_ w < #v[0xFFFC, 0xFFFC, 0xFFFD][i] + 4 ↔ i = 2) ∧ w.getLsbD 6 = decide (i = 1) :=
  fun i => ⟨arrives_of _ _ _ _ _ (by revert i; decide +kernel), by revert i; decide +kernel⟩

/-- A SEND that fills the ring to its last beat, one for which a beat too few is free, and one that finds TAIL ahead of HEAD. -/
theorem witness_MessageArrivals_send : ∀ i : Fin 3,
    let s := (arriving (window + 0x10) 1 1 (.send [1, 2, 3, 4, 5, 6, 7, 8]) []).setGate 0 1 { Quad.reset with
      rwin := Quad.reset.rwin.set 0 (window + 0x10)
      engines := Quad.reset.engines.set 0 ⟨#v[0xFFC0 - 64, 0xFFC0, 0][i], #v[0, 0, 64][i], 0, none, 1⟩ }
    let w := windowOf s 0 1 (theReq s).win
    let e := (s.gate 0 1).engines[0]
    Arrives s 0 (theReq s) 0 1 ∧ (theReq s).kind = .send [1, 2, 3, 4, 5, 6, 7, 8] ∧ w.getLsbD 5 = false ∧ (i = 2 ↔ e.head.toNat < e.tail.toNat) ∧
      (i = 0 → e.head.toNat - e.tail.toNat + 64 * beatsIn (8 + 8) ≤ sizeOf_ w - 64) ∧
      (i = 1 → sizeOf_ w - 64 < e.head.toNat - e.tail.toNat + 64 * beatsIn (8 + 8)) ∧ Memory.wf s.mem = true := by
  intro i
  refine ⟨⟨⟨rfl, rfl, rfl, ⟨core0, rfl, ?_⟩, ⟨?_, .inl (by decide)⟩, ?_⟩, rfl, rfl, ?_⟩, ?_⟩ <;> (revert i; decide +kernel)

/-- A GET of the whole window, and each RAMO at its end. -/
theorem witness_MessageArrivals_answered :
    (let s := arriving window 4 1024 (.get 0 0x10000 []) []
     Arrives s 0 (theReq s) 0 1 ∧ (theReq s).kind = .get 0 0x10000 [] ∧ 0 + 0x10000 ≤ sizeOf_ (windowOf s 0 1 (theReq s).win)) ∧
    (∀ i : Fin 4, let s := arriving window 5 1 (.ramo i.val (if i = 3 then 0xFFFC else 0xFFF8) 1 0 0 4) []
      Arrives s 0 (theReq s) 0 1 ∧ (if i = 3 then 0xFFFC else 0xFFF8) + (if i = 3 then 4 else 8) ≤ sizeOf_ (windowOf s 0 1 (theReq s).win)) :=
  ⟨⟨arrives_of _ _ _ _ _ (by decide +kernel), by decide +kernel⟩, fun i => ⟨arrives_of _ _ _ _ _ (by revert i; decide +kernel), by revert i; decide +kernel⟩⟩

/-- A window that is not valid, one of core scope and one without WR. -/
theorem witness_MessageArrivals_refused : ∀ i : Fin 3,
    let s := arriving (#v[window - 1, 2 ^ 48 + 2 ^ 16 + 1 * 2 ^ 8 + 0xF, window - 4][i]) 3 1 (.put 0 [1]) []
    let r := theReq s
    Comes s 0 r 0 1 ∧ refusalOf s 0 1 (windowOf s 0 1 r.win) r.srcEp r.dom (some r.fn.toNat) = some (#v[1, 4, 3][i]) := by
  intro i
  refine ⟨⟨rfl, rfl, rfl, ⟨core0, rfl, ?_⟩, ⟨?_, .inl (by decide)⟩, ?_⟩, ?_⟩ <;> (revert i; decide +kernel)

/-- A unit that has been reset since the bind; a unit and dies that do not exist. -/
theorem witness_MessageArrivals_lost :
    (let s := (arriving window 3 1 (.put 0 [1]) []).setCore 0 1 { Core.reset with inc := 1 }
     let r := theReq s
     s.net[0]? = some r ∧ r.stage = .flying ∧ r.isStart = false ∧ (∃ u, r.src = some (.here u) ∧ (s.part (s.partOfCtx u)).pstate ≠ .switching) ∧
       TargetIs s r.target 0 1 ∧ r.inc ≠ incarnation s 0 1) ∧
    (∀ i : Fin 4, let k := #v[160, 8 * 2 ^ 10, 9 * 2 ^ 10 + 1023, 2 ^ 14 - 2][i]
     let s := { arriving window 3 1 (.put 0 [1]) [] with net := [{ theReq (arriving window 3 1 (.put 0 [1]) []) with target := BitVec.ofNat 32 k }] }
     let r := theReq s
     s.net[0]? = some r ∧ r.stage = .flying ∧ r.isStart = false ∧ (∃ u, r.src = some (.here u) ∧ (s.part (s.partOfCtx u)).pstate ≠ .switching) ∧
       r.target.toNat = s.pkg.toNat * 2 ^ 14 + k ∧ k < 2 ^ 14 ∧ (160 ≤ k % 2 ^ 10 ∨ 8 ≤ k / 2 ^ 10) ∧
       (k % 2 ^ 10 ≠ 1023 ∨ 9 ≤ k / 2 ^ 10 ∧ k / 2 ^ 10 < 12) ∧ OwnSource s r) := by
  unfold OwnSource
  refine ⟨⟨rfl, rfl, rfl, ⟨core0, rfl, by decide +kernel⟩, ⟨by decide +kernel, .inl (by decide)⟩, by decide +kernel⟩, fun i => ?_⟩
  refine ⟨rfl, rfl, rfl, ⟨core0, rfl, ?_⟩, ?_⟩ <;> (revert i; decide +kernel)

/-- A request acknowledged, flushed, refused, answered with eight bytes, with four and with a GET's, stale, in flight for the first
and for the last time. -/
theorem witness_MessageCompletions : ∀ i : Fin 9,
    let bs : List Byte := [1, 2, 3, 4, 5, 6, 7, 8]
    let kind : ReqKind := #v[.put 0 [1], .flush, .put 0 [1], .ramo 0 0 1 0 0 4, .ramo 3 0 1 0 0 4, .get 0 8 [(0x1000, 8)], .put 0 [1], .put 0 [1], .put 0 [1]][i]
    let stage : ReqStage := #v[.performed, .answered [] 0 true, .refused 4, .answered bs 0 false, .answered [1, 2, 3, 4] 0 false, .answered bs 0 false, .stale,
      .flying, .flying][i]
    let s0 := flying 3 2 kind stage
    let s := { s0 with net := s0.net.map fun r => { r with tries := if i = 8 then 16 else 0 } }
    let r := (s.net[0]?).getD (theReq s)
    s.net[0]? = some r ∧ r.src = some (.here core0) ∧ r.ds = 5 ∧ r.isStart = false ∧ Reached s core0 ∧ (s.ctx core0).msgFault = none ∧ r.rin = 0 ∧
      r.stage = stage ∧ r.kind = kind ∧ (i = 0 → r.isLoad = false) ∧ r.tries = (if i = 8 then 16 else 0) ∧ Memory.wf s.mem = true := by
  intro i
  refine ⟨rfl, rfl, rfl, ?_⟩
  unfold Reached
  revert i
  decide +kernel

/-- Slots 5, bound, and 6, not bound, with an endpoint and a window at their limits. -/
theorem witness_MessageCompletions_bind :
    let s := sender 0xFFFFFFFF 3 0 0
    MaySend s false ∧ s.me.binding = none ∧ (s.me.x 1).toNat < 2 ^ 32 ∧ (s.me.x 2).toNat < 4 ∧ (slotOf s.me 6).bnd = false ∧ (slotOf s.me 5).bnd = true ∧
      ∀ r ∈ s.net, r.src = some (.here s.cur) → r.ds ≠ 5 := by
  unfold MaySend
  decide +kernel

/-- A bind to another package that succeeds, to a window that refuses, and to one that admits it. -/
theorem witness_MessageCompletions_reply : ∀ i : Fin 3,
    let b : Binding := ⟨5, #v[0xFFFF0000, State.reset.endpoint 0 1, State.reset.endpoint 0 1][i], 0⟩
    let s0 := machine core0 fun c => { c with binding := some b }
    let s := ({ s0 with hub := { s0.hub with step := 10 } } : State).setGate 0 1 { Quad.reset with rwin := Quad.reset.rwin.set 0 (#v[0, 0, window][i]) }
    (s.ctx core0).binding = some b ∧ b.ds = 5 ∧ (s.ctx core0).chunk = none ∧ (i = 0 ↔ b.ep.toNat / 2 ^ 14 ≠ s.pkg.toNat) ∧
      (i ≠ 0 → TargetIs s b.ep 0 1 ∧ (refusalOf s 0 1 (windowOf s 0 1 b.win) (endpointOf s core0) (s.ctx core0).dom none = none ↔ i = 2)) := by
  unfold TargetIs
  decide +kernel

/-- An allowance of 9 beats against 9 and 10. -/
theorem witness_MessageCompletions_balw : ∀ i : Fin 2,
    let s := sender (#v[9, 10][i]) 0 0 9
    s.me.chunk = none ∧ s.me.msgFault = none ∧ (i = 0 ↔ (s.me.x 1).toNat ≤ allowanceOf s s.cur.die (slotOf s.me 5) false) ∧
      (relative s.me.pc (1 : BitVec 17)).toNat < limit s.cur := by
  decide +kernel

/-- A context whose slot 5 alone may have a demand. -/
def withDemand (d : Option Demand) (x : Ctx) : Ctx := { x with slots := x.slots.set 5 { bound 3 with demand := d } }

/-- That context when its credit has not been used for 65,536 cycles; its target is a window with eight beats free. -/
def demanding (w : Word) (d : Option Demand) : State :=
  let s := machine core0 (withDemand d)
  ({ s with
    hub := { s.hub with step := 10 }
    time := 65536 } : State).setGate 0 1 { Quad.reset with
      rwin := Quad.reset.rwin.set 0 w
      pool := 8 }

/-- The other contexts have no demand. -/
theorem demanding_others (w : Word) (d : Option Demand) (v : CtxId) (h : v ≠ core0) (k : Fin 16) : ((demanding w d).ctx v).slots[k].demand = none := by
  have hc : (demanding w d).ctx v = Ctx.idle := by
    show ((machine core0 (withDemand d)).ctx v) = _
    rw [machine_ctx, if_neg h]
  rw [hc]
  revert k
  decide +kernel

/-- A demand that the pool covers, one that the window refuses. -/
theorem witness_MessageCompletions_demand : ∀ i : Fin 2,
    let dm : Demand := ⟨9, 3, none, none, false⟩
    let s := demanding (#v[window, 0][i]) (some dm)
    let x := slotOf (s.ctx core0) 5
    let w := windowOf s 0 1 x.win
    (Reached s core0 ∧ x.bnd = true ∧ x.demand = some dm) ∧ (dm.answer = none ∧ dm.order = none ∧ dm.stale = false ∧ TargetIs s x.ep 0 1 ∧ x.inc = incarnation s 0 1) ∧
      (∀ v, v ≠ core0 → ∀ k : Fin 16, (s.ctx v).slots[k].demand = none) ∧ (∀ e : Fin 8, (s.die e).swaps = []) ∧ s.outs = [] ∧ (∀ p, (s.part p).saves = []) ∧
      (∀ k : Fin 16, k.val ≠ (5 : BitVec 4).toNat → (s.ctx core0).slots[k].demand = none) ∧
      (refusalOf s 0 1 w (endpointOf s core0) (s.ctx core0).dom (some dm.fn) = none ↔ i = 0) ∧ dm.beats - x.wc ≤ creditOf (s.gate 0 1) x.win := by
  unfold Reached TargetIs
  intro i
  refine ⟨?_, ?_, demanding_others _ _, ?_, ?_, fun p => ?_, ?_⟩
  case refine_5 =>
    show ((Vector.replicate 16 Part.reset)[p % 16]'(Nat.mod_lt _ (by decide))).saves = []
    rw [Vector.getElem_replicate]
    rfl
  all_goals
    revert i
    decide +kernel

/-- A demand at a unit reset since the bind, and at the agents of the hub and of the last optical die. -/
theorem witness_MessageCompletions_refused :
    (let dm : Demand := ⟨9, 3, none, none, false⟩
     let s := (demanding window (some dm)).setCore 0 1 { Core.reset with inc := 1 }
     let x := slotOf (s.ctx core0) 5
     Reached s core0 ∧ x.bnd = true ∧ x.demand = some dm ∧ dm.answer = none ∧ dm.order = none ∧ dm.stale = false ∧ TargetIs s x.ep 0 1 ∧
       x.inc ≠ incarnation s 0 1) ∧
    (∀ i : Fin 2, let k := #v[8, 15][i]
     let dm : Demand := ⟨9, 3, none, none, false⟩
     let s := machine core0 fun c => { c with slots := c.slots.set 5 { bound 3 with
       ep := BitVec.ofNat 32 (State.reset.pkg.toNat * 2 ^ 14 + 2 ^ 10 * k + 1023)
       demand := some dm } }
     let x := slotOf (s.ctx core0) 5
     Reached s core0 ∧ x.bnd = true ∧ x.demand = some dm ∧ x.ep.toNat = s.pkg.toNat * 2 ^ 14 + 2 ^ 10 * k + 1023 ∧ (k = 8 ∨ 12 ≤ k ∧ k < 16)) := by
  unfold Reached TargetIs
  decide +kernel

/-- A demand that has been answered by credit and by a refusal; credit that has not been used for as long as it stands. -/
theorem witness_MessageCompletions_credit :
    (let dm : Demand := ⟨9, 3, some 0, some (.credit 6), false⟩
     let s := demanding window (some dm)
     let x := slotOf (s.ctx core0) 5
     Reached s core0 ∧ x.bnd = true ∧ x.demand = some dm ∧ dm.answer = some (.credit 6) ∧ x.ep.toNat / 2 ^ 14 = s.pkg.toNat) ∧
    (let dm : Demand := ⟨9, 3, some 0, some (.refusal 1), false⟩
     let s := demanding window (some dm)
     let x := slotOf (s.ctx core0) 5
     Reached s core0 ∧ x.bnd = true ∧ x.demand = some dm ∧ dm.answer = some (.refusal 1) ∧ x.ep.toNat / 2 ^ 14 = s.pkg.toNat) ∧
    (let s := demanding window none
     (slotOf (s.ctx core0) 5).bnd = true ∧ (slotOf (s.ctx core0) 5).wc ≠ 0 ∧ (slotOf (s.ctx core0) 5).since + 65536 ≤ s.time) := by
  unfold Reached
  decide +kernel
/-! ### Threads -/

/-- END without a completion word and with the highest one; of a domain context. -/
theorem witness_EndsThread : ∀ i : Fin 3, let s := machine core0 fun c => { c with
      cwa := #v[0, 0x7FFFFFFFF8, 0][i]
      dom := decide (i = 2) }
    (Unforked s.me ∧ NoFault s.me ∧ s.me.sealing = false) ∧ Finished s s.cur ∧ (∀ x ∈ s.me.slots.toList, x.bnd = false) ∧
      (i ≠ 1 → s.me.cwa = 0) ∧
      (i = 1 → s.me.cwa ≠ 0 ∧ s.me.cwa.toNat % 8 = 0 ∧ Flat s s.me.sup s.me.csr.ptroot ∧ s.me.cwa.toNat + 8 ≤ s.dramEnd ∧ s.me.rin = 0) := by
  unfold Unforked NoFault Finished Settled Flat
  decide +kernel

/-- END with work outstanding; with a pending copy fault; in a join phase. -/
theorem witness_EndsThread_not :
    (let s := machine core0 fun c => { c with vecs := [⟨true, false, false, none, [], none⟩] }
     (s.me.chunk = none ∧ s.me.sealing = false) ∧ Unforked s.me ∧ NoFault s.me ∧ ¬(s.me.vecs = [] ∧ s.me.accs = [] ∧ s.me.copies = [] ∧ s.me.tile.queue = [])) ∧
    (let s := machine core0 fun c => { c with copyFault := some ⟨0x04, 5, 0⟩ }
     (s.me.chunk = none ∧ s.me.sealing = false) ∧ s.me.copyFault = some ⟨0x04, 5, 0⟩ ∧ MayTrap s) ∧
    (let s := machine core0 fun c => { c with joinPhase := true }
     (s.me.chunk = none ∧ s.me.sealing = false) ∧ NoFault s.me ∧ ¬Unforked s.me ∧ MayTrap s) := by
  unfold Unforked NoFault MayTrap
  decide +kernel

/-- Ring 0 of die 0 and QCC 0 belong to the running partition 1 and hold the code 7; a record stands at 0x1000; s1 names it. -/
def placed (w0 : Nat) (f : Ctx → Ctx) : State :=
  let s := machine core0 fun c => f (withRegs 0x1000 (BitVec.ofNat 64 (State.reset.endpoint 0 1).toNat) 0 c)
  let s1 : State := { s with
    mem := memWrite [] 0x1000 (bytesOf 8 w0 ++ bytesOf 8 1 ++ bytesOf 8 8)
    hub := { s.hub with step := 10 }
    parts := s.parts.set 1 { Part.reset with pstate := .running } }
  let s2 := s1.setDie 0 { s1.die 0 with rcfg := (s1.die 0).rcfg.set 0 0x100 }
  (s2.setRing 0 0 { s2.ring 0 0 with codeid := 7 }).setQuad 0 0 { s2.quad 0 0 with codeid := 7 }

def goodRecord : Nat := 0x1FFFC + 7 * 2 ^ 32

/-- The record at an address. -/
def recordAt (m : List Host.Cell) (a : Nat) : Record := recordFrom (littleEndian m a 64)

theorem found_of (s : State) (a : BitVec 5) (m : Mapping) (h : (s.me.x a).toNat % 64 = 0 ∧ mapping (s.check (s.viewer s.cur) .load false (s.me.x a) 1) = some m ∧
    s.place m.pa = .dram ∧ s.isPoisoned m.pa 64 = false) : Found s a m (s.check (s.viewer s.cur) .load false (s.me.x a) 1).2 :=
  ⟨h.1, mapped_of _ _ _ _ _ _ h.2.1, .inl h.2.2.1, h.2.2.2⟩

/-- A record off its alignment; with a reserved bit set; of class 3; for level S at level U. -/
theorem witness_SpawnsThread :
    ((scalar 0x1001 0 0).me.chunk = none ∧ (scalar 0x1001 0 0).me.sealing = false ∧ ((scalar 0x1001 0 0).me.x 1).toNat % 64 ≠ 0 ∧ MayTrap (scalar 0x1001 0 0)) ∧
    (∀ i : Fin 2, let s := placed (goodRecord + #v[2 ^ 28, 3 * 2 ^ 23][i]) id
     ∃ s1, Found s 1 (flatMap 0x1000) s1 ∧ MayTrap s ∧ (Unreserved (littleEndian s.mem 0x1000 64) ↔ i = 1) ∧ (RecordLegal (recordAt s.mem 0x1000) ↔ i = 0)) ∧
    (let p := paged 0x1F
     let s := { p.upd (fun c => { withRegs 0x10000 0 0 c with sup := false }) with
       mem := memWrite p.mem 0x30000 (bytesOf 8 (goodRecord + 2 ^ 25) ++ bytesOf 8 1 ++ bytesOf 8 8) }
     ∃ s1, Found s 1 ⟨0x30000, true, true, true, 0⟩ s1 ∧ MayTrap s ∧ Unreserved (littleEndian s.mem 0x30000 64) ∧ RecordLegal (recordAt s.mem 0x30000) ∧
       (recordAt s.mem 0x30000).sup = true ∧ s.me.sup = false) := by
  unfold Unreserved RecordLegal MayTrap
  exact ⟨by decide +kernel, fun i => ⟨_, found_of _ _ _ (by revert i; decide +kernel), by revert i; decide +kernel⟩, _, found_of _ _ _ (by decide +kernel),
    by decide +kernel⟩

theorem fits_placed (s : State) (r : Record) (h : 1 = 1 ∧ s.partOf 0 0 = 1 ∧ r.aff.getLsbD 0 = true ∧ r.qcc = false ∧ s.ringFirst 0 0 = 0 ∧
    (s.ring 0 0).codeid = r.codeid ∧ r.rlen = 0 ∧ s.ringLen 0 0 = 16 ∧ ∀ i : Fin 4, (s.quad 0 (0 + i.val)).bist.getLsbD 2 = false) : Fits s 1 0 0 r := by
  obtain ⟨_, h1, h2, h3, h4, h5, h6, h7, h8⟩ := h
  refine ⟨by decide, h1, h2, ?_⟩
  rw [if_neg (by rw [h3]; decide)]
  exact ⟨h4, h5, .inl h6, fun i hi => h8 ⟨i, by rw [h7] at hi; exact hi⟩⟩

theorem witness_SpawnsThread_completes :
    let s := placed goodRecord id
    let n := littleEndian s.mem 0x1000 64
    (∃ s1, Found s 1 (flatMap 0x1000) s1) ∧ (∃ q, q < 32 ∧ Fits s (s.partOfCtx s.cur) s.cur.die q (recordFrom n)) ∧
      (∀ x ∈ s.net, x.src = some (Holder.here s.cur) → ∀ o b, x.kind ≠ .put o b) ∧ Unreserved n ∧ RecordLegal (recordFrom n) ∧
      ((recordFrom n).sup = true → s.me.sup = true) ∧ s.die s.cur.die = { s.die s.cur.die with queue := [] } ∧ storesOut s s.cur < 31 ∧ s.me.chunk = none ∧
      s.me.sealing = false := by
  unfold Unreserved RecordLegal
  refine ⟨⟨_, found_of _ _ _ (by decide +kernel)⟩, ⟨0, by decide, fits_placed _ _ (by decide +kernel)⟩, fun _ h => (List.not_mem_nil h).elim, ?_⟩
  decide +kernel

/-- A START to core 1, and to an endpoint number beyond 32 bits; of a domain context, its egress hold being free. -/
theorem witness_StartsThread_issue : ∀ i : Fin 3,
    let s := placed goodRecord fun c => { c with
      dom := decide (i = 1)
      regs := if i = 2 then c.regs.set 2 0x100000000 else c.regs }
    let n := littleEndian s.mem 0x1000 64
    (∃ s1, Found s 1 (flatMap 0x1000) s1) ∧ (∀ x ∈ s.net, x.src = some (Holder.here s.cur) → ∀ o b, x.kind ≠ .put o b) ∧
      (s.me.sup = true ∧ s.me.chunk = none ∧ s.me.sealing = false) ∧ Unreserved n ∧ RecordLegal (recordFrom n) ∧ storesOut s s.cur < 31 ∧
      ((s.me.x 2).toNat < 2 ^ 32 ↔ i ≠ 2) ∧ 1 ≤ holdRoom s s.cur.die ∧ MayTrap s := by
  unfold Unreserved RecordLegal MayTrap
  intro i
  refine ⟨⟨_, found_of _ _ _ (by revert i; decide +kernel)⟩, fun _ h => (List.not_mem_nil h).elim, ?_⟩
  revert i
  decide +kernel

/-- A START on its way to the unit that `target` names, for a thread of a partition. -/
def starting (w0 : Nat) (target : BitVec 32) (part : Nat) (busy : Bool) : State :=
  let s := placed w0 id
  let r := { reqOf s 1 1 (.start (BitVec.ofNat 512 (littleEndian s.mem 0x1000 64)) 0) .flying with
    target := target
    part := some part
    rel := true }
  let s1 : State := { s with net := [r] }
  if busy then s1.setCtx (mkCtxId 0 1 0) thread else s1.setCtx core0 Ctx.idle

/-- What holds of every START of the tests. -/
theorem starting_of (w0 : Nat) (target : BitVec 32) (part : Nat) (busy : Bool) (h : let s := starting w0 target part busy
    (s.part (s.partOfCtx core0)).pstate ≠ .switching ∧ s.hub.powerOff = false ∧ s.domain = none) :
    let s := starting w0 target part busy
    ∃ word, s.net[0]? = some (theReq s) ∧ (theReq s).kind = .start word 0 ∧ (theReq s).stage = .flying ∧
      (∃ u, (theReq s).src = some (.here u) ∧ (s.part (s.partOfCtx u)).pstate ≠ .switching) ∧ (theReq s).part = some part ∧ ModuleRuns s := by
  have hn : (starting w0 target part busy).net = [theReq (starting w0 target part busy)] := by cases busy <;> rfl
  refine ⟨_, by rw [hn]; rfl, by cases busy <;> rfl, by cases busy <;> rfl, ⟨core0, by cases busy <;> rfl, h.1⟩, by cases busy <;> rfl, h.2.1, ?_⟩
  rw [h.2.2]
  intro x hx
  cases hx

/-- To an agent and to a die agent; to no endpoint; before and at step 10 of bring-up. -/
theorem witness_StartsThread_absent : ∀ i : Fin 3,
    let k := #v[8 * 2 ^ 10 + 1023, 0x3FF, 0xFA0][i]
    let s := starting goodRecord (BitVec.ofNat 32 k) 1 false
    let agent := k % 2 ^ 10 = 1023 ∧ (k / 2 ^ 10 = 8 ∨ 12 ≤ k / 2 ^ 10)
    let unit := k / 2 ^ 10 < 8 ∧ (k % 2 ^ 10 < 160 ∨ k % 2 ^ 10 = 1023)
    (∃ word, s.net[0]? = some (theReq s) ∧ (theReq s).kind = .start word 0 ∧ (theReq s).stage = .flying ∧
      (∃ u, (theReq s).src = some (.here u) ∧ (s.part (s.partOfCtx u)).pstate ≠ .switching) ∧ (theReq s).part = some 1 ∧ ModuleRuns s) ∧
    (theReq s).target.toNat = s.pkg.toNat * 2 ^ 14 + k ∧ k < 2 ^ 14 ∧ 10 ≤ s.hub.step ∧ ({ s with hub := Hub.reset } : State).hub.step < 10 ∧
      (agent ↔ i = 0) ∧ (unit ↔ i = 1) :=
  fun i => ⟨starting_of _ _ _ _ (by revert i; decide +kernel), by revert i; decide +kernel⟩

/-- With a reserved bit set; to a die agent; for a QCC; to a free slot, to an occupied one; from another partition. -/
theorem witness_StartsThread_arrival : ∀ i : Fin 6,
    let unit := #v[1, 1023, 1, 1, 1, 1][i]
    let part := if i = 5 then 2 else 1
    let s := starting (goodRecord + #v[2 ^ 28, 0, 2 ^ 19 - 0x10000, 0, 0, 0][i]) (State.reset.endpoint 0 unit) part (decide (i = 4))
    let word := BitVec.ofNat 512 (littleEndian s.mem 0x1000 64)
    let r := recordFrom word.toNat
    (∃ word, s.net[0]? = some (theReq s) ∧ (theReq s).kind = .start word 0 ∧ (theReq s).stage = .flying ∧
      (∃ u, (theReq s).src = some (.here u) ∧ (s.part (s.partOfCtx u)).pstate ≠ .switching) ∧ (theReq s).part = some part ∧ ModuleRuns s) ∧
    (TargetIs s (theReq s).target 0 unit ∧ 10 ≤ s.hub.step) ∧ ((Unreserved word.toNat ∧ RecordLegal r) ↔ i ≠ 0) ∧
      (r.qcc ≠ decide (128 ≤ unit) ↔ i = 1 ∧ r.qcc = false ∨ i = 2) ∧ r.slot < 2 ∧ (i = 5 → s.partOf 0 (s.ringFirst 0 (1 / 4)) ≠ part) ∧
      (i = 4 → (s.ctx (mkCtxId 0 1 r.slot)).status ≠ .free ∧ ∀ i : Fin 32, (s.quad 0 i.val).bist.toNat % 4 ≠ 1) := by
  unfold TargetIs Unreserved RecordLegal
  exact fun i => ⟨starting_of _ _ _ _ (by revert i; decide +kernel), by revert i; decide +kernel⟩

theorem witness_StartsThread_place :
    let s := starting goodRecord (State.reset.endpoint 0 1) 1 false
    Fits s 1 0 0 (recordAt s.mem 0x1000) ∧ SlotFree s 0 0 0 false ∧ s.domain = none := by
  refine ⟨fits_placed _ _ (by decide +kernel), ?_, rfl⟩
  unfold SlotFree
  rw [if_neg (by decide)]
  have h : (starting goodRecord (State.reset.endpoint 0 1) 1 false).ringLen 0 0 = 16 := by decide +kernel
  rw [h]
  decide +kernel

/-- A queue entry that fits beside the thread of context 0. -/
def waiting (f : Ctx → Ctx) : State :=
  let s := placed goodRecord f
  s.setDie 0 { s.die 0 with queue := [⟨1, .fresh (recordAt s.mem 0x1000) 0 0 0 false⟩] }

/-- The context waits for an allowance. -/
def starved (desched : BitVec 32) (c : Ctx) : Ctx := { c with
  wait := some .allowance
  csr := { c.csr with desched := desched } }

theorem blocked_fits : ∀ i : Fin 2, Fits (waiting (starved (BitVec.ofNat 32 i.val))) 1 0 0 (recordAt (placed goodRecord id).mem 0x1000)
  | 0 => fits_placed _ _ (by decide +kernel)
  | 1 => fits_placed _ _ (by decide +kernel)

theorem witness_Yields :
    (let s := scalar 0 0 0
     s.me.chunk = none ∧ Unforked s.me ∧ (s.die s.cur.die).queue = []) ∧
    (let s := waiting id
     let r := recordAt s.mem 0x1000
     Fits s 1 0 0 r ∧ s.ringFirst s.cur.die s.cur.quad = 0 ∧ (∀ i : Fin 32, (s.quad s.cur.die i.val).bist.toNat % 4 ≠ 1) ∧
       (Unforked s.me ∧ Finished s s.cur ∧ s.domain = none ∧ s.hub.powerOff = false ∧ (s.die s.cur.die).queue = [⟨1, .fresh r 0 0 0 false⟩] ∧
       (s.die s.cur.die).swaps = [] ∧ r.qcc = s.cur.isQcc ∧ 1 = s.partOfCtx s.cur ∧ (s.part 1).pstate = .running)) ∧
    (let need (s : State) := min (s.me.x 1).toInt ((s.ringOf s.cur).quant : Int)
     let poor (x : Int) := (scalar (-5) 0 0).setRingOf core0 { (scalar 0 0 0).ringOf core0 with ealw := x }
     need (poor (-5)) ≤ ((poor (-5)).ringOf core0).ealw ∧ ((poor (-6)).ringOf core0).ealw < need (poor (-6))) := by
  unfold Unforked Finished Settled
  exact ⟨by decide +kernel, ⟨fits_placed _ _ (by decide +kernel), by decide +kernel, by decide +kernel, by decide +kernel⟩, by decide +kernel⟩

/-- The oldest entry has a place. -/
theorem witness_Dispatches_place :
    let s := waiting id
    let r := recordAt s.mem 0x1000
    (s.domain = none ∧ s.hub.powerOff = false ∧ (s.die 0).queue = [] ++ ⟨1, .fresh r 0 0 0 false⟩ :: [] ∧ (s.part 1).pstate = .running) ∧ Fits s 1 0 0 r ∧
      SlotFree s 0 0 1 false := by
  refine ⟨by decide +kernel, fits_placed _ _ (by decide +kernel), ?_⟩
  unfold SlotFree
  rw [if_neg (by decide)]
  have h : (waiting id).ringLen 0 0 = 16 := by decide +kernel
  rw [h]
  decide +kernel

/-- A context blocked past DESCHED, and one whose DESCHED is 0. -/
theorem witness_Dispatches_deschedule : ∀ i : Fin 2,
    let s := { waiting (starved (BitVec.ofNat 32 i.val)) with time := 1 }
    let r := recordAt s.mem 0x1000
    let c := s.ctx core0
    Fits (waiting (starved (BitVec.ofNat 32 i.val))) 1 0 0 r ∧
      (c.status = .live ∧ c.wait = some .allowance ∧ Unforked c ∧ Finished s core0 ∧ (s.die 0).queue = [⟨1, .fresh r 0 0 0 false⟩] ∧
       (s.die 0).swaps = [] ∧ r.qcc = core0.isQcc ∧ 1 = s.partOfCtx core0) ∧ (∀ i : Fin 32, (s.quad 0 i.val).bist.toNat % 4 ≠ 1) ∧
       (i = 0 → c.csr.desched = 0) ∧ (i = 1 → c.csr.desched ≠ 0 ∧ c.blocked + c.csr.desched.toNat ≤ s.time) := by
  unfold Unforked Finished Settled
  intro i
  refine ⟨blocked_fits i, ?_⟩
  revert i
  decide +kernel

/-- A parked thread whose slot covers its need, one whose demand has been refused. -/
theorem witness_Dispatches_parked : ∀ i : Fin 2,
    let w : Swapped := ⟨3, { thread with
       needs := [(5, 9 + i.val, false)]
       slots := thread.slots.set 5 { bound 9 with refusal := if i = 1 then some (3, 4) else none } }, core0, none, 16⟩
    let s := (scalar 0 0 0).setDie 0 { (scalar 0 0 0).die 0 with
       swaps := [w]
       queue := [⟨1, .swapped 3 false⟩] }
    s.domain = none ∧ s.hub.powerOff = false ∧ (s.die 0).swap 3 = some w ∧ (s.die 0).queue = [] ++ ⟨1, .swapped 3 false⟩ :: [] ∧
      ∀ n ∈ w.ctx.needs, (slotOf w.ctx n.1).refusal ≠ none ∨ n.2.1 ≤ allowanceOf s 0 (slotOf w.ctx n.1) n.2.2 := by
  decide +kernel

/-- A context passed over for AGE cycles. -/
theorem witness_Dispatches_boost :
    let s := machine core0 fun c => { c with passed := 64 }
    (s.ctx core0).status = .live ∧ (s.ctx core0).csr.age ≤ (s.ctx core0).passed := by
  decide +kernel
/-! ### Recovery -/

def memberOf (n declared : BitVec 32) : Domain where
  domid := 5
  leader := State.reset.pkg
  usize := 1
  parts := 2
  member := 1
  s := n
  declared := declared
  reload := 0
  phase := .running
  wanted := false
  scrubbed := n

def joining (x : Domain) (f : Ctx → Ctx) (c : Ctx) : Ctx := f { c with
  dom := true
  rin := following x.s }

/-- The machine with its thread in a domain. -/
def joined (x : Domain) (f : Ctx → Ctx) : State :=
  let s := machine core0 (joining x f)
  { s with
    domain := some x
    dies := s.dies.map fun d => { d with
      sealed := x.s
      arrivedFor := following x.s } }

theorem joined_ctx (x : Domain) (f : Ctx → Ctx) (v : CtxId) :
    (joined x f).ctx v = if v = core0 then joining x f thread else Ctx.idle := machine_ctx core0 v (joining x f)

/-- SEALA in a domain, outside one, twice, with a pending message fault, and with a request that has not left. -/
theorem witness_SealsAnnounced :
    (let s := joined (memberOf 4 4) id
     (Unforked s.me ∧ s.me.dom = true ∧ s.me.sealing = false ∧ s.me.msgFault = none) ∧ MaySeal s) ∧
    (let s := { joined (memberOf 4 4) id with net := [reqOf (joined (memberOf 4 4) id) 3 1 (.put 0 [1]) .flying] }
     (Unforked s.me ∧ s.me.dom = true ∧ s.me.sealing = false ∧ s.me.msgFault = none) ∧ ¬MaySeal s) ∧
    (∀ i : Fin 2, let s := if i = 0 then scalar 0 0 0 else joined (memberOf 4 4) fun c => { c with sealing := true }
     (s.me.dom = false ∨ s.me.sealing = true) ∧ s.me.msgFault = none ∧ MayTrap s ∧ Unforked s.me) ∧
    (let s := joined (memberOf 4 4) fun c => { c with msgFault := some ⟨0x07, 5, 0⟩ }
     s.me.msgFault = some ⟨0x07, 5, 0⟩ ∧ MayTrap s ∧ Unforked s.me) := by
  refine ⟨⟨by unfold Unforked; decide +kernel, by unfold Settled; decide +kernel, rfl, fun _ h => (List.not_mem_nil h).elim⟩,
    ⟨by unfold Unforked; decide +kernel, fun h => ?_⟩, by unfold Unforked MayTrap; decide +kernel, by unfold Unforked MayTrap; decide +kernel⟩
  have := h.2.2 _ (List.mem_singleton.mpr rfl) rfl
  rcases this with ⟨k, h⟩ | ⟨k, h⟩ <;> cases h

/-- SEALW sealed across the wrap, and waiting. -/
theorem witness_SealsAnnounced_wait : ∀ i : Fin 2, let s := joined (memberOf 0xFFFFFFFF 0xFFFFFFFF) fun c => { c with
      rin := #v[0xFFFFFFFF, 1][i]
      sealing := true
      wait := some .sealing }
    Unforked s.me ∧ s.me.sealing = true ∧ (s.ctx core0).wait = some .sealing ∧ (Later s.me.rin (s.die s.cur.die).sealed ↔ i = 1) := by
  unfold Unforked Later
  decide +kernel

theorem joined_resident (x : Domain) (f : Ctx → Ctx) (s : State) (h : s = joined x f) :
    s.forks = [] ∧ (∀ d : Fin 8, (s.die d).swaps = []) ∧ ∀ p : Fin 16, s.parts[p].saves = [] := by
  have hd : ∀ d : Fin 8, ((machine core0 id).die d).swaps = [] := by decide +kernel
  subst h
  refine ⟨rfl, fun d => ?_, by show ∀ p : Fin 16, (machine core0 id).parts[p].saves = []; decide +kernel⟩
  have : (joined x f).die d = { (machine core0 id).die d with
      sealed := x.s
      arrivedFor := following x.s } := by
    show ((machine core0 id).dies.map _)[d.val] = _
    rw [Vector.getElem_map]
    rfl
  rw [this]
  exact hd d

/-- Every die has arrived, and one whose context has not. -/
theorem witness_SealsCounted :
    (let x := memberOf 4 4
     let s := joined x fun c => { c with arrived := 5 }
     s.domain = some x ∧ Regular s ∧ AllResident s ∧ x.phase = .running ∧ x.s = x.declared ∧ following x.declared = 5 ∧ (∀ d : Fin 8, (s.die d).arrivedFor = 5) ∧
       ∀ (d : Fin 8) u, u.die = d → (s.ctx u).dom = true → (s.ctx u).status ≠ .free → (s.ctx u).status = .reserved ∨ ¬Later 5 (s.ctx u).arrived) ∧
    (let s := joined (memberOf 4 4) fun c => { c with arrived := 4 }
     ∃ u, u.die = 0 ∧ (s.ctx u).dom = true ∧ (s.ctx u).status = .live ∧ (s.ctx u).chunk = none ∧ Later 5 (s.ctx u).arrived) := by
  refine ⟨⟨rfl, ?_, joined_resident _ _ _ rfl, rfl, rfl, by decide, by decide +kernel, ?_⟩, core0, by unfold Later; decide +kernel⟩
  · unfold Regular
    decide +kernel
  · intro d u _ hd hf
    rw [joined_ctx] at hd hf ⊢
    split at hd
    · rw [if_pos ‹_›]
      right
      unfold Later
      decide
    · exact absurd hd (by decide)

/-- A seal declared, nothing being held; a pass of the scrubs that is not due, and one that is. -/
theorem witness_SealsCounted_apply : ∀ i : Fin 2,
    let x := { memberOf 4 5 with scrubbed := #v[4, 0x80000005][i] }
    let s := joined x id
    s.domain = some x ∧ x.declared ≠ x.s ∧ (∀ d : Fin 8, (s.die d).holds = []) ∧ ((x.declared - x.scrubbed).toNat < 2 ^ 31 ↔ i = 0) := by
  decide +kernel

/-- A device store of the sealed interval in two dies' holds and a later one; one to memory; a seal already applied. -/
theorem witness_SealsCounted_held :
    (let h (d : Nat) (rin : BitVec 32) (o : Nat) : HeldStore := ⟨core0, .here core0, rin, 0x130000000000 + 0x100000 * d + o, 8, 9, 0, []⟩
     let x := memberOf 4 5
     let s0 := joined x id
     let s := (s0.setDie 0 { s0.die 0 with holds := [h 0 5 0x100, h 0 6 0x100] }).setDie 7 { s0.die 7 with holds := [h 7 5 0x1000] }
     s.domain = some x ∧ x.declared ≠ x.s ∧ releasedStores s x.declared = [h 0 5 0x100, h 7 5 0x1000] ∧
       (∃ o, s.place (h 0 5 0x100).pa = .device o ∧ (registerStored s o 9).isSome = true) ∧
       ∃ o, s.place (h 7 5 0x1000).pa = .device o ∧ (registerStored s o 9).isSome = true) ∧
    (let h : HeldStore := ⟨core0, .here core0, 5, 0x1000, 8, 9, 0, []⟩
     let x := memberOf 4 5
     let s0 := joined x id
     let s := s0.setDie 0 { s0.die 0 with holds := [h] }
     s.domain = some x ∧ x.declared ≠ x.s ∧ releasedStores s x.declared = [h] ∧ IsMemory s h.pa) ∧
    (memberOf 4 4).declared = (memberOf 4 4).s := by
  refine ⟨⟨rfl, by decide, by decide +kernel, ⟨0x100, by decide +kernel⟩, ⟨0x701000, by decide +kernel⟩⟩, ⟨rfl, by decide, by decide +kernel, ?_⟩, rfl⟩
  exact .inl (by decide +kernel)

/-- A store of a domain context to memory whose sector has been tagged in the interval, is in the log for it, is in neither, and is in
neither while the writer's buffer is full. -/
theorem witness_TaggedStores : ∀ i : Fin 4,
    let r (pa : Nat) : UndoRec := ⟨pa, 0, 4, 5⟩
    let s0 := joined (memberOf 4 4) (withRegs 0x1008 9 0)
    let s := { s0.setDie 0 { s0.die 0 with undoBuf := if i = 3 then List.replicate 512 (r 0x40) else [] } with
      tags := [(0x40, #v[5, 4, 4, 0][i])]
      undo := s0.undo.set 0 (if i = 1 then [r 0x1000] else []) }
    let old := Table.getD s.tags (0x1008 / 64) 0
    let known := ((s.die 0).undoBuf ++ s.undo[(0 : Fin 8)]).any fun r => decide (r.pa = 64 * (0x1008 / 64)) && decide (r.k = s.me.rin)
    storeOf (.std 2 1 0) = some (2, 1, 0, 8) ∧ mapping (s.check (s.viewer s.cur) .store true (address s 1 0) 8) = some (flatMap 0x1008) ∧
      s.place 0x1008 = .dram ∧ (s.me.chunk = none ∧ s.me.sealing = false ∧ s.storeCount s.cur < 31 ∧ s.domain = some (memberOf 4 4) ∧ s.me.rin ≠ 0) ∧
      s.isExternal (64 * (0x1008 / 64)) = false ∧ (old = s.me.rin ↔ i = 0) ∧ (known = true ↔ i = 1) ∧ ((s.die 0).undoBuf.length < 512 ↔ i ≠ 3) ∧
      80 * (s.undo[(0 : Fin 8)].length + (s.die 0).undoBuf.length + 1) ≤ (memberOf 4 4).usize * 2 ^ 30 := by
  decide +kernel

/-- The same of a store to QSPM: tagged, in the region, in the buffer only, in neither. -/
theorem witness_TaggedBanks : ∀ i : Fin 4,
    let r (pa : Nat) : UndoRec := ⟨pa, 0, 4, 5⟩
    let pa := 0x100000000000
    let s0 := joined (memberOf 4 4) (withRegs 0x100000000000 9 0)
    let s := { s0.setDie 0 { s0.die 0 with undoBuf := if i = 2 then [r pa] else [] } with
      tags := [(pa / 64, #v[5, 4, 4, 0][i])]
      undo := s0.undo.set 0 (if i = 1 then [r pa] else []) }
    let old := Table.getD s.tags (pa / 64) 0
    let known (l : List UndoRec) := l.any fun r => decide (r.pa = 64 * (pa / 64)) && decide (r.k = s.me.rin)
    mapping (s.check (s.viewer s.cur) .store true (address s 1 0) 8) = some (flatMap pa) ∧ s.place pa = .qspm 0 0 0 ∧
      (s.me.chunk = none ∧ s.me.sealing = false ∧ s.storeCount s.cur < 31 ∧ s.domain = some (memberOf 4 4) ∧ s.me.rin ≠ 0) ∧
      s.isExternal (64 * (pa / 64)) = false ∧ (old = s.me.rin ↔ i = 0) ∧ (known s.undo[(0 : Fin 8)] = true ↔ i = 1) ∧
      (known (s.die 0).undoBuf = true ↔ i = 2) := by
  decide +kernel

/-- A store logs its sector once: the second one in the interval adds no record. -/
theorem test_store_logs_once :
    let s := joined (memberOf 4 4) (withRegs 0x1008 9 0)
    after (exec (.std 2 1 0) s) (fun t => decide ((t.die 0).undoBuf = [⟨0x1000, 0, 0, 5⟩]) && decide (Table.getD t.tags 0x40 0 = 5) &&
      after (exec (.stb 2 1 1) t) fun t' => decide ((t'.die 0).undoBuf.length = 1)) = true := by
  decide +kernel

/-- Pressure in and out of the running phase, by the threshold that the leader knows and at a fill of the region. -/
theorem witness_SealsCounted_pressure : ∀ i : Fin 3,
    let x := { memberOf 4 4 with phase := if i = 1 then .rolling else .running }
    let s0 := joined x fun c => { c with pressed := if i = 2 then 5 else 4 }
    let s := { s0 with hub := { s0.hub with ulogth := if i = 0 then 0 else s0.hub.ulogth } }
    s.domain = some x ∧ (x.phase ≠ .running ↔ i = 1) ∧ (s.ctx core0).status ≠ .reserved ∧ (s.ctx core0).chunk = none ∧
      ((s.ctx core0).dom = true ∧ (s.ctx core0).pressed ≠ (s.ctx core0).rin ↔ i ≠ 2) ∧ (s.hub.ulogth.toNat ≤ 80 * (s.undo[(0 : Fin 8)]).length ↔ i = 0) := by
  decide +kernel

/-- The slots of undo writes and of scrubbing, and one of neither. -/
theorem witness_SealsCounted_slots : ∀ i : Fin 3,
    let s := { joined (memberOf 4 4) id with time := 16 * #v[56, 62, 0][i] }
    (56 ≤ frameSlot s ∧ frameSlot s < 60 ↔ i = 0) ∧ (62 ≤ frameSlot s ↔ i = 1) ∧
      ∀ d : Fin 8, 80 * (s.undo[d].length + (s.die d).undoBuf.length) ≤ (memberOf 4 4).usize * 2 ^ 30 := by
  decide +kernel

/-- A rollback raised, with a snapshot of the sealed interval; RESUME; ROLLREQ. -/
def snapshotted : State := joined { memberOf 4 4 with wanted := true } fun c => { c with
  born := 4
  snaps := c.snaps.set 0 (some (snapOf c core0 0x40 5 false)) }

theorem witness_RollsBack :
    let x := { memberOf 4 4 with wanted := true }
    let s := snapshotted
    s.domain = some x ∧ x.phase ≠ .fatal ∧ x.wanted = true ∧ x.declared = x.s ∧ Regular s ∧ AllResident s ∧ Memory.wf s.mem = true ∧
      (∀ kq ∈ s.quads, ∀ i : Fin 4, kq.2.rwin[i].getLsbD 4 = false) ∧ (∀ d : Fin 8, (s.die d).holds = []) ∧
      (∀ u, (s.ctx u).chunk = none ∧ (s.ctx u).joinPhase = false) ∧
      ∀ u, (s.ctx u).dom = true → (s.ctx u).status ≠ .free → Later (s.ctx u).born x.s ∨ ∃ y, Holds (s.ctx u) x.s y ∧ y.home = u := by
  refine ⟨rfl, by decide, rfl, rfl, by unfold Regular; decide +kernel, joined_resident _ _ _ rfl, rfl, by decide +kernel, by decide +kernel, ?_, ?_⟩
  · intro u
    unfold snapshotted
    rw [joined_ctx]
    split <;> decide
  · intro u hd hf
    right
    unfold snapshotted at *
    rw [joined_ctx] at hd ⊢
    split at hd
    · next hu =>
      rw [if_pos hu, hu]
      exact ⟨_, ⟨rfl, rfl, rfl, rfl⟩, rfl⟩
    · exact absurd hd (by decide)

/-- A context of the domain restored, one slot bound, in a running partition and in one that is saved; RESUME before its time. -/
theorem witness_RollsBack_resume : ∀ i : Fin 2,
    let x := { memberOf 4 4 with phase := .rolling }
    let s0 := placed goodRecord fun c => { joining x id c with
      status := .rolling
      slots := c.slots.set 5 { bound 0 with ep := 0xFFFF0000 } }
    let s := { s0 with
      domain := some x
      time := 9
      parts := s0.parts.set 1 { Part.reset with pstate := #v[.running, .saved][i] } }
    (s.domain = some x ∧ x.phase = .rolling ∧ x.wanted = false ∧ x.reload = 0 ∧ s.hub.powerOff = false ∧ (9 : BitVec 64).toNat ≤ s.time ∧
      s.time < (10 : BitVec 64).toNat) ∧ Regular s ∧ (s.ctx core0).status = .rolling ∧ (s.ctx core0).dom = true ∧
      ((slotOf (s.ctx core0) 5).bnd = true ∧ (slotOf (s.ctx core0) 5).ep.toNat / 2 ^ 14 ≠ s.pkg.toNat) ∧
      (slotOf (s.ctx core0) 6).bnd = false ∧ (s.partOfCtx core0 ≠ 0 ∧ ((s.part (s.partOfCtx core0)).pstate = .running ↔ i = 0)) ∧
      (s.ctx core0).csr.trcctl.toNat % 8 = 0 := by
  unfold Regular
  decide +kernel

/-- A barrier within the domain with an arrival that the seal keeps and one that it drops, and one with a member outside it. -/
theorem witness_RollsBack_barriers :
    let x := { memberOf 4 4 with wanted := true }
    let s0 := placed goodRecord (joining x id)
    let bar (m : BitVec 1280) : BarDom := ⟨true, 2, m, 1, 1, [(4, 0, 1), (5, 1, 0)]⟩
    let s := { s0 with
      domain := some x
      bars := [(0, bar 3), (1, bar (2 ^ 100 + 1))] }
    s.domain = some x ∧ WhollyInside s ⟨.quad 0 0, 0⟩ 0 ∧ ¬WhollyInside s ⟨.quad 0 0, 1⟩ 0 ∧
      Splits 4 (s.bar ⟨.quad 0 0, 0⟩).history [(4, 0, 1)] [(5, 1, 0)] ∧ HoldsDomain s 0 0 := by
  refine ⟨rfl, ⟨.inl ⟨0, rfl⟩, by decide +kernel⟩, fun h => absurd (h.2 100 (by decide)) (by decide +kernel), ⟨rfl, ?_⟩, core0, by decide +kernel⟩
  unfold Later
  decide

/-- A restored context with one bound slot. -/
def drawing (c : Ctx) : Ctx := { joining (memberOf 4 4) id c with
  status := .rolling
  slots := c.slots.set 5 (bound 0) }

theorem drawing_ctx (v : CtxId) : (placed goodRecord drawing).ctx v =
    if v = core0 then drawing (withRegs 0x1000 (BitVec.ofNat 64 (State.reset.endpoint 0 1).toNat) 0 thread) else Ctx.idle :=
  machine_ctx core0 v fun c => drawing (withRegs 0x1000 (BitVec.ofNat 64 (State.reset.endpoint 0 1).toNat) 0 c)

/-- Its target lies in the module, and no other slot draws on the credit. -/
theorem witness_RollsBack_grants :
    let s := placed goodRecord drawing
    (slotOf (s.ctx core0) 5).bnd = true ∧ TargetIs s (slotOf (s.ctx core0) 5).ep 0 1 ∧ DrawsAlone s core0 5 0 1 := by
  refine ⟨by decide +kernel, by unfold TargetIs; decide +kernel, fun v j hv hd hne => ?_⟩
  rw [drawing_ctx] at hv ⊢
  split at hv
  · next h =>
    rw [if_pos h]
    have hj : j ≠ 5 := fun e => hne (by rw [h, e])
    clear hv hd hne
    revert j
    decide +kernel
  · exact absurd hv (by decide)

theorem witness_RollsBack_request :
    let s := { joined (memberOf 4 4) id with hub := { Hub.reset with step := 6 } }
    6 ≤ s.hub.step ∧ s.domain = some (memberOf 4 4) ∧ (memberOf 4 4).phase ≠ .fatal := by decide +kernel

theorem witness_Errors :
    (RecordRoom (scalar 0 0 0) ∧ (scalar 0 0 0).domain = none) ∧
    (((scalar 0 0 0).ctx core0).dom = false ∧ ((scalar 0 0 0).ctx core0).status ≠ .free ∧ ((scalar 0 0 0).ctx core0).chunk = none) ∧
    ((0 : BitVec 64).toNat / 2 ^ 42 % 2 ^ 4 = 0 ∧ (0 : BitVec 64).toNat / 2 ^ 28 % 2 ^ 6 ≠ 0x20 ∧ ((scalar 0 0 0).die 0).pthr.toNat % 2 ^ 32 = 0) ∧
    (let s := { scalar 0 0 0 with poison := [0x40] }
     (0x1000 : BitVec 48).toNat / 64 ∈ s.poison ∧ (s.ctx core0).status = .live ∧ (s.ctx core0).chunk = none) := by
  unfold RecordRoom
  decide +kernel

/-- A sector of the interval that is open, of a sealed one, of none in memory and of none in another partition's QSPM; an external
window. -/
theorem witness_Errors_sectors : ∀ i : Fin 5,
    let tag : BitVec 32 := #v[5, 4, 0, 0, 0][i]
    let pa : BitVec 48 := #v[0x1000, 0x1000, 0x1000, 0x100000000000, 0x10000][i]
    let x := memberOf 4 4
    let s := ({ joined x id with tags := if tag = 0 then [] else [(0x40, tag)] } : State).setGate 0 1 { Quad.reset with
      rwin := Quad.reset.rwin.set 0 (if i = 4 then window + 0x20 else 0) }
    (RecordRoom s ∧ s.domain = some x ∧ x.phase ≠ .fatal ∧ x.declared = x.s) ∧ s.forks = [] ∧ (∀ d : Fin 8, (s.die d).swaps = [] ∧ (s.die d).holds = []) ∧
      (s.isExternal pa.toNat = decide (i = 4)) ∧ (i ≠ 4 → tag = Table.getD s.tags (pa.toNat / 64) 0) ∧ (tag = 0 ↔ 2 ≤ i) ∧ (Later tag x.declared ↔ i = 0) := by
  unfold RecordRoom Later
  decide +kernel

theorem witness_Errors_apart : let s := joined (memberOf 4 4) id
    Apart s 0x100000000000 ∧ ¬Apart s 0x1000 := by
  refine ⟨⟨0, 0, by decide +kernel⟩, ?_⟩
  rintro ⟨d, q, h, _⟩
  have : (0x1000 : BitVec 48).toNat = 0x1000 := rfl
  omega

/-- A context of the domain, and a request of the open interval in the egress hold. -/
theorem witness_Errors_holders :
    let x := memberOf 4 4
    let s0 := joined x id
    let s := { s0 with net := [{ reqOf s0 3 1 (.put 0 [1]) (.held 0) with out := true }] }
    s.domain = some x ∧ x.phase ≠ .fatal ∧ Regular s ∧ (s.ctx core0).dom = true ∧ (s.ctx core0).status ≠ .free ∧
      ∃ r, (s.net.filter fun r => r.fromDie 0 && r.inHold)[0]? = some r ∧ Later r.rin x.declared := by
  unfold Regular
  exact ⟨rfl, by decide, by decide +kernel, by decide +kernel, by decide +kernel, _, rfl, by unfold Later; decide +kernel⟩

/-- A snapshot that holds the declared interval, one of a later interval and one of an earlier one. -/
theorem witness_Errors_snapshots : ∀ i : Fin 3,
    let x := memberOf 4 4
    let y := snapOf (joining x id thread) core0 0x40 (#v[5, 6, 4][i]) false
    let s := joined x fun c => { c with snaps := c.snaps.set 0 (some y) }
    (s.ctx core0).dom = true ∧ (s.ctx core0).snaps[(0 : Fin 2)] = some y ∧ (y.rin = sealedBy y x.declared ↔ i = 0) ∧
      (Later y.rin (sealedBy y x.declared) ↔ i = 1) := by
  unfold Later
  decide +kernel

/-- The machine before a store to DOMCFG. -/
def forming : State := { machine core0 id with hub := { Hub.reset with
  step := 6
  dommem := 1#1024 <<< (State.reset.pkg.toNat % 2 ^ 10) } }

/-- A domain of this package alone with the largest log, one of size 9, and none; dissolving. -/
theorem witness_Domains :
    (∀ i : Fin 3, let s := forming
     let v : BitVec 64 := BitVec.ofNat 64 (2 ^ 63 + #v[5, 5, 0][i] + State.reset.pkg.toNat * 2 ^ 16 + #v[8, 9, 8][i] * 2 ^ 36)
     6 ≤ s.hub.step ∧ Regular s ∧ AllResident s ∧ v.getLsbD 63 = true ∧ s.domain = none ∧ (v.toNat % 2 ^ 16 ≠ 0 ↔ i ≠ 2) ∧ v.toNat / 2 ^ 16 % 2 ^ 18 = s.pkg.toNat ∧
       (1 ≤ v.toNat / 2 ^ 36 % 2 ^ 4 ∧ (v.toNat / 2 ^ 36 % 2 ^ 4 ≤ 8 ↔ i ≠ 1)) ∧ s.hub.dommem.getLsbD (s.pkg.toNat % 2 ^ 10) = true) ∧
    (let s0 := placed goodRecord fun c => { c with slots := (c.slots.set 5 (bound 0)).set 6 { bound 0 with ep := 0xFFFFC000 } }
     let s := { s0 with hub := { Hub.reset with domparts := 2 } }
     (s.ctx core0).status ≠ .free ∧ s.partOfCtx core0 = 1 ∧ s.hub.domparts.getLsbD 1 = true ∧ (slotOf (s.ctx core0) 5).bnd = true ∧
       (slotOf (s.ctx core0) 5).ep.toNat = s.pkg.toNat * 2 ^ 14 + 1 ∧ (slotOf (s.ctx core0) 6).bnd = true ∧
       (slotOf (s.ctx core0) 6).ep.toNat / 2 ^ 24 ≠ s.pkg.toNat / 2 ^ 10) ∧
    (let s := { joined (memberOf 4 4) id with hub := { Hub.reset with step := 6 } }
     6 ≤ s.hub.step ∧ Regular s ∧ AllResident s ∧ s.domain = some (memberOf 4 4) ∧ (memberOf 4 4).declared = (memberOf 4 4).s ∧ ∀ d : Fin 8, (s.die d).holds = []) := by
  unfold Regular AllResident
  refine ⟨?_, ?_, ?_⟩ <;> decide +kernel

/-! ### A return that halts, and the module's own events -/

theorem witness_ReturnFromTrap_halts : ∀ i : Fin 3,
    let s := machine core0 fun c => { c with
      sup := decide (i ≠ 0)
      csr := { c.csr with
        exl := true
        xpc := #v[0, 2, 0x20000][i] } }
    s.me.chunk = none ∧ s.me.csr.exl = true ∧ (i = 0 → s.me.sup = false) ∧ (i = 1 → s.me.csr.xpc.toNat % 4 ≠ 0) ∧
      (i = 2 → limit s.cur ≤ s.me.csr.xpc.toNat) := by decide +kernel

/-- Paths of quads: one that holds the thread, one that is idle, and one under test; a path of no quad; level U. -/
theorem witness_SelfTests :
    (∀ i : Fin 2, let d : Fin 8 := #v[0, 7][i]
      let q : Fin 32 := #v[0, 31][i]
      let path := State.reset.pkg.toNat * 2 ^ 46 + d.val * 2 ^ 42 + q.val * 2 ^ 37 + 7 * 2 ^ 34
      let s := scalar (BitVec.ofNat 64 path) 0 0
      let t := s.setQuad d q.val { s.quad d q.val with bist := 1 }
      s.me.sup = true ∧ s.me.chunk = none ∧ (s.me.x 1).toNat = s.pkg.toNat * 2 ^ 46 + d.val * 2 ^ 42 + q.val * 2 ^ 37 + 7 * 2 ^ 34 ∧
        ((∀ n ∈ unitsOf q, ∀ k : Fin 4, (s.ctx (mkCtxId d.val n k.val)).status = .free) ↔ i = 1) ∧ (s.quad d q.val).bist.toNat % 4 ≠ 1 ∧
        (t.quad d q.val).bist.toNat % 4 = 1 ∧ MayTrap t ∧ MayTrap s ∧ Memory.wf t.mem = true) ∧
    (let s := scalar (-1) 0 0
     s.me.sup = true ∧ s.me.chunk = none ∧ MayTrap s ∧ ∀ (d : Fin 8) (q : Fin 32), (s.me.x 1).toNat ≠ s.pkg.toNat * 2 ^ 46 + d.val * 2 ^ 42 + q.val * 2 ^ 37 + 7 * 2 ^ 34) ∧
    (let s := machine core0 fun c => { c with sup := false }
     s.me.sup = false ∧ MayTrap s) ∧
    (∀ i : Fin 2, let v : BitVec 64 := #v[0, 16][i]
      core0.unit.val < 128 ∧ v.toNat ≤ 16) := by
  unfold MayTrap
  refine ⟨?_, ?_, ?_, ?_⟩ <;> decide +kernel

/-- A quad's self-test whose two failed rows have been repaired passes, CODEID 0. -/
theorem test_bist_complete : after (exec (.bistComplete 0 3 2 true) ((scalar 0 0 0).setQuad 0 3 { Quad.reset with
      bist := 1
      codeid := 9 })) (fun t => decide ((t.quad 0 3).bist.toNat % 4 = 2) && decide ((t.quad 0 3).bist.toNat / 256 % 256 = 2) && decide ((t.quad 0 3).codeid = 0)) = true := by
  decide +kernel

/-- A frame is due; the ring's account is below 0, low, and full; a quad is hot. -/
def framed (level : BitVec 2) (account : Int) : State :=
  let s := { scalar 0 0 0 with
    time := 1024
    frames := 0 }
  let s1 := s.setRing 0 0 { s.ring 0 0 with
    ealw := account
    elim := 8 }
  s1.setQuad 0 0 { s1.quad 0 0 with therm := level }

theorem witness_Housekeeping_frames :
    (∀ h : Fin 3, let s := framed (BitVec.ofNat 2 h.val) 0
      s.frames < s.time / 1024 ∧ s.ringFirst 0 0 = 0 ∧ (∀ i : Fin 4, s.ringLen 0 0 / 4 = 4 ∧ (s.quad 0 (0 + i.val)).therm.toNat ≤ h.val) ∧
        (s.quad 0 (0 + 0)).therm.toNat = h.val) ∧
    (let s := scalar 0 0 0
     s.time / 1024 ≤ s.frames) := by
  refine ⟨?_, ?_⟩ <;> decide +kernel

/-- A core's trace region at the start of memory, in its slot of the frame. -/
def tracing : State :=
  let s := { scalar 0 0 0 with time := 16 * 60 }
  let s1 := s.setDie 0 { s.die 0 with trcbase := 1 }
  s1.setCore 0 0 { s1.core 0 0 with entries := [0x42] }

theorem witness_Housekeeping :
    (RecordRoom (scalar 0 0 0) ∧ (scalar 0 0 0).domain = none ∧ Regular (scalar 0 0 0) ∧ AllResident (scalar 0 0 0)) ∧
    (let s := tracing
     let k := s.core 0 0
     let base := (s.die 0).trcbase.toNat / 2 ^ 21 % 2 ^ 27 * 2 ^ 21 + 0 * 0x4000
     (s.die 0).trcbase.getLsbD 0 = true ∧ base + 0x4000 ≤ s.dramEnd ∧ s.time / 16 % 64 = 60 ∧ k.drained ≤ s.time / 1024 ∧
       k.entries = [0x42] ∧ k.events = [] ∧ k.head.toNat % 2 ^ 32 + 1 < 2 ^ 32) ∧
    (∀ i : Fin 2, let s := { scalar 0 0 0 with time := #v[1048576, 0][i] }
     (s.sweeps < s.time / 1048576 ↔ i = 0) ∧ (s.regions.map (·.1)).Pairwise (· < ·)) := by
  unfold RecordRoom Regular AllResident
  refine ⟨?_, ?_, ?_⟩ <;> decide +kernel

/-- A trip of a domain: the first, and one within 1 s of the last. -/
theorem witness_Housekeeping_trip : ∀ i : Fin 2,
    let x := memberOf 4 4
    let s0 := joined x id
    let s := { s0 with
      hub := { s0.hub with tripped := if i = 1 then some 0 else none }
      time := 10 ^ 9 }
    s.domain = some x ∧ x.phase ≠ .fatal ∧ Regular s ∧ AllResident s ∧ x.declared = x.s ∧ (∀ d : Fin 8, (s.die d).holds = []) ∧
      (match s.hub.tripped with
        | none => false
        | some t0 => decide (s.time ≤ t0 + 10 ^ 9)) = decide (i = 1) := by
  unfold Regular AllResident
  decide +kernel

theorem test_trace_drains :
    after (exec (.traceDrain 0 0) tracing) (fun t => decide (memRead t.mem 0 32 = 0x42 :: List.replicate 31 0) && decide ((t.core 0 0).head = 1)) = true := by
  decide +kernel

/-! ### Gang switches -/

/-- GSWT of partition `p`: at `w`, naming partition `n`, armed or cancelled. -/
def gswt (w p n arm : Nat) : BitVec 64 := BitVec.ofNat 64 (w + p * 2 ^ 48 + n * 2 ^ 52 + arm * 2 ^ 63)

/-- The machine of `placed` with partition 1 as `f` leaves it. -/
def switching (f : Part → Part) (g : Ctx → Ctx) : State :=
  let s := placed goodRecord g
  { s with parts := s.parts.set 1 (f s.parts[1]) }

/-- The switch accepted: its WHEN 4,096 ns ahead, at the least, and as far as it may be; refused; cancelled in time and too late. -/
theorem witness_GangSwitches_arm :
    (1 : Fin 16) ≠ 0 ∧
    (∀ i : Fin 2, let s := switching id id
      let g := gswt (#v[4096, 2 ^ 47 - 1][i]) 1 0 1
      let x := s.parts[1]
      g.toNat / 2 ^ 48 % 2 ^ 4 = 1 ∧ g.getLsbD 63 = true ∧ x.pstate = .running ∧ x.armed = none ∧ g.toNat / 2 ^ 52 % 2 ^ 4 = 0 ∧
        s.time % 2 ^ 48 + 4096 ≤ g.toNat % 2 ^ 48 ∧ g.toNat % 2 ^ 48 < s.time % 2 ^ 48 + 2 ^ 47) ∧
    (let s := switching id id
     let g := gswt 4096 1 2 1
     g.toNat / 2 ^ 48 % 2 ^ 4 = 1 ∧ g.getLsbD 63 = true ∧ g.toNat / 2 ^ 52 % 2 ^ 4 ≠ 0 ∧ (s.part (g.toNat / 2 ^ 52 % 2 ^ 4)).pstate ≠ .saved) ∧
    (∀ i : Fin 3, let h := gswt (#v[4096, 2 ^ 47 - 1, 0][i]) 1 0 1
      let s := switching (fun x => { x with armed := some h }) id
      let g := gswt 0 1 0 0
      g.toNat / 2 ^ 48 % 2 ^ 4 = 1 ∧ g.getLsbD 63 = false ∧ s.parts[1].armed = some h ∧
        (i ≠ 2 ↔ s.time % 2 ^ 48 + 4096 ≤ h.toNat % 2 ^ 48) ∧ h.toNat % 2 ^ 48 < s.time % 2 ^ 48 + 2 ^ 47 ∧ (Reaches s (h.toNat % 2 ^ 48) ↔ i = 2)) := by
  unfold Reaches
  refine ⟨?_, ?_, ?_, ?_⟩ <;> decide +kernel

theorem switching_ctx (f : Part → Part) (g : Ctx → Ctx) (v : CtxId) (h : v ≠ core0) : (switching f g).ctx v = Ctx.idle := by
  show (machine core0 fun c => g (withRegs 0x1000 (BitVec.ofNat 64 (State.reset.endpoint 0 1).toNat) 0 c)).ctx v = Ctx.idle
  exact (machine_ctx core0 v _).trans (if_neg h)

/-- Every other context is free, so the premises about all contexts of the partition are about this one. -/
theorem witness_GangSwitches_others (f : Part → Part) (g : Ctx → Ctx) (v : CtxId) (h : ((switching f g).ctx v).status ≠ .free) : v = core0 :=
  Decidable.byContradiction fun hn => h (by rw [switching_ctx f g v hn]; decide)

/-- Before WHEN, at it, and once the contexts' work is done; a unit that GSWT has not reached. -/
theorem witness_GangSwitches_leave :
    (∀ i : Fin 2, let g := gswt (#v[1, 0][i]) 1 0 1
      let s := switching (fun x => { x with armed := some g }) id
      s.parts[1].armed = some g ∧ s.parts[1].pstate = .running ∧ s.parts[1].lates = [] ∧ Regular s ∧ s.domain = none ∧ Unforked (s.ctx core0) ∧
        (Reaches s (g.toNat % 2 ^ 48) ↔ i = 1)) ∧
    (let g := gswt 0 1 0 1
     let s := switching (fun x => { x with
       armed := some g
       pstate := .switching
       lates := [(0, 0), (0, 1)] }) id
     s.parts[1].armed = some g ∧ s.parts[1].pstate = .switching ∧ s.parts[1].lates = (0, 0) :: [(0, 1)] ∧ Regular s ∧ Unforked (s.ctx core0) ∧ RecordRoom s) := by
  unfold Regular Unforked Reaches RecordRoom
  refine ⟨?_, ?_⟩ <;> decide +kernel

theorem witness_GangSwitches_save :
    let g := gswt 0 1 0 1
    let s := switching (fun x => { x with
      armed := some g
      pstate := .switching
      psave := 0x200000 }) fun c => { c with status := .switching }
    (s.parts[1].armed = some g ∧ s.parts[1].pstate = .switching ∧ s.parts[1].lates = [] ∧ s.parts[1].entering = none ∧ g.toNat / 2 ^ 52 % 2 ^ 4 = 0) ∧ Regular s ∧
      s.domain = none ∧ Memory.wf s.mem = true ∧ Unforked (s.ctx core0) ∧ (s.ctx core0).dom = false ∧ Settled (s.ctx core0) ∧
      (s.ctx core0).tile.queue = [] ∧ (s.ctx core0).status ≠ .reserved ∧ core0.unit.val < 128 ∧ ∀ r ∈ (s.ctx core0).vregs.toList, r.hwm ≤ 16 := by
  unfold Regular Unforked Settled
  decide +kernel

/-- A save area that holds a thread, at its place for the context; a frame boundary before the resume is due, not yet, and due. -/
theorem witness_GangSwitches_enter :
    (let g := gswt 0 1 0 1
     let c := { Ctx.idle with status := .switching }
     let s0 := switching (fun x => { x with
       entering := some g
       go := true
       psave := 0x200000
       saves := [(core0, c)] }) id
     let s := { s0 with mem := memWrite s0.mem (saveBase 0x200000 core0) [1] }
     s.parts[1].entering = some g ∧ s.parts[1].go = true ∧ s.parts[1].saves = [(core0, c)] ∧ s.parts[1].forks = [] ∧ c.rolled = none ∧
       Unforked c ∧ s.domain = none ∧ s.poison = [] ∧ (∀ (d : Fin 8) (q : Fin 32), (s.quad d q.val).bist.toNat % 4 ≠ 1) ∧
       littleEndian s.mem (saveBase s.parts[1].psave.toNat core0) 8 = 1) ∧
    (∀ i : Fin 3, let s := { switching (fun x => { x with restored := some 1024 }) fun c => { c with status := .switching } with
       time := #v[2049, 1024, 2048][i] }
      s.parts[1].restored = some 1024 ∧ Regular s ∧ (i = 0 ↔ s.time % 1024 ≠ 0) ∧ (i = 1 ↔ s.time < 1024 + 1024) ∧ (s.ctx core0).status ≠ .free ∧
        s.partOfCtx core0 = 1 ∧ (s.ctx core0).csr.trcctl.toNat % 8 = 0) := by
  unfold Regular Unforked
  refine ⟨?_, ?_⟩ <;> decide +kernel

/-- At WHEN the context stops. -/
theorem test_gang_switch_stops : after (exec (.gangSwitchBegin 1) (switching (fun x => { x with armed := some (gswt 0 1 0 1) }) id))
    (fun t => decide ((t.ctx core0).status = .switching) && decide (t.parts[1].pstate = .switching)) = true := by decide +kernel

/-! ### Bring-up -/

def booting (f : Hub → Hub) : State := { State.reset with hub := f Hub.reset }

/-- A report that carries the nonce. -/
def answered (h : Hub) : Hub := { h with
  step := 8
  report := some ⟨h.nonce, 0, 1, 2, 3⟩ }

/-- Bring-up from its start, from every step before the last of its kind, and with more lanes lost than a die may lose. -/
theorem witness_BringUp :
    (∀ k : Fin 11, k ≠ 0 → Booting (booting fun h => { h with step := k.val - 1 }) k.val) ∧ LanesHold (booting id) ∧ (booting id).hub.asked = false ∧
    (booting fun h => { h with asked := true }).hub.asked = true ∧
    (let s := booting fun h => { h with lanesOff := (List.range 33).map fun k => (0, k) }
     Booting s 5 ∧ ¬LanesHold s) ∧
    (∀ i : Fin 2, let s := booting fun h => { h with uelanes := #v[0, 64][i] }
     Booting s 8 ∧ LanesHold s ∧ (s.hub.uelanes = 0 ↔ i = 0)) ∧
    (let s := booting fun h => { h with step := 5 }
     s.hub.step = 5 ∧ s.hub.failed = false) := by
  unfold Booting LanesHold
  decide +kernel

/-- The last doubleword of the staging window in recovery mode; an image; a nonce before and after step 8; attestation accepted and
repeated, and rejected. -/
theorem witness_BringUp_image :
    ((booting fun h => { h with recov := true }).hub.recov = true ∧ (0x3FFFFF8 : BitVec 26).toNat + 8 ≤ 2 ^ 26 ∧ (booting id).hub.recov = false) ∧
    ((0x130013FFFFFF : BitVec 48).toNat + ([0x55] : List Byte).length ≤ 0x130014000000 ∧ 0x130010000000 ≤ (0x130013FFFFFF : BitVec 48).toNat ∧
      (0x8000000000000000 : BitVec 64).getLsbD 63 = true) ∧
    (∀ i : Fin 2, let s := booting fun h => { answered h with step := #v[8, 10][i] }
     6 ≤ s.hub.step ∧ (s.hub.step = 8 ↔ i = 0) ∧ s.hub.failed = false ∧ s.hub.recov = false ∧ s.hub.report.map (fun (r : Report) => r.nonce) = some s.hub.nonce) ∧
    (let s := booting fun h => { h with step := 6 }
     6 ≤ s.hub.step ∧ s.hub.report = none ∧ (0 : BitVec 64) ≠ 1 ∧ (1 : BitVec 64).getLsbD 0 = true) := by
  refine ⟨?_, ?_, ?_, ?_⟩ <;> decide +kernel

/-- Attestation: its acceptance, and a reset in its place. -/
theorem test_attestation :
    (after (exec (.attokWrite 1) (booting answered)) (fun t => decide (t.hub.step = 10)) &&
     after (exec (.attokWrite 0) (booting answered)) (fun t => decide (t.hub.step = 0))) = true := by
  decide +kernel

/-! ### The control node -/

/-- The module at step 6 and at step 10. -/
def managed (step : Nat) : State := { scalar 0 0 0 with hub := { Hub.reset with step := step } }

/-- The first and the last byte of memory, unpoisoned and poisoned. -/
theorem witness_ControlNode_memory :
    (6 ≤ (managed 6).hub.step ∧ 6 ≤ (managed 10).hub.step ∧ (managed 6).hub.recov = false) ∧
    (∀ i : Fin 2, let s := managed 6
      let pa : BitVec 48 := #v[0, BitVec.ofNat 48 (State.reset.dramEnd - 1)][i]
      let p := { s with poison := [pa.toNat / 64] }
      ([0x55] : List Byte) ≠ [] ∧ pa.toNat + ([0x55] : List Byte).length ≤ s.dramEnd ∧ s.poison = [] ∧ RecordRoom p ∧
        ∃ x ∈ p.poison, pa.toNat < 64 * x + 64 ∧ 64 * x < pa.toNat + 1) := by
  unfold RecordRoom
  refine ⟨?_, ?_⟩ <;> decide +kernel

/-- A thread of a domain whose slot's target lies in the ring that RCFG gives to partition 1. -/
theorem witness_ControlNode_domain :
    let s0 := joined (memberOf 4 4) fun c => { c with slots := c.slots.set 5 { bound 0 with ep := State.reset.endpoint 0 20 } }
    let s := s0.setDie 0 { s0.die 0 with rcfg := (s0.die 0).rcfg.set 1 2 }
    s.domain ≠ none ∧ (s.ctx core0).dom = true ∧ (slotOf (s.ctx core0) 5).bnd = true ∧ TargetIs s (slotOf (s.ctx core0) 5).ep 0 20 ∧
      (s.die 0).rcfg[(1 : Fin 8)] = 2 ∧ s.forks = [] ∧ s.parts[(0 : Fin 16)].pstate = .free ∧ s.parts[(1 : Fin 16)].pstate = .free ∧
      (s.ctxs.all fun kc => decide (kc.1 = 0)) = true := by
  unfold TargetIs
  decide +kernel

theorem witness_ControlNode_rings :
    (let s := { managed 6 with ctxs := [] }
     let s1 := s.setDie 0 { s.die 0 with rcfg := (s.die 0).rcfg.set 0 2 }
     (3 : BitVec 64).toNat % 4 = 3 ∧ (0x102 : BitVec 64).toNat = 2 + 2 ^ 8 ∧ (s1.die 0).rcfg[(0 : Fin 8)] = 2 ∧ s1.ctxs = [] ∧ s1.forks = [] ∧
       s1.parts[(0 : Fin 16)].pstate = .free ∧ s1.parts[(1 : Fin 16)].pstate = .free) ∧
    (let s := managed 6
     let s1 := s.setDie 0 { s.die 0 with rcfg := (s.die 0).rcfg.set 0 0x102 }
     (1 : BitVec 64).toNat % 4 ≠ ((s1.die 0).rcfg[(0 : Fin 8)]).toNat % 4 ∧ ((s1.die 0).rcfg[(0 : Fin 8)]).toNat / 2 ^ (8 * 0 + 8) % 2 ^ 8 ≠ 0) ∧
    (let s := managed 6
     let v : BitVec 64 := BitVec.ofNat 64 (0xF + 7 * 2 ^ 8 + 2 ^ 48)
     v.toNat % 2 ^ 8 = 0xF ∧ v.toNat / 2 ^ 8 % 2 ^ 3 = 7 ∧ v.toNat / 2 ^ 11 % 2 ^ 3 = 0 ∧ v.toNat / 2 ^ 14 % 2 ^ 2 = 0 ∧ v.toNat / 2 ^ 48 ≠ 0 ∧
       (v.toNat / 2 ^ 16 % 2 ^ 32 + v.toNat / 2 ^ 48) * 2 ^ 16 ≤ s.dramEnd ∧ (0x10F : BitVec 64).toNat / 2 ^ 8 % 2 ^ 3 < 2) := by
  refine ⟨?_, ?_, ?_⟩ <;> decide +kernel

/-- HALTFREE of no halted slot; of each slot, halted. -/
theorem witness_ControlNode_contexts :
    (let s := managed 6
     ∀ k : Fin 4, (15 : BitVec 64).getLsbD k.val = true → (s.ctx (mkCtxId 0 0 k.val)).status ≠ .halted) ∧
    (∀ k : Fin 4, let u : CtxId := ⟨0, 0, k⟩
      let s : State := { machine u fun c => { c with status := .halted } with hub := { Hub.reset with step := 6 } }
      let v : BitVec 64 := BitVec.ofNat 64 (2 ^ k.val)
      (∀ i : Fin 4, v.getLsbD i.val = decide (i.val = k.val)) ∧ (s.ctx u).status = .halted ∧ Unforked (s.ctx u) ∧ s.net = [] ∧
        (∀ x ∈ (s.ctx u).slots.toList, x.bnd = false) ∧ after (exec (.haltFree 0 0 v) s) (fun t => decide ((t.ctx u).status = .free)) = true) := by
  unfold Unforked
  refine ⟨?_, ?_⟩ <;> decide +kernel

theorem witness_ControlNode_registers :
    ((0x1 : BitVec 64).getLsbD 0 = true ∧ (0x1 : BitVec 64).toNat / 2 ^ 16 % 2 ^ 16 = 0) ∧
    ((0 : BitVec 64).getLsbD 0 = false ∧ (0xFFFF0001 : BitVec 64).toNat / 2 ^ 16 % 2 ^ 16 ≠ 0) ∧
    (∀ d : Fin 8, ((managed 6).die d).ceval.length ≤ 1) ∧
    (∀ i : Fin 2, let c := (#v[(1499 : BitVec 64), 4001][i]).toNat % 2 ^ 13
      c < 1500 ∨ 4000 < c) ∧
    (∀ i : Fin 2, let c := (#v[(1500 : BitVec 64), 4000][i]).toNat % 2 ^ 13
      1500 ≤ c ∧ c ≤ 4000) ∧
    64 < (65 : BitVec 64).toNat % 2 ^ 7 := by
  refine ⟨?_, ?_, ?_, ?_, ?_, ?_⟩ <;> decide +kernel

theorem test_control_node :
    (after (exec (.capwWrite 4001) (managed 6)) (fun t => decide (t.hub.errlost = (managed 6).hub.errlost + 1) && decide (t.hub.capw = 4000)) &&
     after (exec (.dcrWrite 0x130000001000 0xFFFFFFFFFFFFFFFF) (managed 6)) (fun t => decide ((t.die 0).swbase = 0xFFFFFFF00000)) &&
     after (exec (.hostWrite 0x40 [1, 2]) (managed 6)) (fun t => decide (memRead t.mem 0x40 3 = [1, 2, 0]))) = true := by
  decide +kernel

/-! ### Decoding and steps -/

theorem witness_DecodeEncode :
    Instr.wellFormed (.famoFadd 5 6 7 4 2) = true ∧ Instr.hasWord (.famoFadd 5 6 7 4 2) = true ∧ decode 0x5CA63C80 = .ok (.famoFadd 5 6 7 4 2) :=
  ⟨rfl, rfl, by rfl⟩

/-- The machine that `issue core0` names next, its word at PC 0 `w`. -/
def issuing (w : Nat) (f : Ctx → Ctx) : State :=
  let s := machine core0 f
  let s1 := { s with agenda := [.issue core0] }
  s1.setCore 0 0 { s1.core 0 0 with istore := memWrite [] 0 (bytesOf 4 w) }

/-- What a word that issues needs of its state. -/
theorem issuing_of (s : State) (w : BitVec 32) (h : s.net = []) (hr : (s.ctx core0).status = .live ∧ (s.ctx core0).wait = none ∧
      (s.ctx core0).chunk = none ∧ (s.ctx core0).vecs = [] ∧ (s.ctx core0).rst = 0 ∧ s.hub.powerOff = false) (hp : (s.part (s.partOfCtx core0)).armed = none)
    (he : ((s.ctx core0).csr.exl = true ∨ ((s.ctx core0).gswDue = none ∧
      ((s.ctx core0).csr.ipend = false ∨ (s.ctx core0).csr.ie = false ∨ (s.ctx core0).sealing = true))) ∧
      ((List.range 4).map fun k => let d := s.ctx (mkCtxId core0.die.val core0.unit.val k)
        d.accs.length + d.vecs.length).sum < 16 ∧ s.time / 1024 ≤ s.frames) (hf : Fetches s core0 w) (hc : FitsClass s core0 w) :
    Runnable s core0 ∧ Fetches s core0 w ∧ FitsClass s core0 w ∧ ∀ r ∈ s.net, r.src ≠ some (Holder.here core0) := by
  exact ⟨⟨hr.1, hr.2.1, hr.2.2.1, hr.2.2.2.1, hr.2.2.2.2.1, hr.2.2.2.2.2, hp, he.1, he.2.1, he.2.2, fun _ m => (List.not_mem_nil (h ▸ m)).elim⟩, hf, hc,
    fun _ m => (List.not_mem_nil (h ▸ m)).elim⟩

/-- An ADDI, a YIELD, a vector instruction, a WFE and a word that is none. -/
theorem witness_StepRunsDecoded : ∀ i : Fin 5,
    let w : BitVec 32 := #v[0x08A5FFFF, 0xB4000003, 0x64224B80, 0xB4050004, 0][i]
    let s := issuing w.toNat id
    s.agenda = .issue core0 :: [] ∧ Runnable s core0 ∧ Fetches s core0 w ∧ FitsClass s core0 w ∧ ∀ r ∈ s.net, r.src ≠ some (Holder.here core0) := by
  intro i
  refine ⟨rfl, issuing_of _ _ rfl ?_ ?_ ?_ ?_ ?_⟩ <;> (try unfold Fetches) <;> (try unfold FitsClass) <;> (revert i; decide +kernel)

/-- A PC past the ISTORE; an event; a frame boundary that is due. -/
theorem witness_StepRunsDecoded_rest :
    (let s := issuing 0 fun c => { c with pc := 0x20000 }
     let s1 := { s with
       agenda := []
       cur := core0 }
     limit core0 ≤ (s.ctx core0).pc.toNat ∧ s1.me.csr.exl = false ∧ (handler s1.me false).toNat < limit core0) ∧
    Instr.hasWord .frameBoundary = false ∧ 0 < ({ State.reset with time := 1024 } : State).time / 1024 := by
  decide +kernel

theorem witness_StepRunsDecoded_words :
    decode 0x08A5FFFF = .ok (.addi 5 5 0xFFFF) ∧ refuses 0 = true ∧
    after (step (issuing 0x08A5FFFF id)) (fun t => decide (t.me.x 5 = 0xFFFFFFFFFFFFFFFF) && decide (t.time = 1)) = true ∧
    after (step (issuing 0 id)) (fun t => decide (t.me.csr.tcause = 0x01)) = true ∧
    after (step (issuing 0 fun c => { c with pc := 0x20000 })) (fun t => decide (t.me.csr.tcause = 0x06) && decide (t.me.csr.tval = 0x20000)) = true :=
  ⟨rfl, by decide +kernel, by decide +kernel, by decide +kernel, by decide +kernel⟩

/-- A SEALW of a domain context stays at its word until the seal comes. -/
theorem witness_StepRunsDecoded_waits :
    let s := { joined (memberOf 4 4) (fun c => { c with sealing := true }) with agenda := [.issue core0] }
    let s1 := s.setCore 0 0 { s.core 0 0 with istore := memWrite [] 0 (bytesOf 4 0xB0000001) }
    Runnable s1 core0 ∧ Fetches s1 core0 0xB0000001 ∧ FitsClass s1 core0 0xB0000001 ∧ decode 0xB0000001 = .ok .sealw ∧
      after (step s1) (fun t => decide ((t.ctx core0).wait = some .sealing) && decide ((t.ctx core0).pc = 0)) = true := by
  intro s s1
  have h := issuing_of s1 0xB0000001 rfl (by decide +kernel) (by decide +kernel) (by decide +kernel) (by unfold Fetches; decide +kernel)
    (by unfold FitsClass; decide +kernel)
  exact ⟨h.1, h.2.1, h.2.2.1, rfl, by decide +kernel⟩

/-- One vector instruction of each shape that R349 counts, performed with VL 5. -/
theorem witness_WorkDebits_vectors :
    let s := vector 5 (i32s [1, 2, 3, 4, 5]) (i32s [1, 2, 3, 4, 5]) (i32s [0, 4, 8, 12, 16])
    OnCore s ∧ s.me.rst = 0 ∧ ∀ i ∈ [Instr.vsplat 3 Tag.i32.code 1 0, .vadd 3 1 2 0 0, .vins 3 1 2, .kand 1 2 3, .vslide1 3 1 0, .vrsum 3 1 0, .kpop 4 1,
        .vamoAdd 1 0 3 0 0 0 0],
      after (exec i s) (fun t => decide (t.me.vecs.length = s.me.vecs.length + 1) && decide ((t.ringOf s.cur).ealw < (s.ringOf s.cur).ealw)) = true := by
  unfold OnCore
  decide +kernel

/-- A copy of 65 bytes, and a message of one beat. -/
theorem witness_WorkDebits_work :
    after (exec (.cpy 5 1 2 3) (scalar 0x1000 0x2000 128)) (fun t => decide (t.me.copies.length = 1)) = true ∧
    after (exec (.putMsg 5 1 2 3 0 0) (sender 8 0x1000 8 9)) (fun t => decide (t.net.length = 1)) = true ∧
    after (exec (.tileOpStart qcc0) (queued 0x300 0 .zero)) (fun t => decide ((t.ctx qcc0).tile.fault = none) &&
      (t.ctx qcc0).tile.queue.all fun o => o.started) = true := by
  refine ⟨?_, ?_, ?_⟩ <;> decide +kernel

/-- Contributions of three owners, each in one message. -/
theorem witness_WorkDebits_combining : let s := owning (i32s [1, 2])
    OnCore s ∧ s.me.rst = 0 ∧ after (exec (.vscacc 1 2 0) s) (fun t => decide (t.me.vecs.length = s.me.vecs.length + 1) &&
      decide (t.net = s.net ++ t.net)) = true := by
  unfold OnCore
  decide +kernel

/-- A TMMA in its first cycle with an allowance and without, and in the second; a module in which nothing runs. -/
theorem witness_CyclesDebited :
    (∀ i : Fin 3, let op : TileOp := { opOf (.mma 0 256 3 false) with
        started := true
        owed := [64, 64]
        half := decide (i = 2) }
      let s0 := (tile 0 0 0x311 0).upd fun c => { c with tile := { c.tile with queue := [op] } }
      let s := s0.setRing 0 (s0.ringFirst 0 0) { s0.ringOf qcc0 with ealw := if i = 0 then 5 else 0 }
      Regular s ∧ (s.ctx qcc0).tile.queue = [op] ∧ op.owed = 64 :: [64] ∧ ((s.ringOf qcc0).ealw ≤ 0 ↔ i ≠ 0) ∧ op.half = decide (i = 2)) ∧
    Regular (issuing 0 id) ∧ (issuing 0 id).ctxs.all (fun kc => kc.2.tile.queue.isEmpty) = true := by
  unfold Regular
  refine ⟨?_, ?_⟩ <;> decide +kernel

theorem witness_StepInvariant :
    Canonical State.reset ∧ Canonical (issuing 0x08A5FFFF id) ∧ after (step (issuing 0x08A5FFFF id)) (fun _ => true) = true := by
  unfold Canonical Regular
  refine ⟨?_, ?_, ?_⟩ <;> decide +kernel
end Sys2Proof.Tests
end

/-! # The scope chapter (00_scope.md): CSR accesses, refused CSR writes, the machine after reset -/

namespace Sys2Proof.Machine

open Sys2Proof.Claims

/-! ## How an instruction of a context outside a fork traps, and how one retires -/

theorem Ctx.counting_iff (c : Ctx) : c.counting = true ↔
    c.csr.trcctl.getLsbD 2 = true ∧ (c.csr.trcctl.getLsbD 3 = true → c.csr.trcctl.getLsbD 4 = true) := by
  unfold Ctx.counting bitOf
  cases c.csr.trcctl.getLsbD 2 <;> cases c.csr.trcctl.getLsbD 3 <;> simp

theorem counted_eq_count (c : Ctx) : counted c 14 1 = (c.count 15 1).csr.pmc := by
  unfold counted
  split
  · next h =>
    unfold Ctx.count
    rw [if_pos (by rw [c.counting_iff.mpr h]; rfl)]
    rfl
  · next h => rw [Ctx.count_off _ _ _ (by rwa [← c.counting_iff, Bool.not_eq_true] at h)]

theorem limit_eq_istoreSize (u : CtxId) : limit u = istoreSize u.unit.val := rfl

theorem handler_eq (c : Ctx) : handler c false = c.csr.trapv.setWidth 64 * 256 + 0 := by
  apply BitVec.eq_of_toNat_eq
  have h := State.enter_target c.csr false
  have := c.csr.trapv.isLt
  simp only [Bool.false_eq_true, if_false, Nat.add_zero] at h
  rw [h, handler, BitVec.toNat_ofNat]
  simp only [Bool.false_eq_true, if_false]
  omega

theorem causeCode_eq (cause : BitVec 8) : (cause.setWidth 10 ||| 0 ||| 0 : BitVec 10) = BitVec.ofNat 10 (cause.toNat + 0) := by
  apply BitVec.eq_of_toNat_eq
  have := cause.isLt
  simp

/-- A synchronous trap that the context may take puts it into its handler and changes nothing else (R358, R360). -/
theorem State.raise_of_mayTrap (s : State) (cause : BitVec 8) (val : Word) (h : MayTrap s) :
    s.raise cause val = s.setCtx s.cur (entered s.me false cause val s.me.pc 0) := by
  obtain ⟨hchunk, hexl, hin⟩ := h
  rw [handler_eq, limit_eq_istoreSize] at hin
  rw [s.raise_plain cause val hchunk, s.enter_plain s.cur false false cause val s.me.pc 0 hchunk (.inr hexl) hin]
  unfold entered
  rw [counted_eq_count, handler_eq, Ctx.count_frame]
  simp only [Bool.false_eq_true, if_false, causeCode_eq]
  rfl

theorem wordVal_eq_wordOf (i : Instr) : wordVal i = wordOf i := by
  apply BitVec.eq_of_toNat_eq
  simp [wordVal, wordOf]

theorem bitOf_or_shift (w : BitVec 32) (d r : BitVec 5) :
    bitOf (w ||| 1#32 <<< d.toNat) r.toNat = (bitOf w r.toNat || decide (r = d)) := by
  have hr := r.isLt
  have h : decide (r = d) = decide (r.toNat = d.toNat) := by simp [BitVec.toNat_eq]
  rw [h]
  unfold bitOf
  rw [BitVec.getLsbD_or, BitVec.getLsbD_shiftLeft, BitVec.getLsbD_one]
  congr 1
  rw [Bool.eq_iff_iff]
  simp only [Bool.and_eq_true, Bool.not_eq_true', decide_eq_true_eq, decide_eq_false_iff_not]
  omega

/-- A register write and the advance past the instruction are what the statements call `Wrote` (R85, R173). -/
theorem Ctx.advance_setX_wrote (c : Ctx) (d : BitVec 5) (v : Word) : Wrote c (c.setX d v).advance d v (c.pc + 4) := by
  refine ⟨?_, fun r => ?_, fun hc => ?_, fun ch hc => ?_⟩
  · unfold Ctx.setX
    split <;> rfl
  · rw [Ctx.advance_x, Ctx.x_setX]
    by_cases hr : r = 0
    · subst hr; rfl
    · simp only [hr, if_false, ne_eq, not_false_eq_true, true_and]
  · unfold Ctx.setX
    split <;> simp [Ctx.advance, hc]
  · by_cases hd : d = 0
    · subst hd
      refine ⟨ch.written, hc, fun r => ?_⟩
      by_cases hr : r = 0 <;> simp only [hr, ne_eq, not_true, not_false_eq_true, false_and, and_false, decide_false, Bool.or_false]
    · refine ⟨ch.written ||| 1#32 <<< d.toNat, ?_, fun r => ?_⟩
      · simp only [Ctx.setX, if_neg hd, Ctx.advance, hc, Option.map_some]
      · have hrd : (r ≠ 0 ∧ r = d) ↔ r = d := ⟨And.right, fun h => ⟨h ▸ hd, h⟩⟩
        rw [bitOf_or_shift, decide_eq_decide.mpr hrd]

/-- An instruction that retires with a value writes it and goes on at PC + 4. -/
theorem writes_of_exec_retire {i : Instr} {s : State} {d : BitVec 5} {v : Word} (h : exec i s = .next (s.retire d v)) :
    Writes i s d v (s.me.pc + 4) :=
  ⟨_, by rw [h, State.retire_eq], s.me.advance_setX_wrote d v⟩

/-! ## The CSRs by number (R375) -/

/-- The number of a CSR in the index of R375. -/
def CsrId.number (i : CsrId) : Nat :=
  match i with
  | .fflg => 0x001 | .frm => 0x002 | .vflg => 0x003 | .vl => 0x010 | .vtagl => 0x011 | .vtagh => 0x012 | .epx => 0x013
  | .vhwm n => 0x040 + n.val
  | .pol n => 0x060 + n.val
  | .cpydim => 0x070 | .trb => 0x080 | .fkliv => 0x090 | .fkvec => 0x091 | .fkcfg => 0x092 | .sqcnt => 0x093
  | .tfmt => 0x0A0 | .scla => 0x0A1 | .sclb => 0x0A2 | .apitch => 0x0A3 | .tln => 0x0A4
  | .alw n => 0x0B0 + n.val
  | .dslot n => 0x0C0 + n.val
  | .slotcfg => 0x0D0 | .owntbl => 0x0D1
  | .rin => 0x0E0 | .sealrin => 0x0E1 | .uloglvl => 0x0E2 | .ulogth => 0x0E3 | .holdlvl => 0x0E4 | .rollcnt => 0x0E5
  | .ealw => 0x0F0 | .ecls => 0x0F1 | .thpri => 0x0F2 | .desched => 0x0F3
  | .trapv => 0x100 | .tcause => 0x101 | .tval => 0x102 | .xpc => 0x103 | .xstat => 0x104 | .gswt => 0x105 | .ptroot => 0x106
  | .self => 0x107 | .xscr => 0x108 | .time => 0x110
  | .rwin n => 0x120 + n.val
  | .rngb n => 0x130 + n.val
  | .rngl n => 0x140 + n.val
  | .scopechk => 0x150 | .trcctl => 0x160
  | .pmc n => 0x161 + n.val

/-- One link of the index: what holds of its CSR and of the rest of the index holds of the whole. -/
theorem forall_mem_ite_some {p : Prop} [Decidable p] {α : Type} {a : α} {x : Option α} {Q : α → Prop} (ha : p → Q a)
    (hx : ∀ i ∈ x, Q i) : ∀ i ∈ (if p then some a else x), Q i := by
  split
  · next h => exact fun i hi => Option.some_inj.mp hi ▸ ha h
  · exact hx

theorem forall_mem_none {α : Type} {Q : α → Prop} : ∀ i ∈ (none : Option α), Q i := fun _ h => nomatch h

theorem csrCommon_number (n : Nat) : ∀ i ∈ csrCommon n, n = i.number := by
  unfold csrCommon
  repeat' refine forall_mem_ite_some ?_ ?_
  rotate_right
  · exact forall_mem_none
  all_goals
    intro h
    simp only [CsrId.number, mkFin4, mkFin16]
    omega

theorem csrOfCore_number (n : Nat) : ∀ i ∈ csrOfCore n, n = i.number := by
  unfold csrOfCore
  repeat' refine forall_mem_ite_some ?_ ?_
  rotate_right
  · exact forall_mem_none
  all_goals
    intro h
    simp only [CsrId.number, mkFin32]
    omega

theorem csrOfQcc_number (n : Nat) : ∀ i ∈ csrOfQcc n, n = i.number := by
  unfold csrOfQcc
  repeat' refine forall_mem_ite_some ?_ ?_
  rotate_right
  · exact forall_mem_none
  all_goals exact fun h => h

theorem csrAt_eq_or (qcc : Bool) (n : Nat) : csrAt qcc n = (csrCommon n).or (if qcc then csrOfQcc n else csrOfCore n) := by
  unfold csrAt
  cases csrCommon n <;> rfl

/-- A CSR stands at its own number only. -/
theorem csrAt_number {qcc : Bool} {n : Nat} {i : CsrId} (h : csrAt qcc n = some i) : n = i.number := by
  rw [csrAt_eq_or, Option.or_eq_some_iff] at h
  rcases h with h | ⟨-, h⟩
  · exact csrCommon_number n i h
  · cases qcc
    · exact csrOfCore_number n i h
    · exact csrOfQcc_number n i h

/-! ## What the number says of the access code (R4) -/

theorem CsrId.onlyS_number (i : CsrId) : onlyS i.number ↔ i.access = .so := by
  cases i <;> simp [onlyS, CsrId.number, CsrId.access] <;> omega

theorem CsrId.writesOnlyS_number (i : CsrId) : writesOnlyS i.number ↔ i.access = .srw := by
  cases i <;> simp [writesOnlyS, CsrId.number, CsrId.access] <;> omega

theorem CsrId.readOnly_number (i : CsrId) : readOnly i.number ↔ i.access = .ro := by
  cases i <;> simp [readOnly, CsrId.number, CsrId.access] <;> omega

/-! ## Words from their fields -/

theorem fieldsOf_nil : fieldsOf [] = 0#64 := rfl

theorem fieldsOf_cons (lo w x : Nat) (l : List (Nat × Nat × Nat)) : fieldsOf ((lo, w, x) :: l) = place lo w x ||| fieldsOf l := rfl

theorem fieldsOf_single (lo w x : Nat) : fieldsOf [(lo, w, x)] = place lo w x := by
  rw [fieldsOf_cons, fieldsOf_nil, BitVec.or_zero]

theorem place_flag (lo : Nat) (b : Bool) : place lo 1 (flag b) = boolBit lo b := by
  cases b <;> simp [place, boolBit, flag]

/-- A register of the machine in the low bits of a CSR. -/
theorem place_toNat {w : Nat} (v : BitVec w) (lo : Nat) : place lo w v.toNat = v.setWidth 64 <<< lo := by
  apply BitVec.eq_of_toNat_eq
  have := v.isLt
  simp [place, Nat.mod_eq_of_lt this, Nat.shiftLeft_eq]

theorem place_zero_toNat {w : Nat} (v : BitVec w) : place 0 w v.toNat = v.setWidth 64 := by
  rw [place_toNat, BitVec.shiftLeft_zero]

theorem place_all (x : Nat) : place 0 64 x = BitVec.ofNat 64 x := by
  apply BitVec.eq_of_toNat_eq
  simp [place]

/-- Fields joined from the left and from the right give the same word. -/
theorem foldl_or_eq {α : Type} (g : α → Word) (l : List α) (acc : Word) :
    l.foldl (fun w i => w ||| g i) acc = acc ||| l.foldr (fun i w => g i ||| w) 0#64 := by
  induction l generalizing acc with
  | nil => exact BitVec.or_zero.symm
  | cons i l ih => rw [List.foldl_cons, List.foldr_cons, ih, BitVec.or_assoc]

/-- The tags of a register file's half, packed from either end. -/
theorem packTags_eq_tagWord (v : Vector VReg 32) (base : Nat) : packTags v base = tagWord v base := by
  have hcode : ∀ t : Tag, t.code = tagCode t := fun t => by cases t <;> rfl
  unfold packTags
  simp only [hcode, foldl_or_eq, BitVec.ofNat_eq_ofNat, BitVec.zero_or]
  rw [tagWord, fieldsOf, List.foldr_map]
  rfl

/-! ## The parts of the state that the computed CSRs show -/

theorem threadUnit_eq_threadCtx (s : State) (u : CtxId) : threadUnit s u = s.threadCtx u := by
  unfold threadUnit State.threadCtx
  cases (s.ctx u).chunk
  · rfl
  · cases s.fork (s.forkIdOf u) <;> rfl

theorem threadPart_eq_liveThread (s : State) (u : CtxId) : threadPart s u = s.liveThread u := by
  unfold threadPart State.liveThread State.liveCtx
  cases (s.ctx u).chunk with
  | none => rfl
  | some ch =>
    cases s.fork (s.forkIdOf u) with
    | none => rfl
    | some x => exact congrArg (fun w => x.handover.getD (s.ctx w)) (threadUnit_eq_threadCtx s u)

/-- SQCNT is read where the thread is (R169, R185). -/
theorem liveSqOf_eq (s : State) (u : CtxId) : s.liveSqOf u = (s.liveThread u).sqcnt := by
  unfold State.liveSqOf State.liveThread State.liveCtx State.threadCtx
  cases hc : (s.ctx u).chunk with
  | none => rfl
  | some ch =>
    cases hf : s.fork (s.forkIdOf u) with
    | none => rfl
    | some x =>
      simp only [State.liveSq]
      cases x.handover <;> rfl

theorem inHold_eq_holdUsed (s : State) (d : Fin 8) : inHold s d = s.holdUsed d := by
  unfold inHold State.holdUsed
  congr 2
  refine List.map_congr_left fun r _ => ?_
  unfold Req.heldBeats
  cases r.stage <;> rfl

theorem freeHold_eq_holdFree (s : State) (d : Fin 8) : freeHold s d = s.holdFree d := by
  rw [freeHold, inHold_eq_holdUsed, State.holdFree]

theorem pathOf_eq_pathAllow (s : State) (x : DSlot) : pathOf s x = s.pathAllow x := by
  have hep : BitVec.ofNat 18 (x.ep.toNat / 2 ^ 14) = BitVec.ofNat 18 (field x.ep 14 18) := by
    apply BitVec.eq_of_toNat_eq
    simp [field]
  unfold pathOf State.pathAllow State.isXoff
  rw [hep]

theorem alwWord_eq_alwCsr (s : State) (d : Fin 8) (x : DSlot) : alwWord s d x = s.alwCsr d x := by
  unfold alwWord State.alwCsr State.allowance
  simp only [fieldsOf_cons, fieldsOf_nil, freeHold_eq_holdFree, pathOf_eq_pathAllow, BitVec.or_assoc]
  cases x.bnd <;> cases x.out <;> simp

theorem outst_eq (s : State) (u : CtxId) (ds : BitVec 4) :
    s.outst u ds = (s.net.filter fun r => decide (r.src = some (.here u)) && r.issued && decide (r.ds = ds) && !r.isStart).length := by
  unfold State.outst State.mine
  rw [List.filter_filter]
  congr 2
  funext r
  rw [Bool.and_comm, ← Bool.and_assoc]
  congr 1
  unfold Req.isStart
  cases r.kind <;> rfl

theorem dslotWord_eq_slotCsr (s : State) (u : CtxId) (n : Nat) (x : DSlot) :
    dslotWord s u n x = slotCsr x (s.outst (s.threadCtx u) (BitVec.ofNat 4 n)) := by
  unfold dslotWord slotCsr
  rw [outst_eq, threadUnit_eq_threadCtx]
  simp only [fieldsOf_cons, fieldsOf_nil, place_flag, BitVec.or_assoc]
  rw [BitVec.or_zero]

/-! ### The fullest undo stack (R311) -/

/-- One step of the search for the fullest stack: a later stack wins only if it is strictly fuller. -/
def fuller (used : Nat → Nat) (best : Nat × Nat) (k : Nat) : Nat × Nat := if used k > best.1 then (used k, k) else best

/-- The search among the first `n` stacks, as `State.fullest` makes it. -/
def fullestOf (used : Nat → Nat) (n : Nat) : Nat × Nat := (List.range n).foldl (fuller used) (used 0, 0)

/-- The most that one of the first `n` stacks holds. -/
def mostUsed (used : Nat → Nat) (n : Nat) : Nat := ((List.range n).map used).foldl max 0

theorem fullestOf_succ (used : Nat → Nat) (n : Nat) : fullestOf used (n + 1) = fuller used (fullestOf used n) n := by
  rw [fullestOf, List.range_succ, List.foldl_append]
  rfl

theorem mostUsed_succ (used : Nat → Nat) (n : Nat) : mostUsed used (n + 1) = max (mostUsed used n) (used n) := by
  rw [mostUsed, List.range_succ, List.map_append, List.foldl_append]
  rfl

theorem le_mostUsed (used : Nat → Nat) (n k : Nat) (h : k < n) : used k ≤ mostUsed used n := by
  induction n with
  | zero => exact absurd h (Nat.not_lt_zero k)
  | succ n ih =>
    rw [mostUsed_succ]
    rcases Nat.lt_or_eq_of_le (Nat.le_of_lt_succ h) with hk | rfl
    · exact Nat.le_trans (ih hk) (Nat.le_max_left _ _)
    · exact Nat.le_max_right _ _

/-- The search answers the maximum and the first place that attains it. -/
theorem fullestOf_spec (used : Nat → Nat) (n : Nat) : (fullestOf used (n + 1)).1 = mostUsed used (n + 1) ∧
    (List.range (n + 1)).find? (fun k => used k = mostUsed used (n + 1)) = some (fullestOf used (n + 1)).2 := by
  induction n with
  | zero => simp [fullestOf, mostUsed, fuller]
  | succ n ih =>
    obtain ⟨hmax, hfind⟩ := ih
    rw [fullestOf_succ, mostUsed_succ, List.range_succ, List.find?_append, fuller, hmax]
    by_cases h : used (n + 1) > mostUsed used (n + 1)
    · have hnone : (List.range (n + 1)).find? (fun k => used k = used (n + 1)) = none := by
        refine List.find?_eq_none.mpr fun k hk => ?_
        have := le_mostUsed used (n + 1) k (List.mem_range.mp hk)
        simp only [decide_eq_true_eq]
        omega
      rw [if_pos h, Nat.max_eq_right (Nat.le_of_lt h), hnone]
      simp
    · rw [if_neg h, Nat.max_eq_left (Nat.le_of_not_lt h), hfind]
      exact ⟨hmax, rfl⟩

theorem undoUsed_eq_getD (s : State) (k : Nat) (h : k < 8) : 80 * (s.undo.toList.getD k []).length = s.undoUsed k := by
  unfold State.undoUsed
  simp [List.getD, h, Nat.mod_eq_of_lt h]

theorem find?_eq_of_forall_mem {α : Type} {p q : α → Bool} {l : List α} (h : ∀ a ∈ l, p a = q a) : l.find? p = l.find? q := by
  induction l with
  | nil => rfl
  | cons a l ih =>
    obtain ⟨ha, hl⟩ := List.forall_mem_cons.mp h
    rw [List.find?_cons, List.find?_cons, ha, ih hl]

theorem ulogWord_eq_ulogLevel (s : State) : ulogWord s = s.ulogLevel := by
  obtain ⟨hmax, hfind⟩ := fullestOf_spec s.undoUsed 7
  have hmost : ((List.range 8).map fun k => 80 * (s.undo.toList.getD k []).length).foldl max 0 = mostUsed s.undoUsed 8 :=
    congrArg (List.foldl max 0) (List.map_congr_left fun k hk => undoUsed_eq_getD s k (List.mem_range.mp hk))
  have hplace : (List.range 8).find? (fun k => 80 * (s.undo.toList.getD k []).length = mostUsed s.undoUsed 8) =
      some (fullestOf s.undoUsed 8).2 := by
    rw [← hfind]
    exact find?_eq_of_forall_mem fun k hk => by rw [undoUsed_eq_getD s k (List.mem_range.mp hk)]
  unfold ulogWord State.ulogLevel ulogPack
  simp only [hmost, hplace, fieldsOf_cons, fieldsOf_nil, BitVec.or_zero]
  rw [← hmax]
  rfl

/-! ## A read gives the word of the field map (R365, R375) -/

theorem endpoint_eq_fields (s : State) (d : Fin 8) (n : Fin 160) :
    (s.endpoint d n.val).setWidth 64 = place 0 10 n.val ||| (place 10 4 d.val ||| place 14 18 s.pkg.toNat) := by
  have hd := d.isLt
  have hn := n.isLt
  have hp := s.pkg.isLt
  have hdie : d.val * 2 ^ 10 ||| s.pkg.toNat * 2 ^ 14 = s.pkg.toNat * 2 ^ 14 + d.val * 2 ^ 10 := by
    rw [Nat.or_comm, Nat.mul_comm _ (2 ^ 14), ← Nat.two_pow_add_eq_or_of_lt (by omega)]
  have hunit : n.val ||| (s.pkg.toNat * 2 ^ 14 + d.val * 2 ^ 10) = s.pkg.toNat * 2 ^ 14 + d.val * 2 ^ 10 + n.val := by
    rw [show s.pkg.toNat * 2 ^ 14 + d.val * 2 ^ 10 = 2 ^ 10 * (s.pkg.toNat * 2 ^ 4 + d.val) by omega, Nat.or_comm,
      ← Nat.two_pow_add_eq_or_of_lt (by omega)]
  apply BitVec.eq_of_toNat_eq
  simp only [State.endpoint, place, BitVec.toNat_or, BitVec.toNat_setWidth, BitVec.toNat_ofNat]
  rw [show n.val % 2 ^ 10 * 2 ^ 0 % 2 ^ 64 = n.val by omega, show d.val % 2 ^ 4 * 2 ^ 10 % 2 ^ 64 = d.val * 2 ^ 10 by omega,
    show s.pkg.toNat % 2 ^ 18 * 2 ^ 14 % 2 ^ 64 = s.pkg.toNat * 2 ^ 14 by omega, hdie, hunit]
  omega

section
variable (s : State) (u : CtxId)

theorem csrRead_fflg : s.csrRead u .fflg = fieldsOf [(0, 6, (s.ctx u).csr.fflg.toNat)] := by
  rw [fieldsOf_single, place_zero_toNat]; rfl

theorem csrRead_frm : s.csrRead u .frm = fieldsOf [(0, 3, (s.ctx u).csr.frm.toNat)] := by
  rw [fieldsOf_single, place_zero_toNat]; rfl

theorem csrRead_vflg : s.csrRead u .vflg = fieldsOf [(0, 6, (s.ctx u).csr.vflg.toNat)] := by
  rw [fieldsOf_single, place_zero_toNat]; rfl

theorem csrRead_vtagl : s.csrRead u .vtagl = tagWord (s.ctx u).vregs 0 := packTags_eq_tagWord _ 0

theorem csrRead_vtagh : s.csrRead u .vtagh = tagWord (s.ctx u).vregs 16 := packTags_eq_tagWord _ 16

theorem csrRead_fkcfg : s.csrRead u .fkcfg =
    fieldsOf [(0, 5, (s.ctx u).csr.fklim), (8, 5, (s.ringOf u).elim), (16, 1, flag (s.ctx u).csr.nopred)] := by
  simp only [fieldsOf_cons, fieldsOf_nil, place_flag, BitVec.or_zero]
  rw [BitVec.or_comm (place 8 5 _), ← BitVec.or_assoc]
  rfl

theorem csrRead_sqcnt : s.csrRead u .sqcnt = fieldsOf [(0, 16, (threadPart s u).sqcnt[0]), (16, 16, (threadPart s u).sqcnt[1]),
    (32, 16, (threadPart s u).sqcnt[2]), (48, 16, (threadPart s u).sqcnt[3])] := by
  simp only [fieldsOf_cons, fieldsOf_nil, BitVec.or_zero, ← BitVec.or_assoc, threadPart_eq_liveThread, ← liveSqOf_eq]
  rfl

theorem csrRead_tfmt : s.csrRead u .tfmt = fieldsOf [(0, 12, (s.ctx u).csr.tfmt.toNat)] := by
  rw [fieldsOf_single, place_zero_toNat]; rfl

theorem csrRead_alw (n : Fin 16) : s.csrRead u (.alw n) = alwWord s u.die (threadPart s u).slots[n] := by
  rw [alwWord_eq_alwCsr, threadPart_eq_liveThread]; rfl

theorem csrRead_dslot (n : Fin 16) (k : Nat) (h : BitVec.ofNat 4 n.val = BitVec.ofNat 4 k) :
    s.csrRead u (.dslot n) = dslotWord s u k (s.ctx u).slots[n] := by
  rw [dslotWord_eq_slotCsr, ← h]; rfl

theorem csrRead_owntbl : s.csrRead u .owntbl = fieldsOf [(0, 14, (s.ctx u).csr.owntbl.toNat)] := by
  rw [fieldsOf_single, place_zero_toNat]; rfl

theorem csrRead_rin : s.csrRead u .rin =
    if (s.ctx u).dom then fieldsOf [(0, 32, (s.ctx u).rin.toNat), (32, 1, flag (s.ctx u).dom), (33, 1, flag (s.ctx u).sealing)] else 0 := by
  simp only [fieldsOf_cons, fieldsOf_nil, place_zero_toNat, place_flag, BitVec.or_zero, ← BitVec.or_assoc]
  rfl

theorem csrRead_sealrin : s.csrRead u .sealrin = if (s.ctx u).dom then
    fieldsOf [(0, 32, (s.die u.die).sealed.toNat), (32, 16, ((s.domain.map fun (x : Domain) => x.domid).getD 0).toNat)] else 0 := by
  simp only [fieldsOf_cons, fieldsOf_nil, place_zero_toNat, BitVec.or_zero]
  rfl

theorem csrRead_uloglvl : s.csrRead u .uloglvl = if (s.ctx u).dom then ulogWord s else 0 := by
  rw [ulogWord_eq_ulogLevel]; rfl

theorem csrRead_ulogth : s.csrRead u .ulogth = if (s.ctx u).dom then fieldsOf [(0, 34, s.hub.ulogth.toNat)] else 0 := by
  rw [fieldsOf_single, place_zero_toNat]; rfl

theorem csrRead_holdlvl : s.csrRead u .holdlvl = if (s.ctx u).dom then fieldsOf [(0, 17, inHold s u.die)] else 0 := by
  rw [fieldsOf_single, inHold_eq_holdUsed]; rfl

theorem csrRead_rollcnt : s.csrRead u .rollcnt = if (s.ctx u).dom then (threadPart s u).rollcnt else 0 := by
  rw [threadPart_eq_liveThread]; rfl

theorem csrRead_ealw : s.csrRead u .ealw = fieldsOf [(0, 32, (BitVec.ofInt 32 (s.ringOf u).ealw).toNat), (32, 32, (s.ringOf u).quant)] := by
  simp only [fieldsOf_cons, fieldsOf_nil, place_zero_toNat, BitVec.or_zero]
  rfl

theorem csrRead_ecls : s.csrRead u .ecls = fieldsOf [(0, 64, (s.ctx u).csr.ecls), (8, 2,
    ((List.range (s.ringLen u.die (s.ringFirst u.die u.quad) / 4)).map fun i =>
      (s.quad u.die (s.ringFirst u.die u.quad + i)).therm.toNat).foldl max 0)] := by
  simp only [fieldsOf_cons, fieldsOf_nil, place_all, BitVec.or_zero, List.foldl_map]
  rfl

theorem csrRead_thpri : s.csrRead u .thpri =
    fieldsOf [(0, 3, (s.ctx u).csr.pri.toNat), (8, 8, (s.ctx u).csr.age), (16, 1, flag (s.ctx u).boost)] := by
  simp only [fieldsOf_cons, fieldsOf_nil, place_zero_toNat, place_flag, BitVec.or_zero, ← BitVec.or_assoc]
  rfl

theorem csrRead_desched : s.csrRead u .desched = fieldsOf [(0, 32, (s.ctx u).csr.desched.toNat)] := by
  rw [fieldsOf_single, place_zero_toNat]; rfl

theorem csrRead_trapv : s.csrRead u .trapv = fieldsOf [(8, 9, (s.ctx u).csr.trapv.toNat)] := by
  rw [fieldsOf_single, place_toNat]; rfl

theorem csrRead_tcause : s.csrRead u .tcause = fieldsOf [(0, 10, (s.ctx u).csr.tcause.toNat)] := by
  rw [fieldsOf_single, place_zero_toNat]; rfl

theorem csrRead_xstat : s.csrRead u .xstat = fieldsOf [(0, 1, flag (s.ctx u).sup), (1, 1, flag (s.ctx u).csr.ie),
    (2, 1, flag (s.ctx u).csr.exl), (3, 1, flag (s.ctx u).csr.plvl), (4, 1, flag (s.ctx u).csr.pie), (5, 1, flag (s.ctx u).csr.gsi),
    (6, 1, flag (s.ctx u).csr.ipend), (7, 1, flag ((s.ctx u).chunk.isSome || (s.ctx u).joinPhase || (s.ctx u).inner.isSome))] := by
  simp only [fieldsOf_cons, fieldsOf_nil, place_flag, BitVec.or_zero, ← BitVec.or_assoc]
  rfl

theorem csrRead_self : s.csrRead u .self =
    fieldsOf [(0, 10, u.unit.val), (10, 4, u.die.val), (14, 18, s.pkg.toNat), (32, 2, u.slot.val), (34, 4, s.partOfCtx u)] := by
  simp only [fieldsOf_cons, fieldsOf_nil, BitVec.or_zero]
  simp only [State.csrRead, selfPack, endpoint_eq_fields, BitVec.or_assoc]

theorem csrRead_scopechk : s.csrRead u .scopechk = fieldsOf [(0, 58, (s.ctx u).csr.scopechk.toNat)] := by
  rw [fieldsOf_single, place_zero_toNat]; rfl

theorem csrRead_trcctl : s.csrRead u .trcctl = fieldsOf [(0, 6, (s.ctx u).csr.trcctl.toNat)] := by
  rw [fieldsOf_single, place_zero_toNat]; rfl

end

/-- One link of two indexes that list the same CSRs, the one by name, the other by value. -/
theorem map_ite_some {p : Prop} [Decidable p] {α β : Type} {f : α → β} {a : α} {b : β} {x : Option α} {y : Option β}
    (h : f a = b) (k : x.map f = y) : (if p then some a else x).map f = if p then some b else y := by
  rw [apply_ite (Option.map f), Option.map_some, h, k]

theorem csrCommon_map_csrRead (s : State) (u : CtxId) (n : Nat) : (csrCommon n).map (s.csrRead u) = commonCsr s u n := by
  have hdslot : BitVec.ofNat 4 (mkFin16 (n - 0x0C0)).val = BitVec.ofNat 4 (n - 0x0C0) := by
    apply BitVec.eq_of_toNat_eq
    simp [mkFin16]
  exact map_ite_some (csrRead_fflg s u) <| map_ite_some (csrRead_frm s u) <|
    map_ite_some rfl /- POL -/ <| map_ite_some rfl /- CPYDIM -/ <| map_ite_some rfl /- TRB -/ <|
    map_ite_some (csrRead_alw s u _) <| map_ite_some (csrRead_dslot s u _ _ hdslot) <| map_ite_some rfl /- SLOTCFG -/ <|
    map_ite_some (csrRead_rin s u) <| map_ite_some (csrRead_sealrin s u) <| map_ite_some (csrRead_uloglvl s u) <|
    map_ite_some (csrRead_ulogth s u) <| map_ite_some (csrRead_holdlvl s u) <| map_ite_some (csrRead_rollcnt s u) <|
    map_ite_some (csrRead_ealw s u) <| map_ite_some (csrRead_ecls s u) <| map_ite_some (csrRead_thpri s u) <|
    map_ite_some (csrRead_desched s u) <| map_ite_some (csrRead_trapv s u) <| map_ite_some (csrRead_tcause s u) <|
    map_ite_some rfl /- TVAL -/ <| map_ite_some rfl /- XPC -/ <| map_ite_some (csrRead_xstat s u) <|
    map_ite_some rfl /- GSWT -/ <| map_ite_some rfl /- PTROOT -/ <| map_ite_some (csrRead_self s u) <|
    map_ite_some rfl /- XSCR -/ <| map_ite_some rfl /- TIME -/ <| map_ite_some rfl /- RWIN -/ <| map_ite_some rfl /- RNGB -/ <|
    map_ite_some rfl /- RNGL -/ <| map_ite_some (csrRead_scopechk s u) <| map_ite_some (csrRead_trcctl s u) <|
    map_ite_some rfl /- PMC -/ rfl

theorem csrOfCore_map_csrRead (s : State) (u : CtxId) (n : Nat) : (csrOfCore n).map (s.csrRead u) = coreCsr s u n :=
  map_ite_some (csrRead_vflg s u) <| map_ite_some rfl /- VL -/ <| map_ite_some (csrRead_vtagl s u) <|
    map_ite_some (csrRead_vtagh s u) <| map_ite_some rfl /- EPX -/ <| map_ite_some rfl /- VHWM -/ <|
    map_ite_some rfl /- FKLIV -/ <| map_ite_some rfl /- FKVEC -/ <| map_ite_some (csrRead_fkcfg s u) <|
    map_ite_some (csrRead_sqcnt s u) <| map_ite_some (csrRead_owntbl s u) rfl

theorem csrOfQcc_map_csrRead (s : State) (u : CtxId) (n : Nat) : (csrOfQcc n).map (s.csrRead u) = qccCsr s u n :=
  map_ite_some (csrRead_tfmt s u) <| map_ite_some rfl /- SCLA -/ <| map_ite_some rfl /- SCLB -/ <|
    map_ite_some rfl /- APITCH -/ <| map_ite_some rfl /- TLN -/ rfl

theorem isQcc_eq (u : CtxId) : u.isQcc = decide (128 ≤ u.unit.val) := rfl

/-- What a read of a CSR number gives is the word of the field map of the CSR there, and the two indexes list the same numbers. -/
theorem csrAt_map_csrRead (s : State) (u : CtxId) (n : Nat) : (csrAt u.isQcc n).map (s.csrRead u) = csrWord s u n := by
  rw [csrAt_eq_or, Option.map_or, csrCommon_map_csrRead, csrWord]
  congr 1
  by_cases h : u.unit.val < 128
  · simp [isQcc_eq, h, Nat.not_le_of_lt h, csrOfCore_map_csrRead]
  · simp [isQcc_eq, h, Nat.le_of_not_lt h, csrOfQcc_map_csrRead]

/-! ## Words given bit by bit -/

theorem getLsbD_fromBits (f : Nat → Bool) (k : Nat) (hk : k < 64) : (fromBits f).getLsbD k = f k := by
  rw [fromBits, BitVec.getLsbD_setWidth, BitVec.getLsbD_ofBoolListLE]
  simp [hk]

theorem eq_fromBits {w : Word} {f : Nat → Bool} (h : ∀ k < 64, w.getLsbD k = f k) : w = fromBits f :=
  BitVec.eq_of_getLsbD_eq fun k hk => by rw [h k hk, getLsbD_fromBits f k hk]

/-! ## CSR instructions (R364, R365) -/

/-- Whether a CSR instruction of this mode writes: CSRS and CSRC with a = s0 only read (R365). -/
def CsrMode.writes (m : CsrMode) (a : BitVec 5) : Bool :=
  match m with
  | .read => false
  | .write => true
  | .set => decide (a ≠ 0)
  | .clear => decide (a ≠ 0)

/-- The word that the mode makes of the old word and s[a] (R365). -/
def CsrMode.apply (m : CsrMode) (old a : Word) : Word :=
  match m with
  | .read => old
  | .write => a
  | .set => old ||| a
  | .clear => old &&& ~~~a

theorem exec_of_readsCsr {i : Instr} {d : BitVec 5} {n : BitVec 12} (h : ReadsCsr i d n) :
    ∃ m : CsrMode, m.writes 0 = false ∧ ∀ s, exec i s = .next (s.csrOp i m d 0 n) := by
  rcases h with rfl | rfl | rfl
  · exact ⟨.read, rfl, fun _ => rfl⟩
  · exact ⟨.set, rfl, fun _ => rfl⟩
  · exact ⟨.clear, rfl, fun _ => rfl⟩

/-- A CSR instruction that writes leaves what its mode makes of the old word and s[a] (R365). -/
theorem exec_of_writesCsr {i : Instr} {d a : BitVec 5} {n : BitVec 12} (h : WritesCsr i d a n) :
    ∃ m : CsrMode, m.writes a = true ∧ (∀ s, exec i s = .next (s.csrOp i m d a n)) ∧
      ∀ old x, csrEffect old x d a n i = some (m.apply old x) := by
  rcases h with rfl | ⟨ha, rfl | rfl⟩
  · exact ⟨.write, rfl, fun _ => rfl, fun old x => if_pos ⟨rfl, rfl, rfl⟩⟩
  · refine ⟨.set, decide_eq_true ha, fun _ => rfl, fun old x => ?_⟩
    rw [csrEffect, if_pos ⟨rfl, rfl, rfl⟩]
    exact congrArg some (eq_fromBits fun k _ => BitVec.getLsbD_or).symm
  · refine ⟨.clear, decide_eq_true ha, fun _ => rfl, fun old x => ?_⟩
    rw [csrEffect, if_pos ⟨rfl, rfl, rfl⟩]
    refine congrArg some (eq_fromBits fun k hk => ?_).symm
    rw [CsrMode.apply, BitVec.getLsbD_and, BitVec.getLsbD_not, decide_eq_true hk, Bool.true_and]

/-- What a CSR instruction that may write does, once its context has reached its turn (R365, R366). -/
def State.csrWrite (s : State) (m : CsrMode) (id : CsrId) (d a : BitVec 5) : State :=
  if !s.me.csrReady id true then s.hold .poll
  else if id = .gswt && decide (s.me.wait ≠ some .hub) then s.hold .hub
  else match s.csrStore id (csrNew m id (s.csrRead s.cur id) (s.x a)) with
  | none => s.illegalOperand
  | some t => (if id.chunkOwn then t else t.imageCsr m id (csrNew m id (s.csrRead s.cur id) (s.x a)) (s.x a)).retire d (s.csrRead s.cur id)

section
variable (s : State) (i : Instr) (m : CsrMode) (d a : BitVec 5) (n : BitVec 12) (id : CsrId)

theorem State.csrOp_none (h : csrAt s.cur.isQcc n.toNat = none) : s.csrOp i m d a n = s.illegal i := by
  unfold State.csrOp
  simp only [h]

theorem State.csrOp_some (h : csrAt s.cur.isQcc n.toNat = some id) : s.csrOp i m d a n =
    if !id.access.allows s.me.sup (m.writes a) then s.privileged i
    else if !m.writes a then (if s.me.csrReady id false then s.retire d (s.csrRead s.cur id) else s.hold .poll)
    else s.csrGate id fun s => s.csrWrite m id d a := by
  unfold State.csrOp
  simp only [h]
  rfl

theorem State.csrOp_privileged (h : csrAt s.cur.isQcc n.toNat = some id) (hlevel : id.access.allows s.me.sup (m.writes a) = false) :
    s.csrOp i m d a n = s.privileged i := by
  simp only [s.csrOp_some i m d a n id h, hlevel, Bool.not_false, if_true]

theorem State.csrOp_read (h : csrAt s.cur.isQcc n.toNat = some id) (hm : m.writes a = false)
    (hlevel : id.access.allows s.me.sup false = true) (hready : s.me.csrReady id false = true) :
    s.csrOp i m d a n = s.retire d (s.csrRead s.cur id) := by
  simp only [s.csrOp_some i m d a n id h, hm, hlevel, hready, Bool.not_true, Bool.not_false, Bool.false_eq_true, if_true, if_false]

theorem State.csrGate_plain (f : State → State) (hchunk : s.me.chunk = none) : s.csrGate id f = f s := by
  unfold State.csrGate
  rw [s.irrevocably_plain f hchunk, ite_self]

theorem State.csrOp_write (h : csrAt s.cur.isQcc n.toNat = some id) (hm : m.writes a = true)
    (hlevel : id.access.allows s.me.sup true = true) (hchunk : s.me.chunk = none) :
    s.csrOp i m d a n = s.csrWrite m id d a := by
  simp only [s.csrOp_some i m d a n id h, hm, hlevel, Bool.not_true, Bool.false_eq_true, if_false, s.csrGate_plain id _ hchunk]

theorem State.csrWrite_refused (hready : s.me.csrReady id true = true) (hgswt : id ≠ .gswt)
    (hstore : s.csrStore id (csrNew m id (s.csrRead s.cur id) (s.x a)) = none) : s.csrWrite m id d a = s.illegalOperand := by
  unfold State.csrWrite
  simp only [hready, hgswt, hstore, decide_false, Bool.false_and, Bool.not_true, Bool.false_eq_true, if_false]

theorem State.imageCsr_plain (v x : Word) (hchunk : s.me.chunk = none) : s.imageCsr m id v x = s := by
  unfold State.imageCsr
  rw [hchunk]

theorem State.csrWrite_stored (t : State) (hready : s.me.csrReady id true = true) (hgswt : id ≠ .gswt)
    (hstore : s.csrStore id (csrNew m id (s.csrRead s.cur id) (s.x a)) = some t) (hchunk : t.me.chunk = none) :
    s.csrWrite m id d a = t.retire d (s.csrRead s.cur id) := by
  unfold State.csrWrite
  simp only [hready, hgswt, hstore, decide_false, Bool.false_and, Bool.not_true, Bool.false_eq_true, if_false,
    t.imageCsr_plain m id _ _ hchunk, ite_self]

end

/-! ### What an access waits for -/

theorem CsrId.chunkOwn_number {id : CsrId} (h : id.chunkOwn = true) :
    (0x010 ≤ id.number ∧ id.number ≤ 0x013) ∨ (0x040 ≤ id.number ∧ id.number ≤ 0x05F) := by
  cases id <;> simp_all [CsrId.chunkOwn, CsrId.number]
  omega

/-- An access whose awaited work is done goes on; a write of a tile CSR waits for queued operations besides (R133, R211, R235). -/
theorem Ctx.csrReady_of_nothingAwaited (c : Ctx) (id : CsrId) (w : Bool) (h : NothingAwaited c id.number)
    (htile : w = true → 0x0A0 ≤ id.number ∧ id.number ≤ 0x0A3 → ∀ o ∈ c.tile.queue, o.started = true) : c.csrReady id w = true := by
  obtain ⟨hvecs, haccs⟩ := h
  unfold Ctx.csrReady
  split
  · next hown => rw [hvecs (CsrId.chunkOwn_number hown)]; rfl
  · split
    · next hf => exact List.all_eq_true.mpr (haccs (by rw [hf]; rfl))
    · split
      · next hid =>
        cases w
        · rfl
        · refine List.all_eq_true.mpr (htile rfl ?_)
          simp only [Bool.or_eq_true, decide_eq_true_eq] at hid
          rcases hid with ((rfl | rfl) | rfl) | rfl <;> decide
      · rfl

/-! ### The level (R4) -/

theorem CsrId.allows_read (id : CsrId) (sup : Bool) (h : onlyS id.number → sup = true) : id.access.allows sup false = true := by
  rw [CsrId.onlyS_number] at h
  cases ha : id.access <;> simp_all [Access.allows]

theorem CsrId.allows_write (id : CsrId) (sup : Bool) (h : onlyS id.number ∨ writesOnlyS id.number → sup = true) :
    id.access.allows sup true = true := by
  rw [CsrId.onlyS_number, CsrId.writesOnlyS_number] at h
  cases ha : id.access <;> simp_all [Access.allows]

theorem CsrId.refuses_read (id : CsrId) (h : onlyS id.number) (w : Bool) : id.access.allows false w = false := by
  rw [(CsrId.onlyS_number id).mp h]
  rfl

theorem CsrId.refuses_write (id : CsrId) (h : onlyS id.number ∨ writesOnlyS id.number) : id.access.allows false true = false := by
  rw [CsrId.onlyS_number, CsrId.writesOnlyS_number] at h
  rcases h with h | h <;> rw [h] <;> rfl

/-! ### A CSR of access code RO keeps its value -/

theorem Ctx.csrPut_readOnly (c : Ctx) (qcc : Bool) (id : CsrId) (v : Word) (h : id.access = .ro) : c.csrPut qcc id v = some c := by
  cases id <;> cases h <;> rfl

theorem State.csrStore_readOnly (s : State) (id : CsrId) (v : Word) (h : id.access = .ro) :
    s.csrStore id v = some (s.setCtx s.cur s.me) := by
  have hput := s.me.csrPut_readOnly s.cur.isQcc id v h
  cases id <;> cases h <;> exact congrArg (Option.map fun c => s.setCtx s.cur c) hput

theorem Ctx.csrReady_readOnly (c : Ctx) (id : CsrId) (w : Bool) (h : id.access = .ro) : c.csrReady id w = true := by
  cases id <;> cases h <;> rfl

/-- A write of a CSR of access code RO only reads it (R4). -/
theorem State.csrWrite_readOnly (s : State) (m : CsrMode) (id : CsrId) (d a : BitVec 5) (h : id.access = .ro)
    (hchunk : s.me.chunk = none) : s.csrWrite m id d a = (s.setCtx s.cur s.me).retire d (s.csrRead s.cur id) :=
  s.csrWrite_stored m d a id _ (s.me.csrReady_readOnly id true h) (fun hid => by rw [hid] at h; cases h)
    (s.csrStore_readOnly id _ h) (by rw [State.me_setCtx]; exact hchunk)

/-! ### The cases of a CSR instruction as the statements put them -/

section
variable {s : State} {i : Instr} {d a : BitVec 5} {n : BitVec 12}

/-- Where the unit has the CSR, its number names it and its word is what a read gives. -/
theorem csrAt_of_csrWord {w : Word} (h : csrWord s s.cur n.toNat = some w) :
    ∃ id, csrAt s.cur.isQcc n.toNat = some id ∧ n.toNat = id.number ∧ s.csrRead s.cur id = w := by
  rw [← csrAt_map_csrRead, Option.map_eq_some_iff] at h
  obtain ⟨id, hid, hw⟩ := h
  exact ⟨id, hid, csrAt_number hid, hw⟩

theorem csrAt_of_csrWord_none (h : csrWord s s.cur n.toNat = none) : csrAt s.cur.isQcc n.toNat = none := by
  rwa [← csrAt_map_csrRead, Option.map_eq_none_iff] at h

theorem writes_of_readsCsr {w : Word} (h : csrWord s s.cur n.toNat = some w) (hi : ReadsCsr i d n)
    (hlevel : onlyS n.toNat → s.me.sup = true) (hready : NothingAwaited s.me n.toNat) : Writes i s d w (s.me.pc + 4) := by
  obtain ⟨id, hid, hn, rfl⟩ := csrAt_of_csrWord h
  obtain ⟨m, hm, hexec⟩ := exec_of_readsCsr hi
  rw [hn] at hlevel hready
  refine writes_of_exec_retire ?_
  rw [hexec, s.csrOp_read i m d 0 n id hid hm (id.allows_read _ hlevel)
    (s.me.csrReady_of_nothingAwaited id false hready fun h => Bool.noConfusion h)]

theorem traps_of_exec_raise {cause : BitVec 8} {val : Word} (h : exec i s = .next (s.raise cause val)) (hmay : MayTrap s) :
    Traps i s cause val := by
  rw [Traps, h, s.raise_of_mayTrap cause val hmay]

theorem traps_privilege_of_readsCsr {w : Word} (h : csrWord s s.cur n.toNat = some w) (hi : ReadsCsr i d n) (hn : onlyS n.toNat)
    (hsup : s.me.sup = false) (hmay : MayTrap s) : Traps i s 0x0C (wordVal i) := by
  obtain ⟨id, hid, hnum, -⟩ := csrAt_of_csrWord h
  obtain ⟨m, -, hexec⟩ := exec_of_readsCsr hi
  refine traps_of_exec_raise ?_ hmay
  rw [hexec, s.csrOp_privileged i m d 0 n id hid (by rw [hsup]; exact id.refuses_read (hnum ▸ hn) _), wordVal_eq_wordOf]
  rfl

theorem traps_privilege_of_writesCsr {w : Word} (h : csrWord s s.cur n.toNat = some w) (hi : WritesCsr i d a n)
    (hn : onlyS n.toNat ∨ writesOnlyS n.toNat) (hsup : s.me.sup = false) (hmay : MayTrap s) : Traps i s 0x0C (wordVal i) := by
  obtain ⟨id, hid, hnum, -⟩ := csrAt_of_csrWord h
  obtain ⟨m, hm, hexec, -⟩ := exec_of_writesCsr hi
  refine traps_of_exec_raise ?_ hmay
  rw [hexec, s.csrOp_privileged i m d a n id hid (by rw [hsup, hm]; exact id.refuses_write (hnum ▸ hn)), wordVal_eq_wordOf]
  rfl

theorem writes_of_readOnly {w : Word} (h : csrWord s s.cur n.toNat = some w) (hi : WritesCsr i d a n) (hn : readOnly n.toNat)
    (hchunk : s.me.chunk = none) : Writes i s d w (s.me.pc + 4) := by
  obtain ⟨id, hid, hnum, rfl⟩ := csrAt_of_csrWord h
  obtain ⟨m, hm, hexec, -⟩ := exec_of_writesCsr hi
  have hro : id.access = .ro := id.readOnly_number.mp (hnum ▸ hn)
  refine writes_of_exec_retire ?_
  rw [hexec, s.csrOp_write i m d a n id hid hm (by rw [hro]; rfl) hchunk, s.csrWrite_readOnly m id d a hro hchunk]
  simp only [State.retire_eq, State.setCtx_cur, State.me_setCtx, State.setCtx_setCtx]

theorem traps_illegal_of_no_csr (h : csrWord s s.cur n.toNat = none) (hi : ReadsCsr i d n ∨ WritesCsr i d a n) (hmay : MayTrap s) :
    Traps i s 0x01 (wordVal i) := by
  have hid := csrAt_of_csrWord_none h
  have hexec : ∃ m a', exec i s = .next (s.csrOp i m d a' n) := by
    rcases hi with hi | hi
    · obtain ⟨m, -, hexec⟩ := exec_of_readsCsr hi
      exact ⟨m, 0, hexec s⟩
    · obtain ⟨m, -, hexec, -⟩ := exec_of_writesCsr hi
      exact ⟨m, a, hexec s⟩
  obtain ⟨m, a', hexec⟩ := hexec
  refine traps_of_exec_raise ?_ hmay
  rw [hexec, s.csrOp_none i m d a' n hid, wordVal_eq_wordOf]
  rfl

end

/-- Settles O8: a CSR number names one CSR (`csrAt_number`), whose read is the word of its field map (`csrAt_map_csrRead`). -/
theorem csrReads : Obligations.CsrReads := by
  intro s i d a n
  refine ⟨fun w hw => ⟨?_, ?_, ?_, ?_⟩, fun hnone hi hmay => traps_illegal_of_no_csr hnone hi hmay⟩
  · exact fun hi hlevel hready => writes_of_readsCsr hw hi hlevel hready
  · exact fun hi hn hsup hmay => traps_privilege_of_readsCsr hw hi hn hsup hmay
  · exact fun hi hn hchunk => writes_of_readOnly hw hi hn hchunk
  · exact fun hi hn hsup hmay => traps_privilege_of_writesCsr hw hi hn hsup hmay

/-! ## The value that a write leaves, bit by bit (R365) -/

/-- A field bit that a write can change takes its new value, every other bit stays (R365). -/
theorem getLsbD_csrNew (m : CsrMode) (id : CsrId) (old a : Word) (k : Nat) (hk : k < 64) (h : id.access ≠ .w1c) :
    (csrNew m id old a).getLsbD k = if id.mask.getLsbD k then (m.apply old a).getLsbD k else old.getLsbD k := by
  have hnew : csrNew m id old a = (old &&& ~~~id.mask) ||| (m.apply old a &&& id.mask) := if_neg h
  rw [hnew, BitVec.getLsbD_or, BitVec.getLsbD_and, BitVec.getLsbD_and, BitVec.getLsbD_not, decide_eq_true hk]
  cases id.mask.getLsbD k <;> simp

theorem field_eq_of_getLsbD_eq {v w : Word} {lo len : Nat} (h : ∀ k < len, v.getLsbD (lo + k) = w.getLsbD (lo + k)) :
    field v lo len = field w lo len := by
  have hx : v.extractLsb' lo len = w.extractLsb' lo len := BitVec.eq_of_getLsbD_eq fun k hk => by
    simp only [BitVec.getLsbD_extractLsb', h k hk]
  have hnat := congrArg BitVec.toNat hx
  rwa [BitVec.extractLsb'_toNat, BitVec.extractLsb'_toNat, Nat.shiftRight_eq_div_pow, Nat.shiftRight_eq_div_pow] at hnat

/-- A field of a CSR takes the bits of s[a] that CSRW writes to it. -/
theorem field_csrNew_write {id : CsrId} {lo len : Nat} (old a : Word) (hacc : id.access ≠ .w1c)
    (hmask : ∀ k < len, lo + k < 64 ∧ id.mask.getLsbD (lo + k) = true) : field (csrNew .write id old a) lo len = field a lo len :=
  field_eq_of_getLsbD_eq fun k hk => by
    obtain ⟨h64, hset⟩ := hmask k hk
    rw [getLsbD_csrNew .write id old a _ h64 hacc, hset]
    rfl

/-! ## The CSRs that have a rule of their own (R365) -/

/-- The CSRs whose own rule refuses some value. -/
def CsrId.ruled (i : CsrId) : Bool :=
  match i with
  | .frm | .vl | .vtagl | .vtagh | .epx | .vhwm _ | .fkcfg | .tfmt | .apitch | .owntbl | .ecls | .thpri | .trapv | .trcctl => true
  | _ => false

/-- Their numbers, in the order of `LegalCsr`. -/
def RuledNumber (n : Nat) : Prop :=
  n = 0x002 ∨ n = 0x010 ∨ n = 0x011 ∨ n = 0x012 ∨ n = 0x013 ∨ (0x040 ≤ n ∧ n ≤ 0x05F) ∨ n = 0x092 ∨ n = 0x0A0 ∨ n = 0x0A3 ∨
    n = 0x0D1 ∨ n = 0x0F1 ∨ n = 0x0F2 ∨ n = 0x100 ∨ n = 0x160

theorem legalCsr_of_not_ruledNumber {n : Nat} (u : CtxId) (v : Word) (h : ¬RuledNumber n) : LegalCsr u n v := by
  unfold RuledNumber at h
  unfold LegalCsr
  rw [if_neg (by omega), if_neg (by omega), if_neg (by omega), if_neg (by omega), if_neg (by omega), if_neg (by omega),
    if_neg (by omega), if_neg (by omega), if_neg (by omega), if_neg (by omega), if_neg (by omega), if_neg (by omega)]
  omega

theorem CsrId.ruled_of_ruledNumber {id : CsrId} (h : RuledNumber id.number) : id.ruled = true := by
  cases id <;> simp [RuledNumber, CsrId.number, CsrId.ruled] at h ⊢ <;> omega

theorem CsrId.ruled_of_not_legalCsr {id : CsrId} {u : CtxId} {v : Word} (h : ¬LegalCsr u id.number v) : id.ruled = true :=
  CsrId.ruled_of_ruledNumber (Classical.not_not.mp fun hn => h (legalCsr_of_not_ruledNumber u v hn))

theorem CsrId.vhwm_number (n : Fin 32) : 0x040 ≤ (CsrId.vhwm n).number ∧ (CsrId.vhwm n).number ≤ 0x05F := by
  have := n.isLt
  simp only [CsrId.number]
  omega

/-- A mark is legal up to 16 granules (R133). -/
theorem legalCsr_mark {n : Nat} (u : CtxId) (v : Word) (h : 0x040 ≤ n ∧ n ≤ 0x05F) : LegalCsr u n v ↔ field v 0 5 ≤ 16 := by
  unfold LegalCsr
  rw [if_neg (by omega), if_neg (by omega), if_neg (by omega), if_neg (by omega), if_pos h]
  rfl

theorem writtenBits_mark {n : Nat} (h : 0x040 ≤ n ∧ n ≤ 0x05F) : writtenBits n = some (0x1F, 0) := by
  unfold writtenBits
  rw [if_neg (by omega), if_neg (by omega), if_neg (by omega), if_neg (by omega), if_neg (by omega), if_pos h]

theorem Tag.ofCode_eq_none {n : Nat} (h : 12 < n) : Tag.ofCode n = none := by
  unfold Tag.ofCode
  split <;> simp_all

theorem le_of_tagsOk {v : Word} (h : tagsOk v = true) : ∀ k < 16, field v (4 * k) 4 ≤ 12 := by
  intro k hk
  refine Classical.byContradiction fun hgt => ?_
  have := List.all_eq_true.mp h k (List.mem_range.mpr hk)
  rw [Tag.ofCode_eq_none (by omega)] at this
  exact Bool.noConfusion this

theorem opFmtOk_iff (n : Nat) : opFmtOk n = true ↔ n ∈ [0, 1, 9, 10, 11, 12] := by
  simp [opFmtOk, or_assoc]

theorem accFmtOk_iff (n : Nat) : accFmtOk n = true ↔ n ∈ [0, 3, 11] := by
  simp [accFmtOk, or_assoc]

theorem field_one (v : Word) (k : Nat) : field v k 1 = 1 ↔ bitOf v k = true := by
  rw [bitOf, BitVec.getLsbD, Nat.testBit_eq_decide_div_mod_eq, decide_eq_true_eq]
  rfl

/-- The model refuses the values that the rule of a CSR refuses. -/
theorem Ctx.csrPut_of_not_legalCsr (c : Ctx) (u : CtxId) (id : CsrId) (v : Word) (h : ¬LegalCsr u id.number v) :
    c.csrPut u.isQcc id v = none := by
  have hruled := CsrId.ruled_of_not_legalCsr h
  cases id
  case frm => exact if_pos (Nat.lt_of_not_le h)
  case vl => exact if_pos (Nat.lt_of_not_le h)
  case vtagl => exact if_neg fun hok => h (le_of_tagsOk hok)
  case vtagh => exact if_neg fun hok => h (le_of_tagsOk hok)
  case epx =>
    refine if_pos (Classical.byContradiction fun hany => h fun k hk => ?_)
    rw [List.any_eq_true] at hany
    exact Nat.le_of_not_lt fun hgt => hany ⟨k, List.mem_range.mpr hk, decide_eq_true hgt⟩
  case vhwm n => exact if_pos (Nat.lt_of_not_le (mt (legalCsr_mark u v (CsrId.vhwm_number n)).mpr h))
  case fkcfg =>
    have h' : ¬(2 ≤ field v 0 5 ∧ field v 0 5 ≤ 16) := h
    exact if_pos (by omega)
  case tfmt =>
    refine if_neg fun hok => h ?_
    simp only [Bool.and_eq_true, opFmtOk_iff, accFmtOk_iff] at hok
    obtain ⟨⟨hA, hB⟩, hacc⟩ := hok
    exact ⟨hA, hB, hacc⟩
  case apitch => exact if_neg h
  case owntbl => exact if_pos (Nat.lt_of_not_le h)
  case ecls => exact if_pos (Classical.not_not.mp h)
  case thpri => exact if_pos (Nat.lt_of_not_le h)
  case trapv =>
    have h' : ¬(128 ≤ u.unit.val → field v 8 9 * 256 + 0x100 < 0x10000) := h
    obtain ⟨hqcc, hpast⟩ := Classical.not_imp.mp h'
    exact if_pos (by rw [isQcc_eq, decide_eq_true hqcc, Bool.true_and]; exact decide_eq_true (Nat.le_of_not_lt hpast))
  case trcctl =>
    have h' : ¬(bitOf v 1 = true → bitOf v 0 = true) := fun hrule =>
      h fun _ hpe => (field_one v 0).mpr (hrule ((field_one v 1).mp hpe))
    obtain ⟨hpe, hvt⟩ := Classical.not_imp.mp h'
    exact if_pos (by rw [hpe, Bool.eq_false_iff.mpr hvt]; rfl)
  all_goals cases hruled

/-! ## What a write that a rule refuses does -/

theorem writtenBits_of_ruled {id : CsrId} (h : id.ruled = true) : ∃ kept, writtenBits id.number = some (id.mask, kept) := by
  cases id
  case vhwm n => exact ⟨0, writtenBits_mark (CsrId.vhwm_number n)⟩
  all_goals cases h
  all_goals exact ⟨_, rfl⟩

theorem CsrId.access_of_ruled {id : CsrId} (h : id.ruled = true) : id.access ≠ .w1c := by
  cases id <;> cases h <;> exact Access.noConfusion

theorem State.csrStore_of_ruled (s : State) {id : CsrId} (v : Word) (h : id.ruled = true) :
    s.csrStore id v = (s.me.csrPut s.cur.isQcc id v).map (fun c => s.setCtx s.cur c) := by
  cases id <;> cases h <;> rfl

/-- On a CSR with a rule the field-by-field word of R365 is the one that the model stores. -/
theorem csrNew_of_leaves {s : State} {i : Instr} {d a : BitVec 5} {n : BitVec 12} {old v : Word} {id : CsrId} {m : CsrMode}
    (hn : n.toNat = id.number) (hruled : id.ruled = true) (hm : ∀ old x, csrEffect old x d a n i = some (m.apply old x))
    (h : Leaves s i d a n old v) : v = csrNew m id old (s.me.x a) := by
  obtain ⟨kept, hbits⟩ := writtenBits_of_ruled hruled
  unfold Leaves at h
  rw [hn, hbits] at h
  obtain ⟨-, w, hw, rfl⟩ := h
  obtain rfl : m.apply old (s.me.x a) = w := Option.some_inj.mp ((hm _ _).symm.trans hw)
  exact (eq_fromBits fun k hk => getLsbD_csrNew m id old _ k hk (CsrId.access_of_ruled hruled)).symm

section
variable {s : State} {i : Instr} {d a : BitVec 5} {n : BitVec 12}

/-- A permitted write of a value that the CSR's rule refuses raises ILLEGAL-OPERAND. -/
theorem traps_illegalOperand_of_not_legalCsr {id : CsrId} {m : CsrMode} (hid : csrAt s.cur.isQcc n.toNat = some id)
    (hm : m.writes a = true) (hexec : exec i s = .next (s.csrOp i m d a n)) (hmay : MayTrap s) (hwrite : MayWriteCsr s n.toNat)
    (hlegal : ¬LegalCsr s.cur n.toNat (csrNew m id (s.csrRead s.cur id) (s.me.x a))) : Traps i s 0x02 0 := by
  rw [csrAt_number hid] at hwrite hlegal
  obtain ⟨hlevel, hawaited, htile⟩ := hwrite
  have hchunk : s.me.chunk = none := hmay.1
  have hruled := CsrId.ruled_of_not_legalCsr hlegal
  have hrefused : s.csrStore id (csrNew m id (s.csrRead s.cur id) (s.x a)) = none := by
    rw [s.csrStore_of_ruled _ hruled]
    exact congrArg _ (s.me.csrPut_of_not_legalCsr s.cur id _ hlegal)
  refine traps_of_exec_raise ?_ hmay
  rw [hexec, s.csrOp_write i m d a n id hid hm (id.allows_write _ hlevel) hchunk,
    s.csrWrite_refused m d a id (s.me.csrReady_of_nothingAwaited id true hawaited fun _ => htile)
      (fun hg => by rw [hg] at hruled; cases hruled) hrefused]
  rfl

end

/-- The words s[a] with which CSRW to FRM, VL, FKCFG, ECLS and THPRI breaks their rules (R68, R132, R167, R350, R346). -/
def RefusedByCsrw (n : BitVec 12) (x : Word) : Prop :=
  (n = 0x002 ∧ 4 < x.toNat % 8) ∨ (n = 0x010 ∧ 1024 < x.toNat % 2048) ∨ (n = 0x092 ∧ (x.toNat % 32 < 2 ∨ 16 < x.toNat % 32)) ∨
    (n = 0x0F1 ∧ x.toNat % 4 = 3) ∨ (n = 0x0F2 ∧ x.toNat / 256 % 256 < 8)

theorem not_legalCsr_of_refusedByCsrw {n : BitVec 12} {x : Word} (u : CtxId) (hcore : u.unit.val < 128) (h : RefusedByCsrw n x) :
    ∃ id, csrAt u.isQcc n.toNat = some id ∧ ∀ old, ¬LegalCsr u n.toNat (csrNew .write id old x) := by
  rw [isQcc_eq, decide_eq_false (Nat.not_le_of_lt hcore)]
  rcases h with ⟨rfl, h⟩ | ⟨rfl, h⟩ | ⟨rfl, h⟩ | ⟨rfl, h⟩ | ⟨rfl, h⟩
  · refine ⟨.frm, rfl, fun old (hlegal : field _ 0 3 ≤ 4) => ?_⟩
    rw [field_csrNew_write old x (by decide) (by decide), field] at hlegal
    omega
  · refine ⟨.vl, rfl, fun old (hlegal : field _ 0 11 ≤ 1024) => ?_⟩
    rw [field_csrNew_write old x (by decide) (by decide), field] at hlegal
    omega
  · refine ⟨.fkcfg, rfl, fun old (hlegal : 2 ≤ field _ 0 5 ∧ field _ 0 5 ≤ 16) => ?_⟩
    rw [field_csrNew_write old x (by decide) (by decide), field] at hlegal
    omega
  · refine ⟨.ecls, rfl, fun old (hlegal : field _ 0 2 ≠ 3) => ?_⟩
    rw [field_csrNew_write old x (by decide) (by decide), field] at hlegal
    omega
  · refine ⟨.thpri, rfl, fun old (hlegal : 8 ≤ field _ 8 8) => ?_⟩
    rw [field_csrNew_write old x (by decide) (by decide), field] at hlegal
    omega

theorem mayWriteCsr_of_refusedByCsrw {s : State} {n : BitVec 12} {x : Word} (hsup : s.me.sup = true) (hvecs : s.me.vecs = [])
    (h : RefusedByCsrw n x) : MayWriteCsr s n.toNat := by
  have hnumber : n.toNat ≠ 0x001 ∧ ¬(0x0A0 ≤ n.toNat ∧ n.toNat ≤ 0x0A3) := by
    rcases h with ⟨rfl, -⟩ | ⟨rfl, -⟩ | ⟨rfl, -⟩ | ⟨rfl, -⟩ | ⟨rfl, -⟩ <;> decide
  obtain ⟨hfflg, htile⟩ := hnumber
  exact ⟨fun _ => hsup, ⟨fun _ => hvecs, fun h => absurd h hfflg⟩, fun h => absurd h htile⟩

theorem csrWord_of_csrCommon (s : State) (u : CtxId) {n : Nat} {id : CsrId} (h : csrCommon n = some id) :
    csrWord s u n = some (s.csrRead u id) := by
  rw [← csrAt_map_csrRead, csrAt_eq_or, h]
  rfl

/-- Every unit has SLOTCFG, THPRI, DESCHED, TRAPV, XPC and PTROOT, and only level S may write them (R4, R375). -/
theorem traps_privilege_of_csrw {s : State} {d a : BitVec 5} {n : BitVec 12} (hmay : MayTrap s) (hsup : s.me.sup = false)
    (hn : n = 0x0D0 ∨ n = 0x0F2 ∨ n = 0x0F3 ∨ n = 0x100 ∨ n = 0x103 ∨ n = 0x106) :
    Traps (.csrw d a n) s 0x0C (wordVal (.csrw d a n)) := by
  have hid : ∃ id, csrCommon n.toNat = some id ∧ (id.access = .so ∨ id.access = .srw) := by
    rcases hn with rfl | rfl | rfl | rfl | rfl | rfl <;> exact ⟨_, rfl, by decide⟩
  obtain ⟨id, hid, hacc⟩ := hid
  rw [← CsrId.onlyS_number, ← CsrId.writesOnlyS_number, ← csrCommon_number n.toNat id hid] at hacc
  exact traps_privilege_of_writesCsr (csrWord_of_csrCommon s s.cur hid) (.inl rfl) hacc hsup hmay

/-- Settles O10: a write that may go on stores `csrNew`, and the model refuses what the rule of the CSR refuses
(`Ctx.csrPut_of_not_legalCsr`). -/
theorem csrRefusals : Obligations.CsrRefusals := by
  intro s d a n hmay
  refine ⟨fun hsup hcore hvecs h => ?_, fun hsup hn => traps_privilege_of_csrw hmay hsup hn,
    fun i old v hi hwrite hword hleaves hlegal => ?_⟩
  · obtain ⟨id, hid, hillegal⟩ := not_legalCsr_of_refusedByCsrw s.cur hcore h
    exact traps_illegalOperand_of_not_legalCsr (m := .write) hid rfl rfl hmay (mayWriteCsr_of_refusedByCsrw hsup hvecs h) (hillegal _)
  · obtain ⟨id, hid, hn, rfl⟩ := csrAt_of_csrWord hword
    obtain ⟨m, hm, hexec, heffect⟩ := exec_of_writesCsr hi
    obtain rfl := csrNew_of_leaves hn (CsrId.ruled_of_not_legalCsr (hn ▸ hlegal)) heffect hleaves
    exact traps_illegalOperand_of_not_legalCsr hid hm (hexec s) hmay hwrite hlegal

/-! ## The machine right after reset (R5) -/

theorem State.reset_quad (d : Fin 8) (q : Nat) : State.reset.quad d q = Quad.reset := rfl

theorem State.reset_die (d : Fin 8) : State.reset.die d = Die.reset := Vector.getElem_replicate d.isLt

theorem State.reset_ringMode (d : Fin 8) (q : Nat) : State.reset.ringMode d q = 0 := by
  rw [State.ringMode, State.reset_die]
  simp [Die.reset, field]

theorem State.reset_partOf (d : Fin 8) (q : Nat) : State.reset.partOf d q = 0 := by
  rw [State.partOf, State.reset_die]
  simp [Die.reset, field]

theorem State.reset_part (p : Nat) : State.reset.part p = Part.reset := by
  simp [State.part, State.reset]

theorem State.reset_ring (d : Fin 8) (q : Nat) : State.reset.ring d q = Ring.fresh resetQcore 16 := by
  have hlen : State.reset.ringLen d q = 16 := by rw [State.ringLen, State.reset_ringMode]; rfl
  rw [← hlen]
  rfl

/-- At reset no quad is warm (R350). -/
theorem State.reset_ringTherm (d : Fin 8) (q : Nat) : State.reset.ringTherm d q = 0 := by
  rw [State.ringTherm, State.ringLen, State.reset_ringMode]
  rfl

theorem resetCsr_eq_zero {n : Nat} (h : ¬(0x060 ≤ n ∧ n ≤ 0x063) ∧ n ≠ 0x092 ∧ n ≠ 0x0A3 ∧ n ≠ 0x0F2 ∧ n ≠ 0x0F3 ∧
    ¬(0x120 ≤ n ∧ n ≤ 0x123)) : resetCsr n = 0 := by
  obtain ⟨hpol, hfkcfg, hapitch, hthpri, hdesched, hrwin⟩ := h
  rw [resetCsr, if_neg hpol, if_neg hfkcfg, if_neg hapitch, if_neg hthpri, if_neg hdesched, if_neg hrwin]

theorem resetCsr_pol (n : Fin 4) : resetCsr (CsrId.pol n).number = 0xFFFFFFFF00000000 :=
  if_pos (by simp only [CsrId.number]; omega)

theorem resetCsr_rwin (n : Fin 4) : resetCsr (CsrId.rwin n).number = 0x700 := by
  have hn : 0x120 ≤ (CsrId.rwin n).number ∧ (CsrId.rwin n).number ≤ 0x123 := by simp only [CsrId.number]; omega
  rw [resetCsr, if_neg (by omega), if_neg (by omega), if_neg (by omega), if_neg (by omega), if_neg (by omega), if_pos hn]

theorem resetCsr_other {n : Nat} (h : (0x040 ≤ n ∧ n ≤ 0x05F) ∨ (0x0C0 ≤ n ∧ n ≤ 0x0CF) ∨ 0x130 ≤ n) : resetCsr n = 0 :=
  resetCsr_eq_zero (by omega)

/-- Every CSR that has a reset value reads as it (R5). -/
theorem State.reset_csrRead (u : CtxId) (id : CsrId) (hself : id ≠ .self) (healw : id ≠ .ealw) (halw : ∀ k, id ≠ .alw k) :
    State.reset.csrRead u id = resetCsr id.number := by
  cases id
  case self => exact absurd rfl hself
  case ealw => exact absurd rfl healw
  case alw k => exact absurd rfl (halw k)
  case vhwm n =>
    rw [resetCsr_other (by simp only [CsrId.number]; omega)]
    show BitVec.ofNat 64 Ctx.idle.vregs[n].hwm = 0
    rw [show Ctx.idle.vregs[n] = VReg.zero from Vector.getElem_replicate n.isLt]
    rfl
  case pol n =>
    rw [resetCsr_pol]
    exact Vector.getElem_replicate n.isLt
  case dslot n =>
    rw [resetCsr_other (by simp only [CsrId.number]; omega)]
    show slotCsr Ctx.idle.slots[n] 0 = 0
    rw [show Ctx.idle.slots[n] = DSlot.unbound from Vector.getElem_replicate n.isLt]
    decide
  case rwin n =>
    rw [resetCsr_rwin]
    exact Vector.getElem_replicate n.isLt
  case rngb n =>
    rw [resetCsr_other (by simp only [CsrId.number]; omega)]
    exact Vector.getElem_replicate n.isLt
  case rngl n =>
    rw [resetCsr_other (by simp only [CsrId.number]; omega)]
    exact Vector.getElem_replicate n.isLt
  case pmc n =>
    rw [resetCsr_other (by simp only [CsrId.number]; omega)]
    exact Vector.getElem_replicate n.isLt
  case ecls =>
    show BitVec.ofNat 64 0 ||| Machine.place 8 2 (State.reset.ringTherm u.die _) = 0
    rw [State.reset_ringTherm]
    decide
  case fkcfg =>
    show (Machine.place 0 5 16 ||| boolBit 16 false) ||| Machine.place 8 5 (State.reset.ringOf u).elim = 0x1010
    rw [State.ringOf, State.reset_ring]
    decide
  case gswt =>
    show (State.reset.part _).armed.getD 0 = 0
    rw [State.reset_part]
    rfl
  case vtagl => show packTags Ctx.idle.vregs 0 = 0; decide
  case vtagh => show packTags Ctx.idle.vregs 16 = 0; decide
  case sqcnt => show packSq Ctx.idle.sqcnt = 0; decide
  case thpri => show thpriOf Ctx.idle = 0x4000; decide
  case xstat => show xstatOf Ctx.idle = 0; decide
  all_goals rfl

theorem Ctx.idle_x (r : BitVec 5) : Ctx.idle.x r = 0 := by
  unfold Ctx.x
  split
  · rfl
  · exact Vector.getElem_replicate r.isLt

theorem Evu.reset_bar (b : Fin 8) : Evu.reset.bars[b] = ⟨4, 0, 0, Vector.replicate 18 0xFFFFFFFF⟩ := Vector.getElem_replicate b.isLt

theorem State.reset_canonical : Canonical State.reset := ⟨rfl, List.Pairwise.nil, fun _ h => nomatch h⟩

/-- Settles O56: no table of the machine right after reset lists anything, so each piece is its reset value; the CSRs read as
`State.reset_csrRead` says. -/
theorem resetState : Obligations.ResetState := by
  refine ⟨State.reset_canonical, fun u => ⟨rfl, Ctx.idle_x, rfl, fun n id hid hself healw halw => ?_⟩, fun _ => rfl,
    fun _ _ => ⟨rfl, rfl⟩, fun d q => ⟨State.reset_ringMode d q, State.reset_partOf d q, ?_, rfl⟩, fun d q b => ?_,
    fun d q n => Vector.getElem_replicate n.isLt, fun _ => rfl, fun p => ?_, rfl, rfl, rfl, rfl, rfl, rfl⟩
  · rw [csrAt_number hid]
    exact State.reset_csrRead u id hself healw halw
  · rw [State.reset_ring]
    rfl
  · rw [State.reset_quad]
    simp only [Quad.reset, Evu.reset_bar, and_self]
  · exact congrArg Part.pstate (Vector.getElem_replicate p.isLt)

end Sys2Proof.Machine
